-- ==== Sys2Proof/Word.lean ====
section
/-! DEFINITION. Words, bytes and sparse arrays as plain data: the byte and register words of R8, a reference to a register
field, and lists of numbered entries. Only types stand here; what reads and writes them stands in Machine/Ops.lean. -/

namespace Sys2Proof

/-- A byte of a frame, a cell or a console line. -/
abbrev Byte := BitVec 8

/-- A 32-bit register word (R8). -/
abbrev Dword := BitVec 32

/-- A 64-bit HAC register or instruction word. -/
abbrev Qword := BitVec 64

/-- A sparse array: the entries that differ from their unlisted value, with strictly rising indices. -/
abbrev SMap (α : Type) := List (Nat × α)

/-- A register field: the byte offset of its register, its lowest bit, its width in bits and its reset value. -/
structure Fld where
  off : Nat
  lo : Nat
  width : Nat
  rst : Nat
  deriving DecidableEq, Repr

end Sys2Proof
end

