-- ==== Sys2Proof/Config.lean ====
section
/-! DEFINITION. What an implementation fixes, and the free values: a constant without a body stands for a value the spec
does not give, and no proof can see what it is. -/

namespace Sys2Proof.Config

/-- The grade of the part (R3, R4): true for a TRT6416-AE, false for a TRT6416-AQ (DESIGN CHOICE, log entry 34). -/
opaque gradeAE : Bool

/-- DEV_ID of stepping B0 (R2, R3) (DESIGN CHOICE, log entry 34). -/
def devId : Nat := 0x6416B000 + (if gradeAE then 0x20 else 0x10)

/-- TJ_ALARM at reset: 130 °C on an AQ part, 155 °C on an AE part (R559) (DESIGN CHOICE, log entry 34). -/
def tjAlarmReset : Nat := if gradeAE then 155 else 130

/-- A value the spec leaves undefined, drawn afresh: the argument is State's counter of the values drawn so far (DESIGN CHOICE, log entry 35). -/
opaque freeValue : Nat → Nat

/-- The capacity of each HIF unit per nominal tick while no PCIe link is trained, which R54 does not state (DESIGN CHOICE, log entry 36). -/
opaque hifNoLink : Nat

/-- The released PCI vendor identifier, held in the boot ROM, which the spec does not give (R566) (DESIGN CHOICE, log entry 37). -/
opaque vendorId : Nat

/-- The manufacturer code in the identification register of the TAP, which the spec does not give (R661) (DESIGN CHOICE, log entry 34). -/
opaque jepCode : Nat

/-- Subsystem Vendor ID and Subsystem ID of a boot image, whose place in the image the spec does not give (R330) (DESIGN CHOICE, log entry 37). -/
opaque subsystem : List Byte → Nat

/-- The completion timeout in ns that HIF uses for a code of the timeout value, within the range of the code (R326, R349) (PRESUMED, log entry 14). -/
opaque cplTimeout : Nat → Nat

/-- The nominal mid-code of an analog trim word, which the spec does not give (R566) (DESIGN CHOICE, log entry 37). -/
opaque trimMid : Nat → Nat

/-- The forward body bias in mV that PMU chooses in Day from its process monitor; the device keeps within 150 (R531) (DESIGN CHOICE, log entry 95). -/
opaque dayBias : Nat

end Sys2Proof.Config
end

