-- ==== Sys2Proof/Syntax.lean ====
section
/-! DEFINITION. The commands of the block: one constructor for each row of spec/opcode_table.json, with what the row's event
carries from outside the device (the bytes of a frame, the data of a write, what a PHY, a rail or the host answered). -/

namespace Sys2Proof

/-- Ports P0 to P5. -/
abbrev Port := Fin 6
/-- Tenants T0 to T15. -/
abbrev Tenant := Fin 16
/-- Functions: 0 to 15 the tenants, 16 the owner (R95). -/
abbrev Func := Fin 17
/-- Transmit rings TXR0 to TXR3. -/
abbrev TxRing := Fin 4
/-- Rings of a function: 0-3 TXR, 4-7 RXR, 8 ELR, 9 EVR, 10 EXQ (R351). -/
abbrev AnyRing := Fin 11
/-- Egress queues Q0 to Q7 of a port. -/
abbrev Queue := Fin 8
/-- MAS lanes. -/
abbrev Lane := Fin 4
/-- CRU0 to CRU3. -/
abbrev CruUnit := Fin 4
/-- The two job ports J0 and J1 of a CRU. -/
abbrev JobPort := Fin 2
/-- Time domains TD0 and TD1. -/
abbrev Dom := Fin 2
/-- Pause indices: priorities 0 to 7 and the PAUSE index 8 (R158). -/
abbrev HeldIndex := Fin 9
/-- Classes of R58. -/
abbrev FrameClass := Fin 8
/-- Overlay banks V0 and V1 (R231). -/
abbrev Bank := Fin 2
/-- Ledger mirrors M0 and M1 (R105). -/
abbrev Mirror := Fin 2
/-- MDIO masters 0 and 1 (R149). -/
abbrev MdioMaster := Fin 2
/-- A cell of the shared buffer (R178). -/
abbrev Cell := Fin 49152
/-- A header template (R198). -/
abbrev Template := Fin 1024
/-- A policer (R226). -/
abbrev Policer := Fin 512
/-- A counter of R230. -/
abbrev Counter := Fin 1024
/-- A word of the HAC store (R270). -/
abbrev HacWord := Fin 16384
/-- A generation function (R311). -/
abbrev GenFn := Fin 64
/-- A recovery function (R316). -/
abbrev RecFn := Fin 128
/-- An interrupt source (R460). -/
abbrev IrqSource := Fin 384
/-- A key slot of DGE (R443). -/
abbrev KeySlot := Fin 64
/-- A context of DGE: 0-15 the tenants, 16 the owner and MGC (R440). -/
abbrev DgeCtx := Fin 17
/-- A timed output TOUT0 to TOUT7. -/
abbrev ToutPin := Fin 8
/-- A capture input TCAP0 to TCAP3. -/
abbrev TcapPin := Fin 4
/-- A wake pin WAKE0 to WAKE3. -/
abbrev WakePin := Fin 4

/-- Where a frame comes from (SRC_KIND and SRC_ID of R212): a port, a host ring, or MGC's network console (R515). -/
inductive Source where
  | port (p : Port)
  | ring (f : Func) (r : TxRing)
  | mgc
  deriving DecidableEq, Repr

/-- A frame in arrival: on the preemptable or normal MAC of a port, on its express MAC (R307), or the frame that a host
ring is fetching. -/
inductive Arr where
  | rx (p : Port) (express : Bool)
  | host (f : Func) (r : TxRing)
  deriving DecidableEq, Repr

/-- The lane context in which a HAC instruction issues (R207): the classification context of a frame in arrival, or the
resolution context of a lane. -/
inductive HacAt where
  | cls (a : Arr)
  | res (l : Lane)
  deriving DecidableEq, Repr

/-- What the reads of one cell's stripes met (R183): how many words SEC-DED corrected, and for each of the banks B0 to B4
the number of its uncorrectable words; `silent` names stripes that were read changed without an ECC error, with the bytes they
read as: one stripe, or all five of another cell in a read from the wrong address. `writeFail` lists banks whose macro reported a write failure (R186), and `link` says in how many of its
copies the cell's link word is uncorrectable (R181, R189). -/
structure CellFault where
  corrected : Nat
  unc : List Nat
  silent : List (Fin 5 × List Byte)
  writeFail : List Nat
  link : Fin 3
  deriving DecidableEq, Repr

/-- A fragment of a received frame (R304, R307): the number that its delimiter gives the frame, its own number, the bytes of the frame
that it adds, and the mCRC that ends it where it is not the last. -/
structure Fragment where
  frame : Fin 4
  num : Fin 4
  len : Nat
  mcrc : BitVec 32
  deriving DecidableEq, Repr

/-- What the read of one table word met (R219). -/
inductive WordState where
  | clean
  | corrected
  | uncorrectable
  deriving DecidableEq, Repr

/-- What the comparison of one ledger word of both mirrors met (R105, R106, R108). -/
inductive MirrorState where
  | clean
  | corrected
  | uncorrectable (m : Mirror)
  | differ
  deriving DecidableEq, Repr

/-- The engines of R590, in the order of the bits of ENG_RST. -/
abbrev Engine := Fin 17

/-- What the alarm of a supply or clock monitor concerns (R449, R603). -/
inductive AlarmKind where
  | supply
  | clock
  deriving DecidableEq, Repr

/-- What the autonegotiation exchange of a port answered (R128, R164): the link bit and the rate code of a control word, duplex, and of a
base page the PAUSE, ASM_DIR and remote-fault bits. -/
structure AnResult where
  link : Bool
  rate : Fin 8
  fullDuplex : Bool
  pause : Bool
  asmDir : Bool
  fault : Fin 4
  deriving DecidableEq, Repr

/-- Why an UP port leaves UP (R127). -/
inductive LinkCause where
  | lock
  | sync
  | status
  | localFault
  | remoteFault
  deriving DecidableEq, Repr

/-- Why a function quiesces (R347). -/
inductive QuiesceCause where
  | busMaster
  | d3hot
  deriving DecidableEq, Repr

/-- How a read completion ends (R350): with its data, with Unsupported Request, with Completer Abort, or poisoned. -/
inductive ReadEnd where
  | data | unsupported | aborted | poisoned
  deriving DecidableEq, Repr

/-- A reset of the PCIe link other than PE_PERST_N (R328). -/
inductive LinkReset where
  | hotReset
  | linkDisable
  | linkDown
  deriving DecidableEq, Repr

/-- The two FIFOs with an age timer (R488). -/
inductive Fifo where
  | evlog
  | tele
  deriving DecidableEq, Repr

/-- Who reads a register: each reader has its own latches (R617). -/
inductive Reader where
  | owner
  | tenant (n : Tenant)
  | mgc
  deriving DecidableEq, Repr

/-- The 64-bit statistics of a port (R156). -/
inductive StatCounter where
  | rxOctets | rxEnded | rxBcast | rxMcast | rxMacctl
  | rxSize (b : Fin 8)
  | txOctets | txFrames | txBcast | txMcast | txMacctl
  | txSize (b : Fin 8)
  deriving DecidableEq, Repr

/-- A console channel (R490). -/
inductive Channel where
  | uart
  | mbx (f : Func)
  | net (p : Port)
  deriving DecidableEq, Repr

/-- The supply rails with a monitor (R635). -/
inductive Rail where
  | aon | core | sram | asx | hsx | ioA | ioB
  deriving DecidableEq, Repr

/-- What the Basic Flash Parameter Table of a serial NOR device states (R570): its fastest 1-1-4 and 1-4-4 reads (opcode and dummy
cycles), its quad-enable method, its size and page size in bytes, the opcodes of 4 KiB erase, page program and status polling, and its
maximum rate in MHz. -/
structure Sfdp where
  quadOut : Option (Nat × Nat)
  quadIo : Option (Nat × Nat)
  enable : Nat
  size : Nat
  page : Nat
  erase : Nat
  program : Nat
  poll : Nat
  mhz : Nat
  deriving DecidableEq, Repr

/-- A data-register scan of the test access port (R661, R664 to R666): the levels that the pins show, one bit for each boundary cell,
and those of WAKE0 to WAKE3 in mV; the bits shifted in, bit k for cell k; and the falling edges of TCK that follow in Run-Test/Idle. -/
structure Scan where
  levels : BitVec 100
  wake : List Nat
  tdi : BitVec 100
  idle : Nat
  deriving DecidableEq, Repr

/-- What a start meets outside the digital logic (chapter 19). `fuses` are reads of fuse words that differ from what the block is
known to hold: the word, what its low-margin and its high-margin read decode to (none: uncorrectable), and whether either read was
corrected (R565). `nor` is what the serial NOR device holds in J0, J1, slot A and slot B where it was written from outside since the
last start, `sfdp` its parameters, where their signature is found (R570); `norBad` the regions (0 to 3 in that order) that cannot be read, `journalOk` whether a journal entry can be written
(R571), `cfgSame` whether the CONFIG segment read by MGC is the one the ROM read (R587). `failed` are the codes of the arrays with
an unrepairable fault in the order found, `soft` the number of soft repairs made (R667), `retentionOk` whether the retention pool holds what was last written to it (R111), `marginal` how many fuse words stay marginal when MGC programs them (R586), `rfBad` the words of the retention file whose parity fails (R554). -/
structure StartInputs where
  fuses : List (Nat × Option Nat × Option Nat × Bool)
  nor : Option (List Byte × List Byte × List Byte × List Byte)
  sfdp : Option Sfdp
  norBad : List (Fin 4)
  journalOk : Bool
  cfgSame : Bool
  failed : List Nat
  soft : Nat
  retentionOk : Bool
  marginal : Nat
  rfBad : List (Fin 64)
  deriving DecidableEq, Repr

/-- The commands: one constructor for each row of spec/opcode_table.json. -/
inductive Instr where
  /-- RX_FRAME_START (R115). -/
  | rxFrameStart (p : Port) (express : Bool) (bytes : List Byte)
  /-- ADDRESS_FILTER (R138). -/
  | addressFilter (p : Port) (express : Bool)
  /-- CELL_TAKEN (R194). -/
  | cellTaken (a : Arr)
  /-- FOLD_DECISION (R201). -/
  | foldDecision (a : Arr)
  /-- CLASSIFICATION (R14). -/
  | classification (a : Arr) (steps : Nat)
  /-- RX_LAST_BYTE (R15). -/
  | rxLastByte (p : Port) (express : Bool) (frags : List Fragment)
  /-- RESOLUTION (R17). -/
  | resolution (handle : Nat) (steps : Nat)
  /-- RESOLUTION_RESUME (R263). -/
  | resolutionResume (lane : Lane) (handle : Nat) (steps : Nat)
  /-- END (R245). -/
  | hacEnd (at_ : HacAt) (f1 f2 : BitVec 4) (f3 f4 : BitVec 8) (imm : BitVec 32)
  /-- CLOSE (R245). -/
  | hacClose (at_ : HacAt) (f1 f2 : BitVec 4) (f3 f4 : BitVec 8) (imm : BitVec 32)
  /-- TRAP (R266). -/
  | hacTrap (at_ : HacAt) (f1 f2 : BitVec 4) (f3 f4 : BitVec 8) (imm : BitVec 32)
  /-- BR (R246). -/
  | hacBr (at_ : HacAt) (f1 f2 : BitVec 4) (f3 f4 : BitVec 8) (imm : BitVec 32)
  /-- LDI (R251). -/
  | hacLdi (at_ : HacAt) (f1 f2 : BitVec 4) (f3 f4 : BitVec 8) (imm : BitVec 32)
  /-- LDIH (R251). -/
  | hacLdih (at_ : HacAt) (f1 f2 : BitVec 4) (f3 f4 : BitVec 8) (imm : BitVec 32)
  /-- LDB (R241). -/
  | hacLdb (at_ : HacAt) (f1 f2 : BitVec 4) (f3 f4 : BitVec 8) (imm : BitVec 32)
  /-- STB (R241). -/
  | hacStb (at_ : HacAt) (f1 f2 : BitVec 4) (f3 f4 : BitVec 8) (imm : BitVec 32)
  /-- MOVB (R251). -/
  | hacMovb (at_ : HacAt) (f1 f2 : BitVec 4) (f3 f4 : BitVec 8) (imm : BitVec 32)
  /-- CMPB (R251). -/
  | hacCmpb (at_ : HacAt) (f1 f2 : BitVec 4) (f3 f4 : BitVec 8) (imm : BitVec 32)
  /-- ADD (R251). -/
  | hacAdd (at_ : HacAt) (f1 f2 : BitVec 4) (f3 f4 : BitVec 8) (imm : BitVec 32)
  /-- SUB (R251). -/
  | hacSub (at_ : HacAt) (f1 f2 : BitVec 4) (f3 f4 : BitVec 8) (imm : BitVec 32)
  /-- AND (R251). -/
  | hacAnd (at_ : HacAt) (f1 f2 : BitVec 4) (f3 f4 : BitVec 8) (imm : BitVec 32)
  /-- OR (R251). -/
  | hacOr (at_ : HacAt) (f1 f2 : BitVec 4) (f3 f4 : BitVec 8) (imm : BitVec 32)
  /-- XOR (R251). -/
  | hacXor (at_ : HacAt) (f1 f2 : BitVec 4) (f3 f4 : BitVec 8) (imm : BitVec 32)
  /-- SHL (R251). -/
  | hacShl (at_ : HacAt) (f1 f2 : BitVec 4) (f3 f4 : BitVec 8) (imm : BitVec 32)
  /-- SHR (R251). -/
  | hacShr (at_ : HacAt) (f1 f2 : BitVec 4) (f3 f4 : BitVec 8) (imm : BitVec 32)
  /-- CMP (R251). -/
  | hacCmp (at_ : HacAt) (f1 f2 : BitVec 4) (f3 f4 : BitVec 8) (imm : BitVec 32)
  /-- MOV (R251). -/
  | hacMov (at_ : HacAt) (f1 f2 : BitVec 4) (f3 f4 : BitVec 8) (imm : BitVec 32)
  /-- LKX (R253). -/
  | hacLkx (at_ : HacAt) (f1 f2 : BitVec 4) (f3 f4 : BitVec 8) (imm : BitVec 32)
  /-- LKT (R253). -/
  | hacLkt (at_ : HacAt) (f1 f2 : BitVec 4) (f3 f4 : BitVec 8) (imm : BitVec 32)
  /-- SPC (R214). -/
  | hacSpc (at_ : HacAt) (f1 f2 : BitVec 4) (f3 f4 : BitVec 8) (imm : BitVec 32)
  /-- FLOW (R255). -/
  | hacFlow (at_ : HacAt) (f1 f2 : BitVec 4) (f3 f4 : BitVec 8) (imm : BitVec 32)
  /-- EXIT (R223). -/
  | hacExit (at_ : HacAt) (f1 f2 : BitVec 4) (f3 f4 : BitVec 8) (imm : BitVec 32)
  /-- FWDX (R254). -/
  | hacFwdx (at_ : HacAt) (f1 f2 : BitVec 4) (f3 f4 : BitVec 8) (imm : BitVec 32)
  /-- TELE (R234). -/
  | hacTele (at_ : HacAt) (f1 f2 : BitVec 4) (f3 f4 : BitVec 8) (imm : BitVec 32)
  /-- EXED (R256). -/
  | hacExed (at_ : HacAt) (f1 f2 : BitVec 4) (f3 f4 : BitVec 8) (imm : BitVec 32)
  /-- DISP (R256). -/
  | hacDisp (at_ : HacAt) (f1 f2 : BitVec 4) (f3 f4 : BitVec 8) (imm : BitVec 32)
  /-- PATCH (R258). -/
  | hacPatch (at_ : HacAt) (f1 f2 : BitVec 4) (f3 f4 : BitVec 8) (imm : BitVec 32)
  /-- REC (R317). -/
  | hacRec (at_ : HacAt) (f1 f2 : BitVec 4) (f3 f4 : BitVec 8) (imm : BitVec 32)
  /-- POL (R228). -/
  | hacPol (at_ : HacAt) (f1 f2 : BitVec 4) (f3 f4 : BitVec 8) (imm : BitVec 32)
  /-- CNT (R230). -/
  | hacCnt (at_ : HacAt) (f1 f2 : BitVec 4) (f3 f4 : BitVec 8) (imm : BitVec 32)
  /-- CRC (R261). -/
  | hacCrc (at_ : HacAt) (f1 f2 : BitVec 4) (f3 f4 : BitVec 8) (imm : BitVec 32)
  /-- DIG (R262). -/
  | hacDig (at_ : HacAt) (f1 f2 : BitVec 4) (f3 f4 : BitVec 8) (imm : BitVec 32)
  /-- WAIT (R263). -/
  | hacWait (at_ : HacAt) (f1 f2 : BitVec 4) (f3 f4 : BitVec 8) (imm : BitVec 32)
  /-- CRC_JOB_DONE (R455). -/
  | crcJobDone (handle : Nat) (u : CruUnit)
  /-- DIG_JOB_DONE (R437). -/
  | digJobDone (handle corr : Nat)
  /-- CELL_READ (R183). -/
  | cellRead (cell : Cell) (f : CellFault)
  /-- STAGE_FRAME (R289). -/
  | stageFrame (p : Port)
  /-- TX_START (R288). -/
  | txStart (p : Port)
  /-- TX_LAST_BYTE (R19). -/
  | txLastByte (p : Port)
  /-- LAUNCH_TIME_REACHED (R300). -/
  | launchTimeReached (p : Port) (q : Queue)
  /-- GATE_ENTRY (R292). -/
  | gateEntry (p : Port)
  /-- GCL_SWITCH (R296). -/
  | gclSwitch (p : Port)
  /-- RESIDENCE_CAP_MISS (R290). -/
  | residenceCapMiss (p : Port) (q : Queue)
  /-- PAUSE_TIMER_EXPIRE (R158). -/
  | pauseTimerExpire (p : Port) (i : HeldIndex)
  /-- PAUSE_WD_BREAK (R165). -/
  | pauseWdBreak (p : Port) (i : HeldIndex)
  /-- PAUSE_WD_HOLD_END (R166). -/
  | pauseWdHoldEnd (p : Port) (i : HeldIndex)
  /-- XOFF_CHANGE (R173). -/
  | xoffChange (p : Port) (c : FrameClass)
  /-- FC_REFRESH (R173). -/
  | fcRefresh (p : Port)
  /-- XOFF_CAP (R175). -/
  | xoffCap (p : Port) (c : FrameClass)
  /-- TICK_BOUNDARY (R36). -/
  | tickBoundary (tj : BitVec 11)
  /-- THERM_DERATE_CLEAR (R5). -/
  | thermDerateClear
  /-- COMMIT_BOUNDARY (R71). -/
  | commitBoundary
  /-- BUDGET_CHECK_DONE (R64). -/
  | budgetCheckDone
  /-- CHECK_RERUN (R75). -/
  | checkRerun
  /-- OVERLAY_COPY_START (R231). -/
  | overlayCopyStart (b : Bank)
  /-- OVERLAY_COPY_DONE (R231). -/
  | overlayCopyDone (b : Bank)
  /-- TEMPLATE_INSTALL (R205). -/
  | templateInstall (t : Template)
  /-- BANK_RETIRE (R445). -/
  | bankRetire
  /-- HAC_RETIRE_END (R272). -/
  | hacRetireEnd
  /-- POLICER_SWEEP (R228). -/
  | policerSweep (i : Policer)
  /-- BUF_SCRUB_READ (R190). -/
  | bufScrubRead (f : CellFault) (met : Bool)
  /-- BUF_SCRUB_WRITEBACK (R192). -/
  | bufScrubWriteback (met : Bool)
  /-- TABLE_SCRUB (R219). -/
  | tableScrub (w : WordState) (struck : List (Nat × WordState))
  /-- LED_SCRUB (R108). -/
  | ledScrub (w : MirrorState)
  /-- LED_MIRROR_FAIL (R106). -/
  | ledMirrorFail (m : Mirror)
  /-- LED_REBUILD_DONE (R107). -/
  | ledRebuildDone (ok : Bool)
  /-- LANE_FAULT (R210). -/
  | laneFault (l : Lane)
  /-- ENGINE_PARITY_FAULT (R593). -/
  | engineParityFault (e : Engine)
  /-- QUEUE_LINK_ERROR (R603). -/
  | queueLinkError (p : Port)
  /-- SUPPLY_CLOCK_ALARM (R449). -/
  | supplyClockAlarm (a : AlarmKind) (held : Bool)
  /-- DGE_CLEAR (R449). -/
  | dgeClear (cause : Nat)
  /-- DGE_CLEAR_END (R449). -/
  | dgeClearEnd
  /-- CRU_PARITY_FAULT (R457). -/
  | cruParityFault (u : CruUnit)
  /-- ECLIPSE_DRAIN_END (R605). -/
  | eclipseDrainEnd
  /-- ECLIPSE_REQ (R603). -/
  | eclipseReq
  /-- ENG_RST (R592). -/
  | engRst (e : Engine)
  /-- ENGINE_RESET_DONE (R592). -/
  | engineResetDone (e : Engine)
  /-- MGC_WATCHDOG_EXPIRE (R594). -/
  | mgcWatchdogExpire
  /-- MGC_KICK (R594). -/
  | mgcKick
  /-- MGC_RESET (R595). -/
  | mgcReset
  /-- LINK_ACQUIRED (R127). -/
  | linkAcquired (p : Port)
  /-- AN_COMPLETE (R128). -/
  | anComplete (p : Port) (r : AnResult)
  /-- LINK_CAUSE_LOST (R127). -/
  | linkCauseLost (p : Port) (c : LinkCause)
  /-- LINK_CAUSE_CLEARED (R131). -/
  | linkCauseCleared (p : Port)
  /-- LINK_DEBOUNCE_EXPIRE (R129). -/
  | linkDebounceExpire (p : Port)
  /-- PARTNER_PAGE_CHANGE (R127). -/
  | partnerPageChange (p : Port)
  /-- MAC_RST (R155). -/
  | macRst (p : Port)
  /-- PCS_RST (R155). -/
  | pcsRst (p : Port)
  /-- AN_RESTART (R155). -/
  | anRestart (p : Port)
  /-- SX_CFG_WRITE (R132). -/
  | sxCfgWrite (p : Port) (v : Dword)
  /-- VERIFY_RECEIVED (R305). -/
  | verifyReceived (p : Port)
  /-- RESPOND_RECEIVED (R305). -/
  | respondReceived (p : Port)
  /-- VERIFY_TIMEOUT (R305). -/
  | verifyTimeout (p : Port)
  /-- MDIO_C22_WRITE (R151). -/
  | mdioC22Write (m : MdioMaster) (phy reg : Fin 32) (data : BitVec 16)
  /-- MDIO_C22_READ (R151). -/
  | mdioC22Read (m : MdioMaster) (phy reg : Fin 32)
  /-- MDIO_C45_ADDRESS (R151). -/
  | mdioC45Address (m : MdioMaster) (prt dev : Fin 32) (addr : BitVec 16)
  /-- MDIO_C45_WRITE (R151). -/
  | mdioC45Write (m : MdioMaster) (prt dev : Fin 32) (addr data : BitVec 16)
  /-- MDIO_C45_READ (R151). -/
  | mdioC45Read (m : MdioMaster) (prt dev : Fin 32) (addr : BitVec 16)
  /-- MDIO_C45_READ_INC (R151). -/
  | mdioC45ReadInc (m : MdioMaster) (prt dev : Fin 32)
  /-- MDIO_DONE (R153). -/
  | mdioDone (m : MdioMaster) (acked : Bool) (data : BitVec 16)
  /-- HOST_DESC_FETCH (R360). -/
  | hostDescFetch (f : Func) (r : TxRing)
  /-- TX_DESC_ARRIVAL (R362). -/
  | txDescArrival (f : Func) (r : TxRing) (desc : List Byte)
  /-- HOST_READ_COMPLETION (R23). -/
  | hostReadCompletion (f : Func) (r : TxRing) (bytes : List Byte) (e : ReadEnd)
  /-- HOST_FRAME_LAST_READ (R85). -/
  | hostFrameLastRead (f : Func) (r : TxRing)
  /-- COMPLETION_TIMEOUT (R349). -/
  | completionTimeout (f : Func) (r : AnyRing)
  /-- HOST_STALL_DETECT (R119). -/
  | hostStallDetect
  /-- HOST_STALL_CLEAR (R121). -/
  | hostStallClear
  /-- HOST_STALL_ESCALATE (R121). -/
  | hostStallEscalate
  /-- RX_DESC_PREFETCH (R368). -/
  | rxDescPrefetch (f : Func) (r : AnyRing) (desc : List Byte)
  /-- HOST_DATA_WRITE (R371). -/
  | hostDataWrite (handle : Nat) (i : Fin 8)
  /-- COMPLETION_WRITE (R366). -/
  | completionWrite (f : Func) (r : AnyRing)
  /-- WB_COALESCE_EXPIRE (R380). -/
  | wbCoalesceExpire (f : Func) (r : AnyRing)
  /-- WRITE_ACKNOWLEDGED (R97). -/
  | writeAcknowledged
  /-- EVENT_RECORD_WRITE (R377). -/
  | eventRecordWrite (f : Func)
  /-- EL_RECORD_WRITE (R391). -/
  | elRecordWrite (n : Tenant)
  /-- DOORBELL (R357). -/
  | doorbell (f : Func) (r : AnyRing) (v : BitVec 16)
  /-- RING_ENABLE (R353). -/
  | ringEnable (f : Func) (r : AnyRing) (v : Dword)
  /-- RING_RESET (R354). -/
  | ringReset (f : Func) (r : AnyRing)
  /-- RING_RESET_END (R354). -/
  | ringResetEnd (f : Func) (r : AnyRing)
  /-- VF_ENABLE_SET (R332). -/
  | vfEnableSet (num : BitVec 16) (ari : Bool)
  /-- VF_ENABLE_CLEAR (R333). -/
  | vfEnableClear
  /-- FLR_INITIATE (R343). -/
  | flrInitiate (n : Tenant)
  /-- HIF_FLR (R342). -/
  | hifFlr (f : Func)
  /-- FLR_DONE (R345). -/
  | flrDone (f : Func)
  /-- OWNER_FLR (R346). -/
  | ownerFlr
  /-- QUIESCE (R347). -/
  | quiesce (f : Func) (why : QuiesceCause)
  /-- UNQUIESCE (R347). -/
  | unquiesce (f : Func)
  /-- MPS_MRRS_CHANGE (R327). -/
  | mpsMrrsChange (mps mrrs : Fin 3)
  /-- PERST_ASSERT (R328). -/
  | perstAssert
  /-- PCIE_LINK_RESET (R328). -/
  | pcieLinkReset (c : LinkReset)
  /-- PERST_DEASSERT (R329). -/
  | perstDeassert (speed : Fin 4) (width : Fin 3)
  /-- READY_TIMEOUT (R329). -/
  | readyTimeout
  /-- IRQ_MESSAGE_ISSUE (R472). -/
  | irqMessageIssue
  /-- IRQ_HELD_RELEASE (R473). -/
  | irqHeldRelease (src : IrqSource)
  /-- EOI (R465). -/
  | eoi (src : IrqSource)
  /-- PEND_WRITE (R463). -/
  | pendWrite (src : IrqSource)
  /-- IRQ_CNT_READ (R462). -/
  | irqCntRead (rd : Reader) (src : IrqSource)
  /-- EVLOG_LO_READ (R482). -/
  | evlogLoRead (rd : Reader)
  /-- TELE_SAMPLE (R483). -/
  | teleSample
  /-- TELE_D_0_READ (R486). -/
  | teleD0Read (rd : Reader)
  /-- TLR_MOVE (R487). -/
  | tlrMove
  /-- TLR_TAIL_WRITE (R487). -/
  | tlrTailWrite (v : BitVec 16)
  /-- FIFO_AGE_EXPIRE (R488). -/
  | fifoAgeExpire (which : Fifo)
  /-- TBL_STG_GO (R233). -/
  | tblStgGo
  /-- TBL_RD_IDX_WRITE (R232). -/
  | tblRdIdxWrite (v : BitVec 15)
  /-- HAC_HI_WRITE (R270). -/
  | hacHiWrite (w : HacWord) (v : Dword)
  /-- CNT_CLR (R230). -/
  | cntClr (c : Counter)
  /-- CNT_PKT_LO_READ (R230). -/
  | cntPktLoRead (rd : Reader)
  /-- TCNT_PKT_LO_READ (R614). -/
  | tcntPktLoRead (n : Tenant)
  /-- HIT_WORD_READ (R220). -/
  | hitWordRead (rd : Reader)
  /-- SKETCH_CLEAR (R236). -/
  | sketchClear
  /-- SKETCH_CLEAR_DONE (R236). -/
  | sketchClearDone
  /-- SKETCH_QRY (R237). -/
  | sketchQry (x : BitVec 16)
  /-- FLOW_REC_W0_READ (R91). -/
  | flowRecW0Read (rd : Reader)
  /-- GEN_RESET (R315). -/
  | genReset (g : GenFn)
  /-- REC_RESET (R321). -/
  | recReset (f : RecFn)
  /-- REC_RESET_TIMER (R318). -/
  | recResetTimer (f : RecFn)
  /-- LATENT_TEST (R322). -/
  | latentTest (f : RecFn)
  /-- LATENT_RESET (R322). -/
  | latentReset (f : RecFn)
  /-- EL_FLOW_WRITE (R382). -/
  | elFlowWrite (n : Tenant) (en : Bool)
  /-- TICK_NUM_LO_READ (R42). -/
  | tickNumLoRead (rd : Reader)
  /-- STAT_LO_READ (R156). -/
  | statLoRead (rd : Reader) (p : Port) (c : StatCounter)
  /-- RC_FIELD_READ (R620). -/
  | rcFieldRead (rd : Reader) (off : Nat) (be : BitVec 4) (more : List (BitVec 4))
  /-- TD_NS_READ (R402). -/
  | tdNsRead (rd : Reader) (d : Dom)
  /-- TD_RATE_LO_WRITE (R407). -/
  | tdRateLoWrite (d : Dom) (v : Dword)
  /-- TD_ADJ_STEP (R409). -/
  | tdAdjStep (d : Dom) (v : Dword)
  /-- TD_ADJ_SLEW (R409). -/
  | tdAdjSlew (d : Dom) (v : Dword)
  /-- SLEW_DONE (R409). -/
  | slewDone (d : Dom)
  /-- SET_GO (R410). -/
  | setGo (d : Dom) (force : Bool)
  /-- SET_VALID (R405). -/
  | setValid (d : Dom)
  /-- CLR_VALID (R404). -/
  | clrValid (d : Dom)
  /-- SYNC_TIMEOUT (R404). -/
  | syncTimeout (d : Dom)
  /-- HOLD_MAX_EXPIRE (R406). -/
  | holdMaxExpire (d : Dom)
  /-- TU_SNAP (R403). -/
  | tuSnap
  /-- LEAP_APPLY (R427). -/
  | leapApply
  /-- CAL_TIME_TO_DATE (R428). -/
  | calTimeToDate (d : Dom)
  /-- CAL_SEC_TO_DATE (R428). -/
  | calSecToDate
  /-- CAL_DATE_TO_SEC (R430). -/
  | calDateToSec
  /-- CAL_DATE_SET (R430). -/
  | calDateSet (d : Dom)
  /-- TOUT_ARM (R418). -/
  | toutArm (i : ToutPin)
  /-- TOUT_DISARM (R418). -/
  | toutDisarm (i : ToutPin)
  /-- TOUT_EDGE (R421). -/
  | toutEdge (i : ToutPin)
  /-- TOUT_PULSE_END (R417). -/
  | toutPulseEnd (i : ToutPin)
  /-- TCAP_EDGE (R424). -/
  | tcapEdge (j : TcapPin) (rising : Bool) (width : Nat)
  /-- TSQ_W0_READ (R416). -/
  | tsqW0Read (rd : Reader) (p : Port)
  /-- TCAP_W0_READ (R425). -/
  | tcapW0Read (rd : Reader) (j : TcapPin)
  /-- KEY_LOAD_GO (R444). -/
  | keyLoadGo
  /-- KEY_LOAD_DONE (R444). -/
  | keyLoadDone
  /-- SYS_OPEN (R442). -/
  | sysOpen (alg : Nat) (hmac : Bool) (key : KeySlot)
  /-- SYS_APPEND (R442). -/
  | sysAppend (v : Dword)
  /-- SYS_TAIL (R442). -/
  | sysTail (n : Fin 8)
  /-- SYS_FINAL (R442). -/
  | sysFinal
  /-- SYS_ABORT (R440). -/
  | sysAbort
  /-- STREAM_DONE (R440). -/
  | streamDone (c : DgeCtx) (corr : Nat)
  /-- DIGEST_15_READ (R442). -/
  | digest15Read (rd : Reader)
  /-- CONTEXT_PREEMPT (R441). -/
  | contextPreempt
  /-- DGE_CTRL_CLEAR (R449). -/
  | dgeCtrlClear
  /-- CRU_JOB_OPEN (R456). -/
  | cruJobOpen (u : CruUnit) (j : JobPort) (foldLen : Fin 16)
  /-- CRU_JOB_APPEND (R456). -/
  | cruJobAppend (u : CruUnit) (j : JobPort) (v : Dword)
  /-- CRU_JOB_TAIL (R456). -/
  | cruJobTail (u : CruUnit) (j : JobPort) (n : Fin 8)
  /-- CRU_JOB_FINAL (R456). -/
  | cruJobFinal (u : CruUnit) (j : JobPort)
  /-- CRU_JOB_ABORT (R456). -/
  | cruJobAbort (u : CruUnit) (j : JobPort)
  /-- CRU_PORT_JOB_DONE (R456). -/
  | cruPortJobDone (u : CruUnit) (j : JobPort)
  /-- MBX_CMD_GO (R507). -/
  | mbxCmdGo (f : Func)
  /-- MBX_RPL_POP (R509). -/
  | mbxRplPop (f : Func)
  /-- UART_BYTE_RECEIVED (R504). -/
  | uartByteReceived (b : Byte) (stopOk : Bool)
  /-- UART_BREAK (R505). -/
  | uartBreak
  /-- NETCON_FRAME (R513). -/
  | netconFrame
  /-- CONSOLE_RETRY (R495). -/
  | consoleRetry (ch : Channel)
  /-- PING (R521). -/
  | ping (ch : Channel)
  /-- MODE (R497). -/
  | mode (ch : Channel)
  /-- BAUD (R503). -/
  | baud (ch : Channel)
  /-- SHOW (R522). -/
  | show (ch : Channel)
  /-- RD (R518). -/
  | rd (ch : Channel)
  /-- WR (R518). -/
  | wr (ch : Channel)
  /-- SET (R517). -/
  | setField (ch : Channel)
  /-- STAGE_DROP (R519). -/
  | stageDrop (ch : Channel)
  /-- CHECK (R520). -/
  | check (ch : Channel)
  /-- COMMIT (R70). -/
  | commit (ch : Channel)
  /-- LOG (R523). -/
  | log (ch : Channel)
  /-- TELE_ON (R524). -/
  | teleOn (ch : Channel)
  /-- TELE_OFF (R524). -/
  | teleOff (ch : Channel)
  /-- MDIO_RD (R525). -/
  | mdioRd (ch : Channel)
  /-- MDIO_WR (R525). -/
  | mdioWr (ch : Channel)
  /-- RESET_ENGINE (R525). -/
  | resetEngine (ch : Channel)
  /-- RESET_TENANT (R525). -/
  | resetTenant (ch : Channel)
  /-- RESET_SELF (R525). -/
  | resetSelf (ch : Channel)
  /-- RESET_DEVICE (R525). -/
  | resetDevice (ch : Channel)
  /-- DIGEST_OPEN (R526). -/
  | digestOpen (ch : Channel)
  /-- DIGEST_DATA (R526). -/
  | digestData (ch : Channel)
  /-- DIGEST_FINAL (R526). -/
  | digestFinal (ch : Channel)
  /-- DIGEST_ABORT (R526). -/
  | digestAbort (ch : Channel)
  /-- UPDATE_STATUS (R527). -/
  | updateStatus (ch : Channel)
  /-- UPDATE_BEGIN (R581). -/
  | updateBegin (ch : Channel) (norOk : Bool)
  /-- UPDATE_DATA (R581). -/
  | updateData (ch : Channel) (norOk : Bool)
  /-- UPDATE_END (R581). -/
  | updateEnd (ch : Channel) (norOk : Bool)
  /-- UPDATE_ACTIVATE (R581). -/
  | updateActivate (ch : Channel) (norOk : Bool)
  /-- UPDATE_CONFIRM (R581). -/
  | updateConfirm (ch : Channel) (norOk : Bool) (marginal : Nat)
  /-- TRIAL_TIMER_EXPIRE (R583). -/
  | trialTimerExpire (st : StartInputs)
  /-- POWER_ON (R562). -/
  | powerOn (st : StartInputs)
  /-- DEVICE_RESET (R564). -/
  | deviceReset (pin : Bool) (st : StartInputs)
  /-- PORST_ASSERT (R654). -/
  | porstAssert
  /-- RAIL_MONITOR_LOW (R635). -/
  | railMonitorLow (r : Rail)
  /-- PM_REQ_DAY (R537). -/
  | pmReqDay
  /-- PM_REQ_DUSK (R535). -/
  | pmReqDusk
  /-- PM_REQ_TWILIGHT (R539). -/
  | pmReqTwilight
  /-- PM_REQ_NIGHT (R544). -/
  | pmReqNight
  /-- DUSK_SWITCH (R536). -/
  | duskSwitch
  /-- DUSK_EXIT_SWITCH (R537). -/
  | duskExitSwitch
  /-- BIAS_SETTLED (R531). -/
  | biasSettled
  /-- DRAIN_COMPLETE (R541). -/
  | drainComplete
  /-- DRAIN_TIMEOUT (R540). -/
  | drainTimeout
  /-- L2_REACHED (R543). -/
  | l2Reached
  /-- L2_WAIT_TIMEOUT (R541). -/
  | l2WaitTimeout
  /-- TW_NIGHT_EXPIRE (R544). -/
  | twNightExpire
  /-- WAKE_PIN_EDGE (R546). -/
  | wakePinEdge (w : WakePin) (rising : Bool)
  /-- WAKE_PATTERN_MATCH (R547). -/
  | wakePatternMatch (p : Port) (bytes : List Byte)
  /-- LINK_ENERGY_WAKE (R548). -/
  | linkEnergyWake (p : Port)
  /-- PERST_WAKE (R545). -/
  | perstWake
  /-- NIGHT_RAILS_GOOD (R549). -/
  | nightRailsGood (st : StartInputs)
  /-- TAP_RESET (R660). -/
  | tapReset (st : StartInputs)
  /-- EXTEST (R662). -/
  | extest (dr : Option Scan)
  /-- SAMPLE_PRELOAD (R661). -/
  | samplePreload (dr : Option Scan) (st : StartInputs)
  /-- IDCODE (R661). -/
  | idcode (dr : Option Scan) (st : StartInputs)
  /-- HIGHZ (R662). -/
  | highz (dr : Option Scan)
  /-- CLAMP (R662). -/
  | clamp (dr : Option Scan)
  /-- EXTEST_PULSE (R666). -/
  | extestPulse (dr : Option Scan)
  /-- EXTEST_TRAIN (R666). -/
  | extestTrain (dr : Option Scan)
  /-- MBIST_RESULT (R668). -/
  | mbistResult (dr : Option Scan) (st : StartInputs)
  /-- BYPASS (R661). -/
  | bypass (op : Byte) (dr : Option Scan) (st : StartInputs)
  /-- REGISTER_WRITE (R618). -/
  | registerWrite (f : Func) (off : Nat) (be : BitVec 4) (v : Dword) (more : List (BitVec 4 × Dword))
  /-- SYSRST_DEASSERT (R654). -/
  | sysrstDeassert (st : StartInputs)
  /-- PME_TURN_OFF (R541). -/
  | pmeTurnOff
  /-- LTR_MECHANISM_ENABLE (R538). -/
  | ltrMechanismEnable
  /-- RAIL_MONITOR_GOOD (R635). -/
  | railMonitorGood (r : Rail) (volts33 : Bool) (st : StartInputs)
  /-- MGC_SRAM_UNCORRECTABLE (R591). -/
  | mgcSramUncorrectable
  /-- UART_TX_BYTE_END (R503). -/
  | uartTxByteEnd
  /-- INVALID_CODE_GROUP (R591). -/
  | invalidCodeGroup (p : Port)
  deriving DecidableEq, Repr

end Sys2Proof
end

