-- ==== Sys2Proof/Decode.lean ====
section
/-! DEFINITION. No row of spec/opcode_table.json gives its command any bits, so no word spells a command. -/

namespace Sys2Proof

/-- The command a word of nbits bits spells by the opcode table: none, because no row of the table gives bits (DESIGN CHOICE, log entry 90). -/
def decodeTableWord (_nbits _w : Nat) : Option Instr := none

end Sys2Proof
end

