-- ==== Sys2Proof/Machine/Fields.lean ====
section
/-! DEFINITION. The register fields of the device, by the names of the spec's register tables (spec/ chapters 2 to 21):
each is a function of its indices and gives the register's byte offset, the field's lowest bit, its width and its reset
value (R626). An owner register is keyed by its offset in the owner's BAR0 (R610), a register of tenant Tn by
0x1000000 * (n + 1) plus its offset in the tenant's BAR0 (R337). -/

namespace Sys2Proof.Machine.R

/-- Base of ring r of function f (16 the owner), R351 and the register heading of chapter 12. -/
def ringBase (f r : Nat) : Nat :=
  if f = 16 then 0x52000 + 0x40 * r else 0x1000000 * (f + 1) + 0x1000 + 0x40 * r
/-- Base of the console mailbox of function f (16 the owner), R506 and R337. -/
def mbxBase (f : Nat) : Nat := if f = 16 then 0xA0000 else 0x1000000 * (f + 1) + 0x8000
/-- Base of the MSI-X table of function f (16 the owner), R335. -/
def msixBase (f : Nat) : Nat := if f = 16 then 0xB0000 else 0x1000000 * (f + 1) + 0xE000
/-- Offset of the pending-bit array of function f (16 the owner), R335. -/
def msixPba (f : Nat) : Nat := if f = 16 then 0xB1000 else 0x1000000 * (f + 1) + 0xF000

/-! Fields of spec/02_tick_and_budget.md -/
def TICK_CFG_PERIOD : Fld := ⟨0x60100, 0, 3, 2⟩
def TICK_CFG_PHASE : Fld := ⟨0x60100, 8, 18, 0⟩
def TICK_ACTIVE : Fld := ⟨0x60104, 0, 32, 2⟩
def TICK_STAT_TICK_UNSYNCED : Fld := ⟨0x60108, 0, 1, 1⟩
def TICK_STAT_TICK_SLEWING : Fld := ⟨0x60108, 1, 1, 0⟩
def TICK_STAT_TICK_OVERRUN : Fld := ⟨0x60108, 2, 1, 0⟩
def TICK_STAT_OVERRUN_ENG : Fld := ⟨0x60108, 3, 9, 0⟩
def TICK_ERR : Fld := ⟨0x6010C, 0, 32, 0⟩
def TICK_NUM_LO : Fld := ⟨0x60110, 0, 32, 0⟩
def TICK_NUM_HI : Fld := ⟨0x60114, 0, 16, 0⟩
def OVERRUN_CNT : Fld := ⟨0x60118, 0, 32, 0⟩
def OVERRUN_FIRST : Fld := ⟨0x6011C, 0, 32, 0⟩
def CFG_EPOCH : Fld := ⟨512, 0, 32, 0⟩
def BCHK_STATUS_PASS : Fld := ⟨516, 0, 1, 0⟩
def BCHK_STATUS_PENDING : Fld := ⟨516, 1, 1, 0⟩
def BCHK_STATUS_STALE : Fld := ⟨516, 2, 1, 0⟩
def BCHK_STATUS_LOCKED : Fld := ⟨516, 3, 1, 0⟩
def BCHK_STATUS_ENGINE : Fld := ⟨516, 8, 4, 0⟩
def BCHK_DEMAND : Fld := ⟨520, 0, 32, 0⟩
def BCHK_CEILING : Fld := ⟨524, 0, 32, 0⟩
def COMMIT_TICK_LO : Fld := ⟨528, 0, 32, 0⟩
def COMMIT_TICK_HI : Fld := ⟨532, 0, 16, 0⟩
def ENV_CTRL_DEFCLASS (n : Nat) : Fld := ⟨0x10400 + 0x2000 * n, 0, 3, 0⟩
def ENV_MIN_INTERVAL (n : Nat) : Fld := ⟨0x10404 + 0x2000 * n, 0, 24, 0⟩
def ENV_RATE (n c : Nat) : Fld := ⟨0x10410 + 0x2000 * n + 8 * c, 0, 14, 0x2710⟩
def ENV_BURST (n c : Nat) : Fld := ⟨0x10414 + 0x2000 * n + 8 * c, 0, 18, 0x4800⟩
def ENV_DISC (n c : Nat) : Fld := ⟨0x10450 + 0x2000 * n + 4 * c, 0, 32, 0⟩
def TENV_MIN_INTERVAL (f r : Nat) : Fld := ⟨0x53000 + 64 * f + 16 * r, 0, 24, 0⟩
def TENV_RATE (f r : Nat) : Fld := ⟨0x53004 + 64 * f + 16 * r, 0, 14, 0x2710⟩
def TENV_BURST (f r : Nat) : Fld := ⟨0x53008 + 64 * f + 16 * r, 0, 18, 0x4800⟩

/-! Fields of spec/03_accepted_work.md -/
def ADM_DISC_FCS (n : Nat) : Fld := ⟨0x10500 + 0x2000 * n, 0, 32, 0⟩
def ADM_DISC_LEN (n : Nat) : Fld := ⟨0x10504 + 0x2000 * n, 0, 32, 0⟩
def ADM_DISC_ADDR (n : Nat) : Fld := ⟨0x10508 + 0x2000 * n, 0, 32, 0⟩
def ADM_REF_RESET (n : Nat) : Fld := ⟨0x1050C + 0x2000 * n, 0, 32, 0⟩
def ADM_REF_CELLS (n : Nat) : Fld := ⟨0x10510 + 0x2000 * n, 0, 32, 0⟩
def ADM_REF_FLOW (n : Nat) : Fld := ⟨0x10514 + 0x2000 * n, 0, 32, 0⟩
def ADM_REF_QUEUE (n : Nat) : Fld := ⟨0x10518 + 0x2000 * n, 0, 32, 0⟩
def ADM_REF_TENANT (n : Nat) : Fld := ⟨0x1051C + 0x2000 * n, 0, 32, 0⟩
def ADM_REF_LEDGER (n : Nat) : Fld := ⟨0x10520 + 0x2000 * n, 0, 32, 0⟩
def ADM_ACC (n : Nat) : Fld := ⟨0x10524 + 0x2000 * n, 0, 32, 0⟩
def MIRROR_SKIP (n : Nat) : Fld := ⟨0x10528 + 0x2000 * n, 0, 32, 0⟩
def LED_STAT_M0_FAIL : Fld := ⟨0x28000, 0, 1, 0⟩
def LED_STAT_M1_FAIL : Fld := ⟨0x28000, 1, 1, 0⟩
def LED_STAT_REBUILD : Fld := ⟨0x28000, 2, 1, 0⟩
def LED_STAT_DEGRADED : Fld := ⟨0x28000, 3, 1, 0⟩
def LED_STAT_RET_VALID : Fld := ⟨0x28000, 4, 1, 0⟩
def LED_STAT_ENTRY_LOW : Fld := ⟨0x28000, 5, 1, 0⟩
def ENTRY_FREE : Fld := ⟨0x28004, 0, 17, 0x10000⟩
def FLOW_SEL : Fld := ⟨0x28008, 0, 12, 0⟩
def FLOW_REC_W0 : Fld := ⟨0x28010, 0, 32, 0⟩
def FLOW_REC_W1 : Fld := ⟨0x28014, 0, 32, 0⟩
def FLOW_REC_W2 : Fld := ⟨0x28018, 0, 32, 31⟩
def FLOW_REC_W3 : Fld := ⟨0x2801C, 0, 32, 0⟩
def FLOW_CFG_FN : Fld := ⟨0x28020, 0, 5, 31⟩
def FLOW_CFG_EN : Fld := ⟨0x28020, 5, 1, 0⟩
def FLOW_CFG_HOSTSEQ : Fld := ⟨0x28020, 6, 1, 0⟩
def RET_HWM : Fld := ⟨0x28024, 0, 32, 0⟩
def DISP_CNT (d : Nat) : Fld := ⟨0x28040 + 4 * d, 0, 32, 0⟩
def EXC_SKIP : Fld := ⟨0x28070, 0, 32, 0⟩
def MIRROR_ERR_CNT : Fld := ⟨0x28080, 0, 32, 0⟩
def HS_STAT_HOST_STALL : Fld := ⟨0x50040, 0, 1, 0⟩
def HS_STAT_HS_ESC : Fld := ⟨0x50040, 1, 1, 0⟩
def HS_DETECT : Fld := ⟨0x50044, 0, 16, 0x1F40⟩
def HS_ESC_TICKS : Fld := ⟨0x50048, 0, 24, 0x3E80⟩
def HS_CNT : Fld := ⟨0x5004C, 0, 32, 0⟩

/-! Fields of spec/04_port_macs.md -/
def RX_OCTETS (n : Nat) : Fld := ⟨0x10600 + 0x2000 * n, 0, 32, 0⟩
def RX_ENDED (n : Nat) : Fld := ⟨0x10608 + 0x2000 * n, 0, 32, 0⟩
def RX_BCAST (n : Nat) : Fld := ⟨0x10610 + 0x2000 * n, 0, 32, 0⟩
def RX_MCAST (n : Nat) : Fld := ⟨0x10618 + 0x2000 * n, 0, 32, 0⟩
def RX_MACCTL (n : Nat) : Fld := ⟨0x10620 + 0x2000 * n, 0, 32, 0⟩
def RX_SIZE (n b : Nat) : Fld := ⟨0x10630 + 0x2000 * n + 8 * b, 0, 32, 0⟩
def TX_OCTETS (n : Nat) : Fld := ⟨0x10680 + 0x2000 * n, 0, 32, 0⟩
def TX_FRAMES (n : Nat) : Fld := ⟨0x10688 + 0x2000 * n, 0, 32, 0⟩
def TX_BCAST (n : Nat) : Fld := ⟨0x10690 + 0x2000 * n, 0, 32, 0⟩
def TX_MCAST (n : Nat) : Fld := ⟨0x10698 + 0x2000 * n, 0, 32, 0⟩
def TX_MACCTL (n : Nat) : Fld := ⟨0x106A0 + 0x2000 * n, 0, 32, 0⟩
def TX_SIZE (n b : Nat) : Fld := ⟨0x106B0 + 0x2000 * n + 8 * b, 0, 32, 0⟩
def PORT_CFG_IF (n : Nat) : Fld := ⟨0x10000 + 0x2000 * n, 0, 3, 0⟩
def PORT_CFG_RATE_MAX (n : Nat) : Fld := ⟨0x10000 + 0x2000 * n, 4, 3, 5⟩
def PORT_CFG_AN_EN (n : Nat) : Fld := ⟨0x10000 + 0x2000 * n, 8, 1, 1⟩
def PORT_CFG_MISS_ACT (n : Nat) : Fld := ⟨0x10000 + 0x2000 * n, 12, 1, 0⟩
def PORT_CFG_BCAST_EN (n : Nat) : Fld := ⟨0x10000 + 0x2000 * n, 13, 1, 0⟩
def PORT_CFG_PROMISC (n : Nat) : Fld := ⟨0x10000 + 0x2000 * n, 14, 1, 0⟩
def PORT_CFG_TX_IPG (n : Nat) : Fld := ⟨0x10000 + 0x2000 * n, 16, 8, 12⟩
def MAXLEN (n : Nat) : Fld := ⟨0x10004 + 0x2000 * n, 0, 14, 1522⟩
def TAG_CFG_S_TPID (n : Nat) : Fld := ⟨0x10008 + 0x2000 * n, 0, 16, 0x88A8⟩
def LAT_RX (n : Nat) : Fld := ⟨0x10010 + 0x2000 * n, 0, 24, 0⟩
def LAT_TX (n : Nat) : Fld := ⟨0x10014 + 0x2000 * n, 0, 24, 0⟩
def LINK_CFG_LINK_DEBOUNCE (n : Nat) : Fld := ⟨0x10018 + 0x2000 * n, 0, 16, 10⟩
def PHY_LOC_BUS (n : Nat) : Fld := ⟨0x1001C + 0x2000 * n, 0, 1, (if n < 3 then 0 else 1)⟩
def PHY_LOC_PRTAD (n : Nat) : Fld := ⟨0x1001C + 0x2000 * n, 1, 5, (n)⟩
def PHY_LOC_CL45 (n : Nat) : Fld := ⟨0x1001C + 0x2000 * n, 6, 1, 1⟩
def SX_CFG_TX_POL (n : Nat) : Fld := ⟨0x10020 + 0x2000 * n, 0, 1, 0⟩
def SX_CFG_RX_POL (n : Nat) : Fld := ⟨0x10020 + 0x2000 * n, 1, 1, 0⟩
def SX_CFG_LPBK (n : Nat) : Fld := ⟨0x10020 + 0x2000 * n, 2, 2, 0⟩
def SX_CFG_TX_PRE (n : Nat) : Fld := ⟨0x10020 + 0x2000 * n, 4, 4, 0⟩
def SX_CFG_TX_MAIN (n : Nat) : Fld := ⟨0x10020 + 0x2000 * n, 8, 6, 48⟩
def SX_CFG_TX_POST (n : Nat) : Fld := ⟨0x10020 + 0x2000 * n, 16, 4, 4⟩
def PORT_CTRL_MAC_RST (n : Nat) : Fld := ⟨0x10030 + 0x2000 * n, 0, 1, 0⟩
def PORT_CTRL_PCS_RST (n : Nat) : Fld := ⟨0x10030 + 0x2000 * n, 1, 1, 0⟩
def PORT_CTRL_AN_RESTART (n : Nat) : Fld := ⟨0x10030 + 0x2000 * n, 2, 1, 0⟩
def PORT_STAT_STATE (n : Nat) : Fld := ⟨0x10034 + 0x2000 * n, 0, 3, 0⟩
def PORT_STAT_RATE (n : Nat) : Fld := ⟨0x10034 + 0x2000 * n, 4, 3, 0⟩
def PORT_STAT_AN_DONE (n : Nat) : Fld := ⟨0x10034 + 0x2000 * n, 8, 1, 0⟩
def PORT_STAT_LOCAL_FAULT (n : Nat) : Fld := ⟨0x10034 + 0x2000 * n, 9, 1, 0⟩
def PORT_STAT_REMOTE_FAULT (n : Nat) : Fld := ⟨0x10034 + 0x2000 * n, 10, 1, 0⟩
def PORT_STAT_DUPLEX_FAULT (n : Nat) : Fld := ⟨0x10034 + 0x2000 * n, 11, 1, 0⟩
def PORT_STAT_RATE_FAULT (n : Nat) : Fld := ⟨0x10034 + 0x2000 * n, 12, 1, 0⟩
def PORT_STAT_SX_LOCK (n : Nat) : Fld := ⟨0x10034 + 0x2000 * n, 13, 1, 0⟩
def PORT_STAT_PCS_SYNC (n : Nat) : Fld := ⟨0x10034 + 0x2000 * n, 14, 1, 0⟩
def LINK_CHG_LINK_UP_EV (n : Nat) : Fld := ⟨0x10038 + 0x2000 * n, 0, 1, 0⟩
def LINK_CHG_LINK_LOST_EV (n : Nat) : Fld := ⟨0x10038 + 0x2000 * n, 1, 1, 0⟩
def SLOT_ADDR_LO (n i : Nat) : Fld := ⟨0x10100 + 0x2000 * n + 16 * i, 0, 32, 0⟩
def SLOT_ADDR_HI (n i : Nat) : Fld := ⟨0x10104 + 0x2000 * n + 16 * i, 0, 16, 0⟩
def SLOT_ADDR_HI_SLOT_VALID (n i : Nat) : Fld := ⟨0x10104 + 0x2000 * n + 16 * i, 16, 1, 0⟩
def SLOT_ADDR_HI_SLOT_OWNER (n i : Nat) : Fld := ⟨0x10104 + 0x2000 * n + 16 * i, 17, 1, 0⟩
def SLOT_TENANT_MAP (n i : Nat) : Fld := ⟨0x10108 + 0x2000 * n + 16 * i, 0, 16, 0⟩
def PCS_ERR (n : Nat) : Fld := ⟨0x10300 + 0x2000 * n, 0, 32, 0⟩
def LINK_LOST_CNT (n : Nat) : Fld := ⟨0x10304 + 0x2000 * n, 0, 32, 0⟩
def TX_OVERSIZE (n : Nat) : Fld := ⟨0x10308 + 0x2000 * n, 0, 32, 0⟩
def FILT_MASK_CNT (n : Nat) : Fld := ⟨0x1030C + 0x2000 * n, 0, 32, 0⟩
def RX_MACCTL_UNK (n : Nat) : Fld := ⟨0x10310 + 0x2000 * n, 0, 32, 0⟩
def MDIO_CFG_DIV (m : Nat) : Fld := ⟨768 + 32 * m, 0, 4, 4⟩
def MDIO_CFG_RETRY (m : Nat) : Fld := ⟨768 + 32 * m, 4, 3, 2⟩
def MDIO_CFG_PREAMBLE_SUPPRESS (m : Nat) : Fld := ⟨768 + 32 * m, 8, 1, 0⟩
def MDIO_CFG_PARK (m : Nat) : Fld := ⟨768 + 32 * m, 9, 1, 0⟩
def MDIO_CMD_GO (m : Nat) : Fld := ⟨772 + 32 * m, 0, 1, 0⟩
def MDIO_CMD_CLAUSE (m : Nat) : Fld := ⟨772 + 32 * m, 1, 1, 0⟩
def MDIO_CMD_OP (m : Nat) : Fld := ⟨772 + 32 * m, 2, 2, 0⟩
def MDIO_CMD_PHYAD (m : Nat) : Fld := ⟨772 + 32 * m, 4, 5, 0⟩
def MDIO_CMD_REGAD (m : Nat) : Fld := ⟨772 + 32 * m, 9, 5, 0⟩
def MDIO_ADDR (m : Nat) : Fld := ⟨776 + 32 * m, 0, 16, 0⟩
def MDIO_DATA_WDATA (m : Nat) : Fld := ⟨780 + 32 * m, 0, 16, 0⟩
def MDIO_DATA_RDATA (m : Nat) : Fld := ⟨780 + 32 * m, 16, 16, 0⟩
def MDIO_STAT_DONE (m : Nat) : Fld := ⟨784 + 32 * m, 0, 1, 0⟩
def MDIO_STAT_NO_ACK (m : Nat) : Fld := ⟨784 + 32 * m, 1, 1, 0⟩
def MDIO_STAT_FAIL (m : Nat) : Fld := ⟨784 + 32 * m, 2, 1, 0⟩
def MDIO_STAT_GO_IGNORED (m : Nat) : Fld := ⟨784 + 32 * m, 3, 1, 0⟩

/-! Fields of spec/05_pause_and_watchdog.md -/
def FC_CFG_RX_MODE (n : Nat) : Fld := ⟨0x10700 + 0x2000 * n, 0, 2, 0⟩
def FC_CFG_TX_MODE (n : Nat) : Fld := ⟨0x10700 + 0x2000 * n, 2, 2, 0⟩
def FC_CFG_WD_MODE (n : Nat) : Fld := ⟨0x10700 + 0x2000 * n, 4, 1, 0⟩
def FC_CFG_ADV_PAUSE (n : Nat) : Fld := ⟨0x10700 + 0x2000 * n, 8, 1, 1⟩
def FC_CFG_ADV_ASM (n : Nat) : Fld := ⟨0x10700 + 0x2000 * n, 9, 1, 0⟩
def FC_WD_PAUSE_WD_LIMIT (n : Nat) : Fld := ⟨0x10704 + 0x2000 * n, 0, 8, 32⟩
def FC_WD_PAUSE_WD_HOLD (n : Nat) : Fld := ⟨0x10704 + 0x2000 * n, 8, 8, 16⟩
def FC_PRIO_MAP (n : Nat) : Fld := ⟨0x10708 + 0x2000 * n, 0, 24, 0xFAC688⟩
def FC_SA_LO (n : Nat) : Fld := ⟨0x1070C + 0x2000 * n, 0, 32, 0⟩
def FC_SA_HI (n : Nat) : Fld := ⟨0x10710 + 0x2000 * n, 0, 16, 0⟩
def FC_TX_QUANTA (n : Nat) : Fld := ⟨0x10714 + 0x2000 * n, 0, 16, 0xFFFF⟩
def FC_REFRESH (n : Nat) : Fld := ⟨0x10718 + 0x2000 * n, 0, 16, 1000⟩
def FC_XOFF_MAX (n : Nat) : Fld := ⟨0x1071C + 0x2000 * n, 0, 8, 16⟩
def FC_THR_XOFF (n c : Nat) : Fld := ⟨0x10720 + 0x2000 * n + 4 * c, 0, 16, 0⟩
def FC_THR_XON (n c : Nat) : Fld := ⟨0x10720 + 0x2000 * n + 4 * c, 16, 16, 0⟩
def FC_STAT_RX_HELD (n : Nat) : Fld := ⟨0x10760 + 0x2000 * n, 0, 9, 0⟩
def FC_STAT_TX_XOFF (n : Nat) : Fld := ⟨0x10760 + 0x2000 * n, 16, 8, 0⟩
def FC_STAT_AN_RX_EN (n : Nat) : Fld := ⟨0x10760 + 0x2000 * n, 24, 1, 1⟩
def FC_STAT_AN_TX_EN (n : Nat) : Fld := ⟨0x10760 + 0x2000 * n, 25, 1, 1⟩
def FC_STAT_STRICT_LOCK (n : Nat) : Fld := ⟨0x10760 + 0x2000 * n, 26, 1, 0⟩
def PAUSE_WD_STAT_BROKEN (n : Nat) : Fld := ⟨0x10764 + 0x2000 * n, 0, 9, 0⟩
def PAUSE_WD_STAT_HOLDING (n : Nat) : Fld := ⟨0x10764 + 0x2000 * n, 16, 9, 0⟩
def RX_PAUSE_ACT (n : Nat) : Fld := ⟨0x10780 + 0x2000 * n, 0, 32, 0⟩
def RX_PAUSE_IGN (n : Nat) : Fld := ⟨0x10784 + 0x2000 * n, 0, 32, 0⟩
def PAUSE_IGN_WD (n : Nat) : Fld := ⟨0x10788 + 0x2000 * n, 0, 32, 0⟩
def PAUSE_BROKEN (n : Nat) : Fld := ⟨0x1078C + 0x2000 * n, 0, 32, 0⟩
def TX_XOFF_FRAMES (n : Nat) : Fld := ⟨0x10790 + 0x2000 * n, 0, 32, 0⟩
def TX_XON_FRAMES (n : Nat) : Fld := ⟨0x10794 + 0x2000 * n, 0, 32, 0⟩
def TX_XOFF_CAP (n : Nat) : Fld := ⟨0x10798 + 0x2000 * n, 0, 32, 0⟩
def PAUSE_HELD_TICKS (n : Nat) : Fld := ⟨0x1079C + 0x2000 * n, 0, 32, 0⟩
def FC_GLOBAL_XOFF_FREE : Fld := ⟨832, 0, 16, 2048⟩
def FC_GLOBAL_XON_FREE : Fld := ⟨832, 16, 16, 3072⟩

/-! Fields of spec/06_buffer_and_folding.md -/
def BUF_STAT_BANK_FAIL : Fld := ⟨0x20000, 0, 5, 0⟩
def BUF_STAT_FREE_LOW : Fld := ⟨0x20000, 8, 1, 0⟩
def BUF_STAT_SCRUB_ACTIVE : Fld := ⟨0x20000, 9, 1, 0⟩
def FREE_CELLS : Fld := ⟨0x20004, 0, 16, 0xC000⟩
def FREE_MIN : Fld := ⟨0x20008, 0, 16, 0xC000⟩
def MGMT_HELD : Fld := ⟨0x2000C, 0, 7, 0⟩
def BUF_THR_LOW : Fld := ⟨0x20010, 0, 16, 0x1000⟩
def BANK_FAIL_THR : Fld := ⟨0x20014, 0, 8, 4⟩
def SCRUB_CFG_EN : Fld := ⟨0x20018, 0, 1, 1⟩
def SCRUB_CFG_INTERVAL : Fld := ⟨0x20018, 8, 8, 64⟩
def FAULT_CELL : Fld := ⟨0x2001C, 0, 16, 0⟩
def FAULT_BANK : Fld := ⟨0x2001C, 16, 3, 0⟩
def ECC_CORR_CNT : Fld := ⟨0x20040, 0, 32, 0⟩
def ECC_UNC_CNT : Fld := ⟨0x20044, 0, 32, 0⟩
def CRC_FAIL_CNT : Fld := ⟨0x20048, 0, 32, 0⟩
def REBUILD_CNT : Fld := ⟨0x2004C, 0, 32, 0⟩
def DATA_FAULT_CNT : Fld := ⟨0x20050, 0, 32, 0⟩
def FOLD_FAULT_CNT : Fld := ⟨0x20054, 0, 32, 0⟩
def LINK_ERR_CNT : Fld := ⟨0x20058, 0, 32, 0⟩
def SCRUB_PASS : Fld := ⟨0x2005C, 0, 32, 0⟩
def FOLD_CNT : Fld := ⟨0x20060, 0, 32, 0⟩
def FOLD_GRP_BASE (n : Nat) : Fld := ⟨0x20100 + 4 * n, 0, 10, 0⟩
def FOLD_GRP_COUNT (n : Nat) : Fld := ⟨0x20100 + 4 * n, 16, 4, 0⟩
def FOLD_GRP_H_BASE : Fld := ⟨0x20118, 0, 10, 0⟩
def FOLD_GRP_H_COUNT : Fld := ⟨0x20118, 16, 4, 0⟩
def TPL_SEL : Fld := ⟨0x20200, 0, 10, 0⟩
def TPL_ATTR_VALID : Fld := ⟨0x20204, 0, 1, 0⟩
def TPL_ATTR_TL : Fld := ⟨0x20204, 8, 8, 14⟩
def TPL_ATTR_NFIX : Fld := ⟨0x20204, 16, 8, 0⟩
def TPL_STAT_REFS : Fld := ⟨0x20208, 0, 16, 0⟩
def TPL_STAT_PEND : Fld := ⟨0x20208, 16, 1, 0⟩
def TPL_MASK (w : Nat) : Fld := ⟨0x20210 + 4 * w, 0, 32, 0⟩
def TPL_DATA (w : Nat) : Fld := ⟨0x20280 + 4 * w, 0, 32, 0⟩

/-! Fields of spec/07_match_action_tables.md -/
def MAS_STAT_LANE_FAIL : Fld := ⟨0x30000, 0, 4, 0⟩
def MAS_STAT_OVL_BUSY : Fld := ⟨0x30000, 8, 1, 0⟩
def MAS_STAT_V0_STATE : Fld := ⟨0x30000, 16, 3, 0⟩
def MAS_STAT_V1_STATE : Fld := ⟨0x30000, 20, 3, 0⟩
def PROF_SEL_P_PROF (n : Nat) : Fld := ⟨0x30010 + 4 * n, 0, 4, 0⟩
def PROF_SEL_P_SPACE (n : Nat) : Fld := ⟨0x30010 + 4 * n, 8, 5, 16⟩
def PROF_SEL_F_PROF (f r : Nat) : Fld := ⟨0x30100 + 16 * f + 4 * r, 0, 4, 0⟩
def PROF_SEL_F_SPACE (f r : Nat) : Fld := ⟨0x30100 + 16 * f + 4 * r, 8, 5, 16⟩
def PROFILE_B0 (p w : Nat) : Fld := ⟨0x30400 + 64 * p + 4 * w, 0, 8, 255⟩
def PROFILE_B1 (p w : Nat) : Fld := ⟨0x30400 + 64 * p + 4 * w, 8, 8, 255⟩
def PROFILE_B2 (p w : Nat) : Fld := ⟨0x30400 + 64 * p + 4 * w, 16, 8, 255⟩
def PROFILE_B3 (p w : Nat) : Fld := ⟨0x30400 + 64 * p + 4 * w, 24, 8, 255⟩
def PART_POL_POL_BASE (n : Nat) : Fld := ⟨0x30800 + 8 * n, 0, 9, 0⟩
def PART_POL_POL_NUM (n : Nat) : Fld := ⟨0x30800 + 8 * n, 16, 10, 0⟩
def PART_CNT_CNT_BASE (n : Nat) : Fld := ⟨0x30804 + 8 * n, 0, 10, 0⟩
def PART_CNT_CNT_NUM (n : Nat) : Fld := ⟨0x30804 + 8 * n, 16, 11, 0⟩
def TBL_STG_SEL : Fld := ⟨0x30900, 0, 2, 0⟩
def TBL_STG_IDX : Fld := ⟨0x30904, 0, 15, 0⟩
def TBL_STG_CTRL_GO : Fld := ⟨0x30908, 0, 1, 0⟩
def TBL_STG_STAT_FULL : Fld := ⟨0x3090C, 0, 1, 0⟩
def TBL_STG_STAT_GO_IGNORED : Fld := ⟨0x3090C, 1, 1, 0⟩
def TBL_STG_STAT_N_EXACT : Fld := ⟨0x3090C, 16, 10, 0⟩
def TBL_STG_STAT2 : Fld := ⟨0x30910, 0, 23, 0⟩
def TBL_STG_DATA (w : Nat) : Fld := ⟨0x30940 + 4 * w, 0, 32, 0⟩
def TBL_RD_SEL : Fld := ⟨0x30A00, 0, 2, 0⟩
def TBL_RD_IDX : Fld := ⟨0x30A04, 0, 15, 0⟩
def TBL_RD_DATA (w : Nat) : Fld := ⟨0x30A40 + 4 * w, 0, 32, 0⟩
def CNT_SEL : Fld := ⟨0x30B00, 0, 10, 0⟩
def CNT_PKT_LO : Fld := ⟨0x30B04, 0, 32, 0⟩
def CNT_PKT_HI : Fld := ⟨0x30B08, 0, 32, 0⟩
def CNT_BYTE_LO : Fld := ⟨0x30B0C, 0, 32, 0⟩
def CNT_BYTE_HI : Fld := ⟨0x30B10, 0, 32, 0⟩
def CNT_CLR : Fld := ⟨0x30B14, 0, 10, 0⟩
def HIT_SEL : Fld := ⟨0x30C00, 0, 10, 0⟩
def HIT_WORD : Fld := ⟨0x30C04, 0, 32, 0⟩
def SKETCH_CFG_UNIT : Fld := ⟨0x30D00, 0, 2, 0⟩
def SKETCH_CFG_EN : Fld := ⟨0x30D00, 4, 1, 1⟩
def SKETCH_CTRL_CLEAR : Fld := ⟨0x30D04, 0, 1, 0⟩
def SKETCH_STAT_CLEARING : Fld := ⟨0x30D08, 0, 1, 0⟩
def SKETCH_STAT_SAT : Fld := ⟨0x30D08, 1, 1, 0⟩
def SKETCH_QRY : Fld := ⟨0x30D0C, 0, 16, 0⟩
def SKETCH_EST : Fld := ⟨0x30D10, 0, 32, 0⟩
def SKETCH_ROW (r : Nat) : Fld := ⟨0x30D14 + 4 * r, 0, 32, 0⟩
def TBL_ECC_CORR : Fld := ⟨0x30E00, 0, 32, 0⟩
def TBL_ECC_UNC : Fld := ⟨0x30E04, 0, 32, 0⟩
def TBL_FAULT_IDX : Fld := ⟨0x30E08, 0, 18, 0⟩
def EXIT_DUP : Fld := ⟨0x30E0C, 0, 32, 0⟩
def CLS_NOEXIT : Fld := ⟨0x30E10, 0, 32, 0⟩
def PART_VIOL_CNT : Fld := ⟨0x30E14, 0, 32, 0⟩
def LANE_FAULT_CNT : Fld := ⟨0x30E18, 0, 32, 0⟩

/-! Fields of spec/08_henabin_action_code.md -/
def PROG_P_ENTRY (n : Nat) : Fld := ⟨0x31000 + 4 * n, 0, 14, 0⟩
def PROG_P_EN (n : Nat) : Fld := ⟨0x31000 + 4 * n, 16, 1, 0⟩
def PROG_F_ENTRY (f r : Nat) : Fld := ⟨0x31040 + 16 * f + 4 * r, 0, 14, 0⟩
def PROG_F_EN (f r : Nat) : Fld := ⟨0x31040 + 16 * f + 4 * r, 16, 1, 0⟩
def TRAP_FLOW : Fld := ⟨0x31200, 0, 12, 0⟩
def HAC_STAT_RETIRING : Fld := ⟨0x31204, 0, 1, 0⟩
def TRAP_CNT : Fld := ⟨0x31208, 0, 32, 0⟩
def TRAP_LAST : Fld := ⟨0x3120C, 0, 32, 0⟩
def TRAP_LAST_SRC : Fld := ⟨0x31210, 0, 32, 0⟩
def CARRY_FREE : Fld := ⟨0x31214, 0, 15, 0x4000⟩
def CARRY_FULL : Fld := ⟨0x31218, 0, 32, 0⟩
def PARK_FULL : Fld := ⟨0x3121C, 0, 32, 0⟩
def HAC_CHK_FAIL : Fld := ⟨0x31220, 0, 30, 0⟩
def PCOST_SEL : Fld := ⟨0x31224, 0, 7, 0⟩
def PCOST_CYC : Fld := ⟨0x31228, 0, 32, 0⟩
def PCOST_LKP : Fld := ⟨0x3122C, 0, 32, 0⟩
def PCOST_JOB : Fld := ⟨0x31230, 0, 9, 0⟩
def HAC_LIVE_Q_W : Fld := ⟨0x31234, 0, 14, 0⟩
def HAC_LIVE_Q_LIVE : Fld := ⟨0x31234, 31, 1, 0⟩
def HAC_LO (w : Nat) : Fld := ⟨0x200000 + 8 * w, 0, 32, 0⟩
def HAC_HI (w : Nat) : Fld := ⟨0x200004 + 8 * w, 0, 32, 0⟩

/-! Fields of spec/09_egress_scheduling.md -/
def QPORT_CFG_GATE_EN (n : Nat) : Fld := ⟨0x40000 + 0x1000 * n, 0, 1, 0⟩
def QPORT_CFG_PREEMPT_EN (n : Nat) : Fld := ⟨0x40000 + 0x1000 * n, 1, 1, 0⟩
def QPORT_CFG_VERIFY_DIS (n : Nat) : Fld := ⟨0x40000 + 0x1000 * n, 2, 1, 0⟩
def QPORT_CFG_ADD_FRAG (n : Nat) : Fld := ⟨0x40000 + 0x1000 * n, 4, 2, 0⟩
def QPORT_CFG_VERIFY_TIME (n : Nat) : Fld := ⟨0x40000 + 0x1000 * n, 8, 8, 10⟩
def QPORT_CFG_VERIFY_LIMIT (n : Nat) : Fld := ⟨0x40000 + 0x1000 * n, 16, 3, 3⟩
def Q_SLOTS_MAX (n : Nat) : Fld := ⟨0x40004 + 0x1000 * n, 0, 15, 2730⟩
def GCL_ADMIN_LEN (n : Nat) : Fld := ⟨0x40008 + 0x1000 * n, 0, 9, 1⟩
def GCL_ADMIN_BASE_LO (n : Nat) : Fld := ⟨0x4000C + 0x1000 * n, 0, 32, 0⟩
def GCL_ADMIN_BASE_HI (n : Nat) : Fld := ⟨0x40010 + 0x1000 * n, 0, 8, 0⟩
def QPORT_STAT_GCL_PEND (n : Nat) : Fld := ⟨0x40020 + 0x1000 * n, 0, 1, 0⟩
def QPORT_STAT_VERIFY_STATE (n : Nat) : Fld := ⟨0x40020 + 0x1000 * n, 1, 3, 0⟩
def QPORT_STAT_PREEMPT_ACTIVE (n : Nat) : Fld := ⟨0x40020 + 0x1000 * n, 4, 1, 0⟩
def QPORT_STAT_HOLD (n : Nat) : Fld := ⟨0x40020 + 0x1000 * n, 5, 1, 0⟩
def QPORT_STAT_CAP_MISS (n : Nat) : Fld := ⟨0x40020 + 0x1000 * n, 6, 1, 0⟩
def QPORT_STAT_OPER_LEN (n : Nat) : Fld := ⟨0x40020 + 0x1000 * n, 16, 9, 1⟩
def GCL_OPER_ENTRY (n : Nat) : Fld := ⟨0x40024 + 0x1000 * n, 0, 8, 0⟩
def SLOTS_USED (n : Nat) : Fld := ⟨0x40028 + 0x1000 * n, 0, 15, 0⟩
def GCL_SWITCH_TICK_LO (n : Nat) : Fld := ⟨0x40030 + 0x1000 * n, 0, 32, 0⟩
def PREEMPT_CNT (n : Nat) : Fld := ⟨0x40040 + 0x1000 * n, 0, 32, 0⟩
def FRAG_TX (n : Nat) : Fld := ⟨0x40044 + 0x1000 * n, 0, 32, 0⟩
def VERIFY_FAIL_CNT (n : Nat) : Fld := ⟨0x40048 + 0x1000 * n, 0, 32, 0⟩
def RX_ASSY_ERR (n : Nat) : Fld := ⟨0x4004C + 0x1000 * n, 0, 32, 0⟩
def LT_LATE (n : Nat) : Fld := ⟨0x40050 + 0x1000 * n, 0, 32, 0⟩
def LT_MISSED (n : Nat) : Fld := ⟨0x40054 + 0x1000 * n, 0, 32, 0⟩
def LT_IGNORED (n : Nat) : Fld := ⟨0x40058 + 0x1000 * n, 0, 32, 0⟩
def GCL_ADMIN (n e : Nat) : Fld := ⟨0x40800 + 0x1000 * n + 4 * e, 0, 28, (if e = 0 then 0xFF else 0)⟩
def GCL_OPER (n e : Nat) : Fld := ⟨0x40C00 + 0x1000 * n + 4 * e, 0, 28, (if e = 0 then 0xFF else 0)⟩
def Q_CFG_CAP (n q : Nat) : Fld := ⟨0x40100 + 0x1000 * n + 32 * q, 0, 5, 16⟩
def Q_CFG_EXPRESS (n q : Nat) : Fld := ⟨0x40100 + 0x1000 * n + 32 * q, 8, 1, 0⟩
def Q_CFG_TS (n q : Nat) : Fld := ⟨0x40100 + 0x1000 * n + 32 * q, 9, 1, 0⟩
def Q_CFG_LT_EN (n q : Nat) : Fld := ⟨0x40100 + 0x1000 * n + 32 * q, 10, 1, 0⟩
def Q_CFG_LT_ACT (n q : Nat) : Fld := ⟨0x40100 + 0x1000 * n + 32 * q, 11, 1, 0⟩
def Q_CFG_SHAPER_EN (n q : Nat) : Fld := ⟨0x40100 + 0x1000 * n + 32 * q, 12, 1, 0⟩
def Q_IDLE_SLOPE (n q : Nat) : Fld := ⟨0x40104 + 0x1000 * n + 32 * q, 0, 24, 0⟩
def Q_TS_BYTES (n q : Nat) : Fld := ⟨0x40108 + 0x1000 * n + 32 * q, 0, 16, 0⟩
def Q_LT_WINDOW (n q : Nat) : Fld := ⟨0x4010C + 0x1000 * n + 32 * q, 0, 20, 1000⟩
def Q_DEPTH (n q : Nat) : Fld := ⟨0x40110 + 0x1000 * n + 32 * q, 0, 15, 0⟩
def Q_CREDIT (n q : Nat) : Fld := ⟨0x40114 + 0x1000 * n + 32 * q, 0, 32, 0⟩
def Q_CAP_MISS (n q : Nat) : Fld := ⟨0x40118 + 0x1000 * n + 32 * q, 0, 32, 0⟩
def Q_REF_CAP (n q : Nat) : Fld := ⟨0x4011C + 0x1000 * n + 32 * q, 0, 32, 0⟩

/-! Fields of spec/10_redundant_streams.md -/
def GEN_CFG_EN (g : Nat) : Fld := ⟨0x32000 + 16 * g, 0, 1, 0⟩
def GEN_CFG_FLOW (g : Nat) : Fld := ⟨0x32000 + 16 * g, 16, 12, 0⟩
def GEN_SEQ (g : Nat) : Fld := ⟨0x32004 + 16 * g, 0, 16, 0⟩
def GEN_RESET (g : Nat) : Fld := ⟨0x32008 + 16 * g, 0, 1, 0⟩
def GEN_DRAWN (g : Nat) : Fld := ⟨0x3200C + 16 * g, 0, 32, 0⟩
def REC_CFG_EN (f : Nat) : Fld := ⟨0x33000 + 64 * f, 0, 1, 0⟩
def REC_CFG_LAT_EN (f : Nat) : Fld := ⟨0x33000 + 64 * f, 1, 1, 0⟩
def REC_CFG_HIST_LEN (f : Nat) : Fld := ⟨0x33000 + 64 * f, 8, 6, 32⟩
def REC_CFG_LAT_PATHS (f : Nat) : Fld := ⟨0x33000 + 64 * f, 16, 4, 2⟩
def REC_RESET_TICKS (f : Nat) : Fld := ⟨0x33004 + 64 * f, 0, 24, 16⟩
def LAT_DIFF (f : Nat) : Fld := ⟨0x33008 + 64 * f, 0, 16, 50⟩
def LAT_TEST_TICKS (f : Nat) : Fld := ⟨0x3300C + 64 * f, 0, 24, 0x7D00⟩
def LAT_RESET_TICKS (f : Nat) : Fld := ⟨0x33010 + 64 * f, 0, 24, 0x75300⟩
def REC_STAT_RECOV_SEQ (f : Nat) : Fld := ⟨0x33014 + 64 * f, 0, 16, 0⟩
def REC_STAT_TAKE_ANY (f : Nat) : Fld := ⟨0x33014 + 64 * f, 16, 1, 1⟩
def REC_STAT_LATENT (f : Nat) : Fld := ⟨0x33014 + 64 * f, 17, 1, 0⟩
def REC_HISTORY (f : Nat) : Fld := ⟨0x33018 + 64 * f, 0, 32, 0⟩
def REC_RESET (f : Nat) : Fld := ⟨0x3301C + 64 * f, 0, 1, 0⟩
def REC_PASSED (f : Nat) : Fld := ⟨0x33020 + 64 * f, 0, 32, 0⟩
def REC_DISCARDED (f : Nat) : Fld := ⟨0x33024 + 64 * f, 0, 32, 0⟩
def REC_OOO (f : Nat) : Fld := ⟨0x33028 + 64 * f, 0, 32, 0⟩
def REC_ROGUE (f : Nat) : Fld := ⟨0x3302C + 64 * f, 0, 32, 0⟩
def REC_LOST (f : Nat) : Fld := ⟨0x33030 + 64 * f, 0, 32, 0⟩
def REC_TAGLESS (f : Nat) : Fld := ⟨0x33034 + 64 * f, 0, 32, 0⟩
def REC_RESETS (f : Nat) : Fld := ⟨0x33038 + 64 * f, 0, 32, 0⟩
def REC_LAT_CNT (f : Nat) : Fld := ⟨0x3303C + 64 * f, 0, 32, 0⟩
def LAT_SUMMARY (w : Nat) : Fld := ⟨0x32400 + 4 * w, 0, 32, 0⟩
def REC_OFF_CNT : Fld := ⟨0x32410, 0, 32, 0⟩

/-! Fields of spec/11_host_functions_and_tenants.md -/
def HIF_STAT_READY : Fld := ⟨0x50000, 0, 1, 0⟩
def HIF_STAT_FW_LATE : Fld := ⟨0x50000, 1, 1, 0⟩
def HIF_STAT_SRIOV_ERR : Fld := ⟨0x50000, 2, 1, 0⟩
def HIF_LINK_SPEED : Fld := ⟨0x50004, 0, 3, 0⟩
def HIF_LINK_WIDTH : Fld := ⟨0x50004, 4, 3, 0⟩
def HIF_LINK_UNIT : Fld := ⟨0x50004, 8, 2, 0⟩
def HIF_FLR : Fld := ⟨0x50008, 0, 17, 0⟩
def HIF_FLR_STAT : Fld := ⟨0x5000C, 0, 17, 0⟩
def HIF_QUIESCED : Fld := ⟨0x50010, 0, 17, 0⟩
def QUOTA_TX_RINGS (n : Nat) : Fld := ⟨0x51000 + 32 * n, 0, 3, 0⟩
def QUOTA_RX_RINGS (n : Nat) : Fld := ⟨0x51000 + 32 * n, 4, 3, 0⟩
def QUOTA_RING_LOG2_MAX (n : Nat) : Fld := ⟨0x51000 + 32 * n, 8, 4, 6⟩
def QUOTA_FETCH_MAX (n : Nat) : Fld := ⟨0x51000 + 32 * n, 16, 7, 1⟩
def QUOTA_EL_PERMIT (n : Nat) : Fld := ⟨0x51000 + 32 * n, 24, 1, 0⟩
def QUOTA_MBX_EN (n : Nat) : Fld := ⟨0x51000 + 32 * n, 25, 1, 0⟩
def TEN_VIOL_O (n : Nat) : Fld := ⟨0x51004 + 32 * n, 0, 32, 0⟩
def CTO_CNT (n : Nat) : Fld := ⟨0x51008 + 32 * n, 0, 32, 0⟩
def CPL_ERR_CNT (n : Nat) : Fld := ⟨0x5100C + 32 * n, 0, 32, 0⟩
def TEN_ID_FN (n : Nat) : Fld := ⟨0x1000000 * (n + 1) + 0, 0, 5, (n)⟩
def TEN_ID_PART (n : Nat) : Fld := ⟨0x1000000 * (n + 1) + 0, 16, 16, 0x6416⟩
def TEN_STAT_QUOTA_HIT (n : Nat) : Fld := ⟨0x1000000 * (n + 1) + 4, 0, 1, 0⟩
def TEN_STAT_QUOTA_RESET (n : Nat) : Fld := ⟨0x1000000 * (n + 1) + 4, 1, 1, 0⟩
def TEN_STAT_HOST_STALL (n : Nat) : Fld := ⟨0x1000000 * (n + 1) + 4, 2, 1, 0⟩
def CFG_REJECT (n : Nat) : Fld := ⟨0x1000000 * (n + 1) + 8, 0, 1, 0⟩
def T_CFG_REJECT_ADDR (n : Nat) : Fld := ⟨0x1000000 * (n + 1) + 12, 0, 16, 0⟩
def TEN_VIOL (n : Nat) : Fld := ⟨0x1000000 * (n + 1) + 16, 0, 32, 0⟩

/-! Fields of spec/12_descriptor_rings.md -/
def RING_BASE_LO (f r : Nat) : Fld := ⟨ringBase f r + 0, 0, 32, 0⟩
def RING_BASE_HI (f r : Nat) : Fld := ⟨ringBase f r + 4, 0, 32, 0⟩
def RING_CFG_EN (f r : Nat) : Fld := ⟨ringBase f r + 8, 0, 1, 0⟩
def RING_CFG_LOG2_SIZE (f r : Nat) : Fld := ⟨ringBase f r + 8, 4, 4, 6⟩
def RING_CFG_TS_EN (f r : Nat) : Fld := ⟨ringBase f r + 8, 8, 1, 0⟩
def RING_CFG_BUF_SIZE (f r : Nat) : Fld := ⟨ringBase f r + 8, 16, 14, 0⟩
def RING_CTRL_RESET (f r : Nat) : Fld := ⟨ringBase f r + 12, 0, 1, 0⟩
def DOORBELL (f r : Nat) : Fld := ⟨ringBase f r + 16, 0, 16, 0⟩
def HEAD (f r : Nat) : Fld := ⟨ringBase f r + 20, 0, 16, 0⟩
def CPL (f r : Nat) : Fld := ⟨ringBase f r + 24, 0, 16, 0⟩
def RING_STAT_ACTIVE (f r : Nat) : Fld := ⟨ringBase f r + 28, 0, 1, 0⟩
def RING_STAT_RESETTING (f r : Nat) : Fld := ⟨ringBase f r + 28, 1, 1, 0⟩
def RING_STAT_LAST_REASON (f r : Nat) : Fld := ⟨ringBase f r + 28, 4, 4, 0⟩
def RING_STAT_GO_IGNORED (f r : Nat) : Fld := ⟨ringBase f r + 28, 8, 1, 0⟩
def RING_CNT0 (f r : Nat) : Fld := ⟨ringBase f r + 32, 0, 32, 0⟩
def RING_CNT1 (f r : Nat) : Fld := ⟨ringBase f r + 36, 0, 32, 0⟩
def RING_CNT2 (f r : Nat) : Fld := ⟨ringBase f r + 40, 0, 32, 0⟩
def RING_CNT3 (f r : Nat) : Fld := ⟨ringBase f r + 44, 0, 32, 0⟩
def WB_COALESCE : Fld := ⟨0x50050, 0, 14, 2000⟩

/-! Fields of spec/13_early_look.md -/
def EL_FLOW_SEL (n : Nat) : Fld := ⟨0x1000000 * (n + 1) + 0x7000, 0, 12, 0⟩
def EL_FLOW_EL_EN (n : Nat) : Fld := ⟨0x1000000 * (n + 1) + 0x7004, 0, 1, 0⟩
def EL_STAT_OUTSTANDING (n : Nat) : Fld := ⟨0x1000000 * (n + 1) + 0x7008, 0, 7, 0⟩
def EL_STAT_PERMIT (n : Nat) : Fld := ⟨0x1000000 * (n + 1) + 0x7008, 8, 1, 0⟩
def EL_NEXT_ID (n : Nat) : Fld := ⟨0x1000000 * (n + 1) + 0x700C, 0, 16, 0⟩
def EL_CONFIRM (n : Nat) : Fld := ⟨0x1000000 * (n + 1) + 0x7010, 0, 32, 0⟩
def EL_RETRACT (n : Nat) : Fld := ⟨0x1000000 * (n + 1) + 0x7014, 0, 32, 0⟩
def EL_SKIP_LIMIT (n : Nat) : Fld := ⟨0x1000000 * (n + 1) + 0x7018, 0, 32, 0⟩
def EL_SKIP_ROOM (n : Nat) : Fld := ⟨0x1000000 * (n + 1) + 0x701C, 0, 32, 0⟩
def EL_LATE (n : Nat) : Fld := ⟨0x1000000 * (n + 1) + 0x7020, 0, 32, 0⟩

/-! Fields of spec/14_network_time.md -/
def TD_CFG_POLICY (d : Nat) : Fld := ⟨0x60200 + 128 * d, 0, 1, (if d = 0 then 1 else 0)⟩
def GUARD_LIMIT (d : Nat) : Fld := ⟨0x60204 + 128 * d, 0, 24, 1000⟩
def SYNC_TIMEOUT (d : Nat) : Fld := ⟨0x60208 + 128 * d, 0, 24, 0x1770⟩
def HOLD_MAX (d : Nat) : Fld := ⟨0x6020C + 128 * d, 0, 24, 0xEA600⟩
def SLEW_PPB (d : Nat) : Fld := ⟨0x60210 + 128 * d, 0, 19, 0x186A0⟩
def TD_NS (d : Nat) : Fld := ⟨0x60214 + 128 * d, 0, 30, 0⟩
def TD_SEC_LO (d : Nat) : Fld := ⟨0x60218 + 128 * d, 0, 32, 0⟩
def TD_SEC_HI (d : Nat) : Fld := ⟨0x6021C + 128 * d, 0, 16, 0⟩
def TD_FRAC (d : Nat) : Fld := ⟨0x60220 + 128 * d, 0, 8, 0⟩
def TD_RATE_LO (d : Nat) : Fld := ⟨0x60224 + 128 * d, 0, 32, 0⟩
def TD_RATE_HI (d : Nat) : Fld := ⟨0x60228 + 128 * d, 0, 8, 0⟩
def HOLD_RATE_LO (d : Nat) : Fld := ⟨0x6022C + 128 * d, 0, 32, 0⟩
def HOLD_RATE_HI (d : Nat) : Fld := ⟨0x60230 + 128 * d, 0, 8, 0⟩
def TD_ADJ (d : Nat) : Fld := ⟨0x60234 + 128 * d, 0, 32, 0⟩
def TD_ADJ_CTRL_MODE (d : Nat) : Fld := ⟨0x60238 + 128 * d, 0, 1, 0⟩
def TD_ADJ_CTRL_FORCE (d : Nat) : Fld := ⟨0x60238 + 128 * d, 1, 1, 0⟩
def TD_SET_NS (d : Nat) : Fld := ⟨0x6023C + 128 * d, 0, 30, 0⟩
def TD_SET_SEC_LO (d : Nat) : Fld := ⟨0x60240 + 128 * d, 0, 32, 0⟩
def TD_SET_SEC_HI (d : Nat) : Fld := ⟨0x60244 + 128 * d, 0, 16, 0⟩
def TD_CTRL_SET_GO (d : Nat) : Fld := ⟨0x60248 + 128 * d, 0, 1, 0⟩
def TD_CTRL_SET_FORCE (d : Nat) : Fld := ⟨0x60248 + 128 * d, 1, 1, 0⟩
def TD_CTRL_SET_VALID (d : Nat) : Fld := ⟨0x60248 + 128 * d, 4, 1, 0⟩
def TD_CTRL_CLR_VALID (d : Nat) : Fld := ⟨0x60248 + 128 * d, 5, 1, 0⟩
def DOM_STAT_STATE (d : Nat) : Fld := ⟨0x6024C + 128 * d, 0, 2, 0⟩
def DOM_STAT_VALID (d : Nat) : Fld := ⟨0x6024C + 128 * d, 2, 1, 0⟩
def DOM_STAT_RATE_UNTRAINED (d : Nat) : Fld := ⟨0x6024C + 128 * d, 3, 1, 1⟩
def DOM_STAT_GUARD_HIT (d : Nat) : Fld := ⟨0x6024C + 128 * d, 4, 1, 0⟩
def DOM_STAT_VALID_REFUSED (d : Nat) : Fld := ⟨0x6024C + 128 * d, 5, 1, 0⟩
def DOM_STAT_SLEWING (d : Nat) : Fld := ⟨0x6024C + 128 * d, 6, 1, 0⟩
def DOM_STAT_SYNC_CNT (d : Nat) : Fld := ⟨0x6024C + 128 * d, 8, 5, 0⟩
def ADJ_REMAIN (d : Nat) : Fld := ⟨0x60250 + 128 * d, 0, 32, 0⟩
def GUARD_CNT (d : Nat) : Fld := ⟨0x60254 + 128 * d, 0, 32, 0⟩
def GUARD_LAST (d : Nat) : Fld := ⟨0x60258 + 128 * d, 0, 32, 0⟩
def HOLDOVER_CNT (d : Nat) : Fld := ⟨0x6025C + 128 * d, 0, 32, 0⟩
def TU_STAT_TU_RESET : Fld := ⟨0x60000, 0, 1, 0⟩
def TU_SNAP : Fld := ⟨0x60300, 0, 1, 0⟩
def SNAP (w : Nat) : Fld := ⟨0x60304 + 4 * w, 0, 32, 0⟩
def UTC_CFG_OFFSET : Fld := ⟨0x60340, 0, 16, 0⟩
def UTC_CFG_LEAP61 : Fld := ⟨0x60340, 16, 1, 0⟩
def UTC_CFG_LEAP59 : Fld := ⟨0x60340, 17, 1, 0⟩
def UTC_LEAP_DAY : Fld := ⟨0x60344, 0, 18, 0⟩
def CAL_CTRL_GO : Fld := ⟨0x60360, 0, 1, 0⟩
def CAL_CTRL_OP : Fld := ⟨0x60360, 1, 2, 0⟩
def CAL_CTRL_DOM : Fld := ⟨0x60360, 3, 1, 0⟩
def CAL_SEC_LO : Fld := ⟨0x60364, 0, 32, 0⟩
def CAL_SEC_HI : Fld := ⟨0x60368, 0, 16, 0⟩
def CAL_DATE0 : Fld := ⟨0x6036C, 0, 32, 0⟩
def CAL_DATE1 : Fld := ⟨0x60370, 0, 32, 0⟩
def CAL_STAT_DONE : Fld := ⟨0x60374, 0, 1, 0⟩
def CAL_STAT_DATE_REJECT : Fld := ⟨0x60374, 1, 1, 0⟩
def CAL_STAT_RANGE : Fld := ⟨0x60374, 2, 1, 0⟩
def CAL_STAT_GO_IGNORED : Fld := ⟨0x60374, 3, 1, 0⟩
def TSQ_CFG_EN (n : Nat) : Fld := ⟨0x60400 + 64 * n, 0, 1, 0⟩
def TSQ_COUNT (n : Nat) : Fld := ⟨0x60404 + 64 * n, 0, 6, 0⟩
def TSQ_OVF (n : Nat) : Fld := ⟨0x60408 + 64 * n, 0, 32, 0⟩
def TSQ_W (n w : Nat) : Fld := ⟨0x60410 + 64 * n + 4 * w, 0, 32, 0⟩
def TOUT_CFG_MODE (i : Nat) : Fld := ⟨0x60600 + 32 * i, 0, 3, 0⟩
def TOUT_CFG_DOM (i : Nat) : Fld := ⟨0x60600 + 32 * i, 3, 1, 0⟩
def TOUT_CFG_POL (i : Nat) : Fld := ⟨0x60600 + 32 * i, 4, 1, 0⟩
def TOUT_CFG_REQ_VALID (i : Nat) : Fld := ⟨0x60600 + 32 * i, 5, 1, 0⟩
def TOUT_CFG_LEVEL (i : Nat) : Fld := ⟨0x60600 + 32 * i, 6, 1, 0⟩
def TOUT_START_LO (i : Nat) : Fld := ⟨0x60604 + 32 * i, 0, 32, 0⟩
def TOUT_START_HI (i : Nat) : Fld := ⟨0x60608 + 32 * i, 0, 8, 0⟩
def TOUT_PERIOD (i : Nat) : Fld := ⟨0x6060C + 32 * i, 0, 32, 0⟩
def TOUT_WIDTH (i : Nat) : Fld := ⟨0x60610 + 32 * i, 0, 24, 1000⟩
def TOUT_COMP (i : Nat) : Fld := ⟨0x60614 + 32 * i, 0, 16, 0⟩
def TOUT_CTRL_ARM (i : Nat) : Fld := ⟨0x60618 + 32 * i, 0, 1, 0⟩
def TOUT_CTRL_DISARM (i : Nat) : Fld := ⟨0x60618 + 32 * i, 1, 1, 0⟩
def TOUT_CTRL_ARMED (i : Nat) : Fld := ⟨0x60618 + 32 * i, 8, 1, 0⟩
def TOUT_CTRL_MISS (i : Nat) : Fld := ⟨0x60618 + 32 * i, 9, 1, 0⟩
def TOUT_CTRL_STEPPED (i : Nat) : Fld := ⟨0x60618 + 32 * i, 10, 1, 0⟩
def TOUT_CTRL_ARM_REFUSED (i : Nat) : Fld := ⟨0x60618 + 32 * i, 11, 1, 0⟩
def TOUT_SKIP (i : Nat) : Fld := ⟨0x6061C + 32 * i, 0, 16, 0⟩
def TOUT_SKIP_MISS_CNT (i : Nat) : Fld := ⟨0x6061C + 32 * i, 16, 16, 0⟩
def TCAP_CFG_EDGE (j : Nat) : Fld := ⟨0x60700 + 64 * j, 0, 2, 0⟩
def TCAP_CFG_FILTER (j : Nat) : Fld := ⟨0x60700 + 64 * j, 4, 4, 0⟩
def TCAP_CFG_COMP (j : Nat) : Fld := ⟨0x60700 + 64 * j, 16, 16, 0⟩
def TCAP_COUNT (j : Nat) : Fld := ⟨0x60704 + 64 * j, 0, 4, 0⟩
def TCAP_LOST (j : Nat) : Fld := ⟨0x60708 + 64 * j, 0, 32, 0⟩
def TCAP_W (j w : Nat) : Fld := ⟨0x60710 + 64 * j + 4 * w, 0, 32, 0⟩

/-! Fields of spec/15_digest_and_check_units.md -/
def DGE_STAT_CLEARED : Fld := ⟨0x70000, 0, 1, 0⟩
def DGE_STAT_CLEARING : Fld := ⟨0x70000, 1, 1, 0⟩
def DGE_CTRL_CLEAR : Fld := ⟨0x70004, 0, 1, 0⟩
def DGE_CLEAR_CAUSE : Fld := ⟨0x70008, 0, 4, 0⟩
def DGE_CLEAR_CNT : Fld := ⟨0x7000C, 0, 32, 0⟩
def DGE_KEY_FAULT : Fld := ⟨0x70010, 0, 32, 0⟩
def DGE_DATA_ERR : Fld := ⟨0x70014, 0, 32, 0⟩
def DGE_ECC_CORR : Fld := ⟨0x70018, 0, 32, 0⟩
def DGE_UNITS_LAST : Fld := ⟨0x7001C, 0, 28, 0⟩
def KEY_PART_BASE (n : Nat) : Fld := ⟨0x70040 + 4 * n, 0, 6, 0⟩
def KEY_PART_COUNT (n : Nat) : Fld := ⟨0x70040 + 4 * n, 16, 7, 0⟩
def KEY_SEL : Fld := ⟨0x70100, 0, 6, 0⟩
def KEY_ATTR_ALG : Fld := ⟨0x70104, 0, 3, 1⟩
def KEY_ATTR_CON : Fld := ⟨0x70104, 4, 1, 0⟩
def KEY_ATTR_CLEAR : Fld := ⟨0x70104, 5, 1, 0⟩
def KEY_ATTR_LEN : Fld := ⟨0x70104, 8, 8, 32⟩
def KEY_CTRL_GO : Fld := ⟨0x70108, 0, 1, 0⟩
def KEY_STAT_VALID : Fld := ⟨0x7010C, 0, 1, 0⟩
def KEY_STAT_ALG : Fld := ⟨0x7010C, 1, 3, 0⟩
def KEY_STAT_STAGED : Fld := ⟨0x7010C, 4, 1, 0⟩
def KEY_STAT_RETIRING : Fld := ⟨0x7010C, 5, 1, 0⟩
def KEY_STAT_GO_IGNORED : Fld := ⟨0x7010C, 6, 1, 0⟩
def KEY_STAT_CON : Fld := ⟨0x7010C, 7, 1, 0⟩
def KEY_KCV : Fld := ⟨0x70110, 0, 32, 0⟩
def KEY_KCV_STG : Fld := ⟨0x70114, 0, 32, 0⟩
def KEY_DATA (w : Nat) : Fld := ⟨0x70140 + 4 * w, 0, 32, 0⟩
def SYS_CTRL_OPEN : Fld := ⟨0x70200, 0, 1, 0⟩
def SYS_CTRL_FINAL : Fld := ⟨0x70200, 1, 1, 0⟩
def SYS_CTRL_ABORT : Fld := ⟨0x70200, 2, 1, 0⟩
def SYS_CTRL_ALG : Fld := ⟨0x70200, 4, 3, 1⟩
def SYS_CTRL_HMAC : Fld := ⟨0x70200, 7, 1, 0⟩
def SYS_CTRL_KEY : Fld := ⟨0x70200, 8, 6, 0⟩
def SYS_STAT_STATE : Fld := ⟨0x70204, 0, 3, 0⟩
def SYS_STAT_HOLDER : Fld := ⟨0x70204, 4, 2, 0⟩
def SYS_STAT_REASON : Fld := ⟨0x70204, 8, 4, 0⟩
def SYS_STAT_IN_FREE : Fld := ⟨0x70204, 16, 8, 128⟩
def SYS_STAT_BUSY_REFUSED : Fld := ⟨0x70204, 24, 1, 0⟩
def SYS_STAT_OPEN_REFUSED : Fld := ⟨0x70204, 25, 1, 0⟩
def SYS_DATA_LO : Fld := ⟨0x70208, 0, 32, 0⟩
def SYS_DATA_HI : Fld := ⟨0x7020C, 0, 32, 0⟩
def SYS_TAIL : Fld := ⟨0x70210, 0, 3, 0⟩
def SYS_BYTES_LO : Fld := ⟨0x70214, 0, 32, 0⟩
def SYS_BYTES_HI : Fld := ⟨0x70218, 0, 16, 0⟩
def DIGEST (w : Nat) : Fld := ⟨0x70240 + 4 * w, 0, 32, 0⟩
def CTX_STAT (c : Nat) : Fld := ⟨0x70300 + 4 * c, 0, 12, 0⟩
def CRU_CFG_WIDTH (u : Nat) : Fld := ⟨0x78000 + 1024 * u, 0, 7, 32⟩
def CRU_CFG_REFIN (u : Nat) : Fld := ⟨0x78000 + 1024 * u, 8, 1, 1⟩
def CRU_CFG_REFOUT (u : Nat) : Fld := ⟨0x78000 + 1024 * u, 9, 1, 1⟩
def POLY_LO (u : Nat) : Fld := ⟨0x78008 + 1024 * u, 0, 32, 0x4C11DB7⟩
def POLY_HI (u : Nat) : Fld := ⟨0x7800C + 1024 * u, 0, 32, 0⟩
def INIT_LO (u : Nat) : Fld := ⟨0x78010 + 1024 * u, 0, 32, 0xFFFFFFFF⟩
def INIT_HI (u : Nat) : Fld := ⟨0x78014 + 1024 * u, 0, 32, 0⟩
def XOROUT_LO (u : Nat) : Fld := ⟨0x78018 + 1024 * u, 0, 32, 0xFFFFFFFF⟩
def XOROUT_HI (u : Nat) : Fld := ⟨0x7801C + 1024 * u, 0, 32, 0⟩
def CRU_STAT_RETIRING (u : Nat) : Fld := ⟨0x78020 + 1024 * u, 0, 1, 0⟩
def CRU_FAULT_CNT (u : Nat) : Fld := ⟨0x78024 + 1024 * u, 0, 32, 0⟩
def CRU_BLOCKS_LAST (u : Nat) : Fld := ⟨0x78028 + 1024 * u, 0, 32, 0⟩
def JCTRL_OPEN (u j : Nat) : Fld := ⟨0x78120 + 1024 * u + 256 * j, 0, 1, 0⟩
def JCTRL_FINAL (u j : Nat) : Fld := ⟨0x78120 + 1024 * u + 256 * j, 1, 1, 0⟩
def JCTRL_ABORT (u j : Nat) : Fld := ⟨0x78120 + 1024 * u + 256 * j, 2, 1, 0⟩
def JCTRL_FOLD_LEN (u j : Nat) : Fld := ⟨0x78120 + 1024 * u + 256 * j, 8, 4, 0⟩
def JFOLD_LO (u j : Nat) : Fld := ⟨0x78124 + 1024 * u + 256 * j, 0, 32, 0⟩
def JFOLD_HI (u j : Nat) : Fld := ⟨0x78128 + 1024 * u + 256 * j, 0, 32, 0⟩
def JDATA_LO (u j : Nat) : Fld := ⟨0x7812C + 1024 * u + 256 * j, 0, 32, 0⟩
def JDATA_HI (u j : Nat) : Fld := ⟨0x78130 + 1024 * u + 256 * j, 0, 32, 0⟩
def JTAIL (u j : Nat) : Fld := ⟨0x78134 + 1024 * u + 256 * j, 0, 3, 0⟩
def JSTAT_STATE (u j : Nat) : Fld := ⟨0x78138 + 1024 * u + 256 * j, 0, 3, 0⟩
def JSTAT_REASON (u j : Nat) : Fld := ⟨0x78138 + 1024 * u + 256 * j, 8, 4, 0⟩
def JSTAT_IN_FREE (u j : Nat) : Fld := ⟨0x78138 + 1024 * u + 256 * j, 16, 7, 0⟩
def JSTAT_PARAM_ERR (u j : Nat) : Fld := ⟨0x78138 + 1024 * u + 256 * j, 24, 1, 0⟩
def JSTAT_OPEN_REFUSED (u j : Nat) : Fld := ⟨0x78138 + 1024 * u + 256 * j, 25, 1, 0⟩
def JRES_LO (u j : Nat) : Fld := ⟨0x7813C + 1024 * u + 256 * j, 0, 32, 0⟩
def JRES_HI (u j : Nat) : Fld := ⟨0x78140 + 1024 * u + 256 * j, 0, 32, 0⟩

/-! Fields of spec/16_interrupts_and_event_fifos.md -/
def IRC_STAT_IRC_RESET : Fld := ⟨0x80000, 0, 1, 0⟩
def SYS_MSG_MAX : Fld := ⟨0x80004, 0, 8, 16⟩
def MSG_CNT : Fld := ⟨0x80008, 0, 32, 0⟩
def HELD_CNT : Fld := ⟨0x8000C, 0, 32, 0⟩
def BYPASS_CNT : Fld := ⟨0x80010, 0, 32, 0⟩
def DLSEND_CNT : Fld := ⟨0x80014, 0, 32, 0⟩
def FN_MASK : Fld := ⟨0x80040, 0, 17, 0⟩
def LEVEL (w : Nat) : Fld := ⟨0x80100 + 4 * w, 0, 32, 0⟩
def PEND (w : Nat) : Fld := ⟨0x80140 + 4 * w, 0, 32, 0⟩
def MASK (w : Nat) : Fld := ⟨0x80180 + 4 * w, 0, 32, 0xFFFFFFFF⟩
def INSVC (w : Nat) : Fld := ⟨0x801C0 + 4 * w, 0, 32, 0⟩
def EOI (w : Nat) : Fld := ⟨0x80200 + 4 * w, 0, 32, 0⟩
def SW_LEVEL (v : Nat) : Fld := ⟨0x80240 + 4 * v, 0, 32, 0⟩
def SLOT_STATE_PRIO (s : Nat) : Fld := ⟨0x80300 + 4 * s, 0, 4, 0⟩
def SLOT_STATE_IDLE (s : Nat) : Fld := ⟨0x80300 + 4 * s, 8, 1, 0⟩
def SLOT_STATE_OFFLINE (s : Nat) : Fld := ⟨0x80300 + 4 * s, 9, 1, 0⟩
def ROUTE_POLICY (s : Nat) : Fld := ⟨0x80400 + 8 * s, 0, 2, 0⟩
def ROUTE_SLOT (s : Nat) : Fld := ⟨0x80400 + 8 * s, 4, 4, 0⟩
def ROUTE_SPRIO (s : Nat) : Fld := ⟨0x80400 + 8 * s, 8, 4, 0⟩
def ROUTE_INTN (s : Nat) : Fld := ⟨0x80400 + 8 * s, 12, 1, 0⟩
def ROUTE_MOD (s : Nat) : Fld := ⟨0x80400 + 8 * s, 16, 10, 0⟩
def SET (s : Nat) : Fld := ⟨0x80404 + 8 * s, 0, 16, 0⟩
def VEC (s : Nat) : Fld := ⟨0x81000 + 4 * s, 0, 32, 0⟩
def CNT (s : Nat) : Fld := ⟨0x81800 + 4 * s, 0, 8, 0⟩
def EVLOG_LO : Fld := ⟨0x82000, 0, 32, 0⟩
def EVLOG_HI : Fld := ⟨0x82004, 0, 32, 0⟩
def EVLOG_STAT_EMPTY : Fld := ⟨0x82008, 0, 1, 1⟩
def EVLOG_STAT_UNDERRUN : Fld := ⟨0x82008, 1, 1, 0⟩
def EVLOG_STAT_AGE : Fld := ⟨0x82008, 2, 1, 0⟩
def EVLOG_STAT_COUNT : Fld := ⟨0x82008, 8, 10, 0⟩
def EVLOG_WM : Fld := ⟨0x8200C, 0, 10, 1⟩
def EVLOG_AGE_TICKS : Fld := ⟨0x82010, 0, 24, 0x3E80⟩
def EVLOG_LOST : Fld := ⟨0x82014, 0, 32, 0⟩
def TELE_CFG_EN : Fld := ⟨0x82100, 0, 1, 0⟩
def TELE_CFG_DEST : Fld := ⟨0x82100, 1, 2, 0⟩
def TELE_CFG_TYPES : Fld := ⟨0x82100, 4, 3, 0⟩
def TELE_CFG_PORTS : Fld := ⟨0x82100, 8, 6, 0⟩
def TELE_CFG_PERIOD : Fld := ⟨0x82100, 16, 16, 16⟩
def TELE_STAT_EMPTY : Fld := ⟨0x82104, 0, 1, 1⟩
def TELE_STAT_AGE : Fld := ⟨0x82104, 1, 1, 0⟩
def TELE_STAT_COUNT : Fld := ⟨0x82104, 8, 12, 0⟩
def TELE_WM : Fld := ⟨0x82108, 0, 12, 1⟩
def TELE_AGE_TICKS : Fld := ⟨0x8210C, 0, 24, 0x3E80⟩
def TELE_LOST : Fld := ⟨0x82110, 0, 32, 0⟩
def TELE_FLOW_N : Fld := ⟨0x82114, 0, 7, 0⟩
def TLR_BASE_LO : Fld := ⟨0x82120, 0, 32, 0⟩
def TLR_BASE_HI : Fld := ⟨0x82124, 0, 32, 0⟩
def TLR_LOG2 : Fld := ⟨0x82128, 0, 4, 6⟩
def TLR_HEAD : Fld := ⟨0x8212C, 0, 16, 0⟩
def TLR_TAIL : Fld := ⟨0x82130, 0, 16, 0⟩
def TELE_D (w : Nat) : Fld := ⟨0x82140 + 4 * w, 0, 32, 0⟩
def TELE_FLOW (i : Nat) : Fld := ⟨0x82200 + 4 * i, 0, 16, 0⟩
def TLEVEL (n : Nat) : Fld := ⟨0x1000000 * (n + 1) + 0x6000, 0, 11, 0⟩
def TPEND (n : Nat) : Fld := ⟨0x1000000 * (n + 1) + 0x6004, 0, 11, 0⟩
def TMASK (n : Nat) : Fld := ⟨0x1000000 * (n + 1) + 0x6008, 0, 11, 2047⟩
def TINSVC (n : Nat) : Fld := ⟨0x1000000 * (n + 1) + 0x600C, 0, 11, 0⟩
def TEOI (n : Nat) : Fld := ⟨0x1000000 * (n + 1) + 0x6010, 0, 11, 0⟩
def TVEC (n b : Nat) : Fld := ⟨0x1000000 * (n + 1) + 0x6040 + 4 * b, 0, 32, 0⟩
def TCNT (n b : Nat) : Fld := ⟨0x1000000 * (n + 1) + 0x6080 + 4 * b, 0, 8, 0⟩

/-! Fields of spec/17_molsum_console.md -/
def MBX_STAT_CMD_BUSY (f : Nat) : Fld := ⟨mbxBase f + 0, 0, 1, 0⟩
def MBX_STAT_RPL_AVAIL (f : Nat) : Fld := ⟨mbxBase f + 0, 1, 1, 0⟩
def MBX_STAT_HALT (f : Nat) : Fld := ⟨mbxBase f + 0, 2, 1, 0⟩
def MBX_STAT_GO_IGNORED (f : Nat) : Fld := ⟨mbxBase f + 0, 3, 1, 0⟩
def MBX_STAT_STRICT (f : Nat) : Fld := ⟨mbxBase f + 0, 4, 1, 1⟩
def MBX_CMD_LEN (f : Nat) : Fld := ⟨mbxBase f + 4, 0, 8, 0⟩
def MBX_CMD_GO (f : Nat) : Fld := ⟨mbxBase f + 8, 0, 1, 0⟩
def MBX_RPL_LEN (f : Nat) : Fld := ⟨mbxBase f + 12, 0, 8, 0⟩
def MBX_RPL_POP (f : Nat) : Fld := ⟨mbxBase f + 16, 0, 1, 0⟩
def MBX_EV_LOST (f : Nat) : Fld := ⟨mbxBase f + 20, 0, 32, 0⟩
def MBX_CMD (f : Nat) : Fld := ⟨mbxBase f + 256, 0, 32, 0⟩
def MBX_RPL (f : Nat) : Fld := ⟨mbxBase f + 512, 0, 32, 0⟩
def CON_CFG_BAUD : Fld := ⟨0xA0800, 0, 3, 0⟩
def CON_CFG_UART_MODE : Fld := ⟨0xA0800, 4, 2, 2⟩
def CON_STAT_STRICT : Fld := ⟨0xA0804, 0, 1, 0⟩
def CON_STAT_BREAK : Fld := ⟨0xA0804, 1, 1, 0⟩
def NETCON_CFG_ETYPE : Fld := ⟨0xA0810, 0, 16, 0x88B5⟩
def NETCON_CFG_PORTS : Fld := ⟨0xA0810, 16, 6, 0⟩
def NETCON_CFG2_KEY : Fld := ⟨0xA0814, 0, 6, 0⟩
def NETCON_CFG2_Q : Fld := ⟨0xA0814, 16, 3, 7⟩
def NETCON_CFG2_FLOW : Fld := ⟨0xA0814, 20, 12, 0⟩
def NETCON_SA_LO : Fld := ⟨0xA0818, 0, 32, 0⟩
def NETCON_SA_HI : Fld := ⟨0xA081C, 0, 16, 0⟩
def CON_FRAMING : Fld := ⟨0xA0840, 0, 32, 0⟩
def CON_OVERRUN : Fld := ⟨0xA0844, 0, 32, 0⟩
def NET_REJECT : Fld := ⟨0xA0848, 0, 32, 0⟩
def NET_REPLAY : Fld := ⟨0xA084C, 0, 32, 0⟩
def NET_RPL_REFUSED : Fld := ⟨0xA0850, 0, 32, 0⟩
def EV_LINES_LOST : Fld := ⟨0xA0854, 0, 32, 0⟩
def LINES_OK : Fld := ⟨0xA0858, 0, 32, 0⟩
def LINES_ER : Fld := ⟨0xA085C, 0, 32, 0⟩
def NET_LAST_SEQ (n : Nat) : Fld := ⟨0xA0860 + 4 * n, 0, 17, 0⟩

/-! Fields of spec/18_power_and_wake.md -/
def PM_CTRL_TARGET : Fld := ⟨0x90000, 0, 2, 0⟩
def PM_CTRL_GO : Fld := ⟨0x90000, 4, 1, 0⟩
def PM_STAT_STATE : Fld := ⟨0x90004, 0, 2, 0⟩
def PM_STAT_BUSY : Fld := ⟨0x90004, 4, 1, 0⟩
def PM_STAT_TW_READY : Fld := ⟨0x90004, 5, 1, 0⟩
def PM_STAT_DRAIN : Fld := ⟨0x90004, 6, 1, 0⟩
def PM_STAT_GO_IGNORED : Fld := ⟨0x90004, 7, 1, 0⟩
def PM_STAT_REFUSE : Fld := ⟨0x90004, 8, 4, 0⟩
def TW_DRAIN_TICKS : Fld := ⟨0x90008, 0, 8, 80⟩
def TW_L2_WAIT : Fld := ⟨0x9000C, 0, 12, 1000⟩
def TW_CFG_PORTS : Fld := ⟨0x90010, 0, 6, 0⟩
def TW_CFG_RATE : Fld := ⟨0x90010, 8, 1, 1⟩
def TW_CFG_PARK_A : Fld := ⟨0x90010, 12, 1, 1⟩
def TW_CFG_PARK_B : Fld := ⟨0x90010, 13, 1, 1⟩
def TW_CFG_LE_PORTS : Fld := ⟨0x90010, 16, 6, 0⟩
def LE_TIME : Fld := ⟨0x90014, 0, 16, 100⟩
def TW_NIGHT_TICKS : Fld := ⟨0x90018, 0, 32, 0⟩
def TEMP : Fld := ⟨0x90020, 0, 11, 0⟩
def THERM_STAT_DERATE : Fld := ⟨0x90024, 0, 1, 0⟩
def THERM_STAT_ALARM : Fld := ⟨0x90024, 1, 1, 0⟩
def TJ_ALARM : Fld := ⟨0x90028, 0, 8, (Config.tjAlarmReset)⟩
def PHY_PM_ADDR_REG (n : Nat) : Fld := ⟨0x90040 + 16 * n, 0, 16, 0⟩
def PHY_PM_ADDR_DEVAD (n : Nat) : Fld := ⟨0x90040 + 16 * n, 16, 5, 0⟩
def PHY_PM_ADDR_EN (n : Nat) : Fld := ⟨0x90040 + 16 * n, 24, 1, 0⟩
def PHY_PM_VAL_SLEEP (n : Nat) : Fld := ⟨0x90044 + 16 * n, 0, 16, 0⟩
def PHY_PM_VAL_WAKE (n : Nat) : Fld := ⟨0x90044 + 16 * n, 16, 16, 0⟩
def PHY_PM_STAT_SLP_FAIL (n : Nat) : Fld := ⟨0x90048 + 16 * n, 0, 1, 0⟩
def PHY_PM_STAT_WK_FAIL (n : Nat) : Fld := ⟨0x90048 + 16 * n, 1, 1, 0⟩
def PAT (i w : Nat) : Fld := ⟨0x91000 + 256 * i + 4 * w, 0, 32, 0⟩
def PAT_MASK (i w : Nat) : Fld := ⟨0x91080 + 256 * i + 4 * w, 0, 32, 0⟩
def PAT_CTRL_EN (i : Nat) : Fld := ⟨0x91090 + 256 * i, 0, 1, 0⟩
def PAT_CTRL_PORTS (i : Nat) : Fld := ⟨0x91090 + 256 * i, 8, 6, 0⟩
def WK_CFG_EDGE (n : Nat) : Fld := ⟨0x94000 + 4 * n, 0, 2, 0⟩
def WK_CFG_THR (n : Nat) : Fld := ⟨0x94000 + 4 * n, 4, 2, 0⟩
def WK_CFG_DEB (n : Nat) : Fld := ⟨0x94000 + 4 * n, 8, 8, 0⟩
def WK_LEVEL : Fld := ⟨0x94010, 0, 4, 0⟩
def LW_REC0 : Fld := ⟨0x94020, 0, 32, 0⟩
def LW_REC1 : Fld := ⟨0x94024, 0, 32, 0⟩
def LW_REC2 : Fld := ⟨0x94028, 0, 16, 0⟩
def LW_PEND : Fld := ⟨0x94030, 1, 9, 0⟩
def WAKE_CNT : Fld := ⟨0x94034, 0, 32, 0⟩
def AON_STAT_RF_BAD : Fld := ⟨0x94038, 0, 1, 0⟩
def RF (w : Nat) : Fld := ⟨0x94100 + 4 * w, 0, 32, 0⟩

/-! Fields of spec/19_startup_fuses_update.md -/
def FUSE_STAT_FUSE_MARGINAL : Fld := ⟨0x95000, 0, 1, 0⟩
def FUSE_STAT_CORR : Fld := ⟨0x95000, 1, 1, 0⟩
def FUSE_MARG_IDX : Fld := ⟨0x95004, 0, 6, 0⟩
def FUSE_MARG_MAP_LO : Fld := ⟨0x95008, 0, 32, 0⟩
def FUSE_MARG_MAP_HI : Fld := ⟨0x9500C, 0, 32, 0⟩
def FUSE_SEL : Fld := ⟨0x95010, 0, 6, 0⟩
def FUSE_VAL_LO : Fld := ⟨0x95014, 0, 32, 0⟩
def FUSE_VAL_HI_DATA : Fld := ⟨0x95018, 0, 24, 0⟩
def FUSE_VAL_HI_DEFAULTED : Fld := ⟨0x95018, 24, 1, 0⟩
def BOOT_STAT_SLOT : Fld := ⟨0x96000, 0, 1, 0⟩
def BOOT_STAT_TRIAL : Fld := ⟨0x96000, 1, 1, 0⟩
def BOOT_STAT_RECOVERY : Fld := ⟨0x96000, 4, 1, 0⟩
def BOOT_STAT_CFG_FAIL : Fld := ⟨0x96000, 5, 1, 0⟩
def BOOT_STAT_UNSECURED : Fld := ⟨0x96000, 6, 1, 0⟩
def BOOT_STAT_SV_FULL : Fld := ⟨0x96000, 7, 1, 0⟩
def BOOT_STAT_FALLBACK : Fld := ⟨0x96000, 8, 1, 0⟩
def BOOT_STAT_JNL_ERR : Fld := ⟨0x96000, 9, 1, 0⟩
def CFG_FAIL_IDX : Fld := ⟨0x96004, 0, 24, 0⟩
def IMG_VER : Fld := ⟨0x96008, 0, 32, 0⟩
def IMG_SV : Fld := ⟨0x9600C, 0, 32, 0⟩
def FUSED_SV : Fld := ⟨0x96010, 0, 32, 0⟩
def UPD_STATE_A : Fld := ⟨0x96014, 0, 3, 0⟩
def UPD_STATE_B : Fld := ⟨0x96014, 4, 3, 0⟩
def UPD_STATE_TRIALS : Fld := ⟨0x96014, 8, 2, 0⟩
def JNL_SEQ : Fld := ⟨0x96018, 0, 32, 0⟩
def TRIAL_LEFT : Fld := ⟨0x9601C, 0, 16, 0⟩

/-! Fields of spec/20_faults_and_recovery.md -/
def FLT_STAT_ECLIPSE : Fld := ⟨1024, 0, 1, 0⟩
def FLT_STAT_ECL_DRAIN : Fld := ⟨1024, 1, 1, 0⟩
def FLT_STAT_MGC_HALT : Fld := ⟨1024, 2, 1, 0⟩
def FLT_STAT_GO_IGNORED : Fld := ⟨1024, 3, 1, 0⟩
def ECL_CAUSE : Fld := ⟨1028, 0, 4, 0⟩
def ECL_TICK_LO : Fld := ⟨1032, 0, 32, 0⟩
def ECL_TICK_HI : Fld := ⟨1036, 0, 16, 0⟩
def ECL_DRAIN_TICKS : Fld := ⟨1040, 0, 8, 16⟩
def ENG_RST : Fld := ⟨1044, 0, 17, 0⟩
def ENG_RST_STAT : Fld := ⟨1048, 0, 17, 0⟩
def FLT_CTRL_ECLIPSE_REQ : Fld := ⟨1052, 0, 1, 0⟩
def ESC_LIMIT : Fld := ⟨1056, 0, 4, 3⟩
def ESC_WINDOW : Fld := ⟨1060, 0, 24, 0x3E80⟩
def MGC_WD : Fld := ⟨1064, 0, 12, 100⟩
def MGC_KICK : Fld := ⟨1068, 0, 1, 0⟩
def MGC_RST_CNT : Fld := ⟨1072, 0, 32, 0⟩
def SELF_RST_CNT (e : Nat) : Fld := ⟨1088 + 4 * e, 0, 32, 0⟩

/-! Fields of spec/21_register_map.md -/
def DEV_ID : Fld := ⟨0, 0, 32, (Config.devId)⟩
def REJ_STAT_CFG_REJECT : Fld := ⟨16, 0, 1, 0⟩
def REJ_STAT_WHY : Fld := ⟨16, 4, 4, 0⟩
def CFG_REJECT_ADDR : Fld := ⟨20, 0, 22, 0⟩
def CFG_REJECT_CNT : Fld := ⟨24, 0, 32, 0⟩
def UNMAPPED_CNT : Fld := ⟨28, 0, 32, 0⟩
def TCNT_SEL (n : Nat) : Fld := ⟨0x1000000 * (n + 1) + 0x5000, 0, 10, 0⟩
def TCNT_PKT_LO (n : Nat) : Fld := ⟨0x1000000 * (n + 1) + 0x5004, 0, 32, 0⟩
def TCNT_PKT_HI (n : Nat) : Fld := ⟨0x1000000 * (n + 1) + 0x5008, 0, 32, 0⟩
def TCNT_BYTE_LO (n : Nat) : Fld := ⟨0x1000000 * (n + 1) + 0x500C, 0, 32, 0⟩
def TCNT_BYTE_HI (n : Nat) : Fld := ⟨0x1000000 * (n + 1) + 0x5010, 0, 32, 0⟩

/-! Fields of spec/15_digest_and_check_units.md -/
def JPAR_CFG_WIDTH (u j : Nat) : Fld := ⟨0x78100 + 1024 * u + 256 * j, 0, 7, 32⟩
def JPAR_CFG_REFIN (u j : Nat) : Fld := ⟨0x78100 + 1024 * u + 256 * j, 8, 1, 1⟩
def JPAR_CFG_REFOUT (u j : Nat) : Fld := ⟨0x78100 + 1024 * u + 256 * j, 9, 1, 1⟩
def JPOLY_LO (u j : Nat) : Fld := ⟨0x78108 + 1024 * u + 256 * j, 0, 32, 0x4C11DB7⟩
def JPOLY_HI (u j : Nat) : Fld := ⟨0x7810C + 1024 * u + 256 * j, 0, 32, 0⟩
def JINIT_LO (u j : Nat) : Fld := ⟨0x78110 + 1024 * u + 256 * j, 0, 32, 0xFFFFFFFF⟩
def JINIT_HI (u j : Nat) : Fld := ⟨0x78114 + 1024 * u + 256 * j, 0, 32, 0⟩
def JXOROUT_LO (u j : Nat) : Fld := ⟨0x78118 + 1024 * u + 256 * j, 0, 32, 0xFFFFFFFF⟩
def JXOROUT_HI (u j : Nat) : Fld := ⟨0x7811C + 1024 * u + 256 * j, 0, 32, 0⟩

/-! Fields of spec/11_host_functions_and_tenants.md -/
def OWNER_CTO_CNT : Fld := ⟨0x51200, 0, 32, 0⟩
def OWNER_CPL_ERR_CNT : Fld := ⟨0x51204, 0, 32, 0⟩

/-! Fields of spec/04_port_macs.md -/
def RX_OCTETS_HI (n : Nat) : Fld := ⟨0x10604 + 0x2000 * n, 0, 32, 0⟩
def RX_ENDED_HI (n : Nat) : Fld := ⟨0x1060C + 0x2000 * n, 0, 32, 0⟩
def RX_BCAST_HI (n : Nat) : Fld := ⟨0x10614 + 0x2000 * n, 0, 32, 0⟩
def RX_MCAST_HI (n : Nat) : Fld := ⟨0x1061C + 0x2000 * n, 0, 32, 0⟩
def RX_MACCTL_HI (n : Nat) : Fld := ⟨0x10624 + 0x2000 * n, 0, 32, 0⟩
def RX_SIZE_HI (n b : Nat) : Fld := ⟨0x10634 + 0x2000 * n + 8 * b, 0, 32, 0⟩
def TX_OCTETS_HI (n : Nat) : Fld := ⟨0x10684 + 0x2000 * n, 0, 32, 0⟩
def TX_FRAMES_HI (n : Nat) : Fld := ⟨0x1068C + 0x2000 * n, 0, 32, 0⟩
def TX_BCAST_HI (n : Nat) : Fld := ⟨0x10694 + 0x2000 * n, 0, 32, 0⟩
def TX_MCAST_HI (n : Nat) : Fld := ⟨0x1069C + 0x2000 * n, 0, 32, 0⟩
def TX_MACCTL_HI (n : Nat) : Fld := ⟨0x106A4 + 0x2000 * n, 0, 32, 0⟩
def TX_SIZE_HI (n b : Nat) : Fld := ⟨0x106B4 + 0x2000 * n + 8 * b, 0, 32, 0⟩

/-! Fields of spec/13_early_look.md -/
def EL_STAT_O_OUTSTANDING (n : Nat) : Fld := ⟨0x51010 + 32 * n, 0, 7, 0⟩
def EL_STAT_O_PERMIT (n : Nat) : Fld := ⟨0x51010 + 32 * n, 8, 1, 0⟩

/-! Fields of spec/21_register_map.md -/
def T_FLOW_SEL (n : Nat) : Fld := ⟨0x1000000 * (n + 1) + 0x4008, 0, 12, 0⟩
def T_FLOW_REC_W0 (n : Nat) : Fld := ⟨0x1000000 * (n + 1) + 0x4010, 0, 32, 0⟩
def T_FLOW_REC_W1 (n : Nat) : Fld := ⟨0x1000000 * (n + 1) + 0x4014, 0, 32, 0⟩
def T_FLOW_REC_W2 (n : Nat) : Fld := ⟨0x1000000 * (n + 1) + 0x4018, 0, 32, 0⟩
def T_FLOW_REC_W3 (n : Nat) : Fld := ⟨0x1000000 * (n + 1) + 0x401C, 0, 32, 0⟩
def T_RET_HWM (n : Nat) : Fld := ⟨0x1000000 * (n + 1) + 0x4024, 0, 32, 0⟩

/-! Fields of spec/11_host_functions_and_tenants.md -/
def MSIX_ADDR_LO (f k : Nat) : Fld := ⟨msixBase f + 16 * k + 0, 0, 32, 0⟩
def MSIX_ADDR_HI (f k : Nat) : Fld := ⟨msixBase f + 16 * k + 4, 0, 32, 0⟩
def MSIX_DATA (f k : Nat) : Fld := ⟨msixBase f + 16 * k + 8, 0, 32, 0⟩
def MSIX_CTRL_MASK (f k : Nat) : Fld := ⟨msixBase f + 16 * k + 12, 0, 1, 1⟩
def MSIX_PBA_LO (f : Nat) : Fld := ⟨msixPba f + 0, 0, 32, 0⟩
def MSIX_PBA_HI (f : Nat) : Fld := ⟨msixPba f + 4, 0, 32, 0⟩

end Sys2Proof.Machine.R
end

