-- ==== Sys2Proof/Machine/RegTable.lean ====
section
/-! DEFINITION. The register tables of the spec as data: for every register its name as the console's `set` verb spells it
(R517), its base offset, the strides and counts of its indices, whether it is staged (R619), and its fields with their bits,
access codes (R10), reset values (R626) and the values the tables allow (R623). -/

namespace Sys2Proof.Machine

/-- Access codes of R10. -/
inductive Acc where
  | rw | ro | rwh | w1c | w1s | rc | wo
  deriving DecidableEq, Repr

/-- The values a field's register table allows (R623); any other value is a reserved encoding. -/
inductive Limit where
  | any
  | range (lo hi : Nat)
  | atLeast (lo : Nat)
  | notRange (lo hi : Nat)
  | noneOf (l : List Nat)
  | oneOfRanges (l : List (Nat × Nat))
  | aligned (a : Nat)
  | etype
  deriving DecidableEq, Repr

/-- A field of a register: its name in lower case (empty where the register has no named fields), bits, access and reset. -/
structure FieldDef where
  name : String
  hi : Nat
  lo : Nat
  acc : Acc
  rst : List Nat → Nat
  lim : Limit

/-- A register of the tables: `dims` lists the stride and the count of each index, the largest stride first. -/
structure RegDef where
  name : String
  base : Nat
  dims : List (Nat × Nat)
  staged : Bool
  fields : List FieldDef

/-- A reset value that does not depend on the indices. -/
def rv (n : Nat) : List Nat → Nat := fun _ => n

/-- Owner BAR0 registers of spec/02_tick_and_budget.md. -/
def ownerRegs02 : List RegDef := [
  ⟨"tick_cfg", 0x60100, [], true, [⟨"period", 2, 0, .rw, rv 2, .range 0 4⟩, ⟨"phase", 25, 8, .rw, rv 0, .any⟩]⟩,
  ⟨"tick_active", 0x60104, [], false, [⟨"", 31, 0, .ro, rv 2, .any⟩]⟩,
  ⟨"tick_stat", 0x60108, [], false, [⟨"tick_unsynced", 0, 0, .ro, rv 1, .any⟩, ⟨"tick_slewing", 1, 1, .ro, rv 0, .any⟩, ⟨"tick_overrun", 2, 2, .w1c, rv 0, .any⟩, ⟨"overrun_eng", 11, 3, .w1c, rv 0, .any⟩]⟩,
  ⟨"tick_err", 0x6010C, [], false, [⟨"", 31, 0, .ro, rv 0, .any⟩]⟩,
  ⟨"tick_num_lo", 0x60110, [], false, [⟨"", 31, 0, .ro, rv 0, .any⟩]⟩,
  ⟨"tick_num_hi", 0x60114, [], false, [⟨"", 15, 0, .ro, rv 0, .any⟩]⟩,
  ⟨"overrun_cnt", 0x60118, [], false, [⟨"", 31, 0, .rwh, rv 0, .any⟩]⟩,
  ⟨"overrun_first", 0x6011C, [], false, [⟨"", 31, 0, .ro, rv 0, .any⟩]⟩,
  ⟨"cfg_epoch", 512, [], false, [⟨"", 31, 0, .ro, rv 0, .any⟩]⟩,
  ⟨"bchk_status", 516, [], false, [⟨"pass", 0, 0, .ro, rv 0, .any⟩, ⟨"pending", 1, 1, .ro, rv 0, .any⟩, ⟨"stale", 2, 2, .ro, rv 0, .any⟩, ⟨"locked", 3, 3, .ro, rv 0, .any⟩, ⟨"engine", 11, 8, .ro, rv 0, .any⟩]⟩,
  ⟨"bchk_demand", 520, [], false, [⟨"", 31, 0, .ro, rv 0, .any⟩]⟩,
  ⟨"bchk_ceiling", 524, [], false, [⟨"", 31, 0, .ro, rv 0, .any⟩]⟩,
  ⟨"commit_tick_lo", 528, [], false, [⟨"", 31, 0, .ro, rv 0, .any⟩]⟩,
  ⟨"commit_tick_hi", 532, [], false, [⟨"", 15, 0, .ro, rv 0, .any⟩]⟩,
  ⟨"env_ctrl", 0x10400, [(0x2000, 6)], true, [⟨"defclass", 2, 0, .rw, rv 0, .any⟩]⟩,
  ⟨"env_min_interval", 0x10404, [(0x2000, 6)], true, [⟨"", 23, 0, .rw, rv 0, .any⟩]⟩,
  ⟨"env_rate", 0x10410, [(0x2000, 6), (8, 8)], true, [⟨"", 13, 0, .rw, rv 0x2710, .range 0 10000⟩]⟩,
  ⟨"env_burst", 0x10414, [(0x2000, 6), (8, 8)], true, [⟨"", 17, 0, .rw, rv 0x4800, .range 0 147456⟩]⟩,
  ⟨"env_disc", 0x10450, [(0x2000, 6), (4, 8)], false, [⟨"", 31, 0, .rc, rv 0, .any⟩]⟩,
  ⟨"tenv_min_interval", 0x53000, [(64, 17), (16, 4)], true, [⟨"", 23, 0, .rw, rv 0, .any⟩]⟩,
  ⟨"tenv_rate", 0x53004, [(64, 17), (16, 4)], true, [⟨"", 13, 0, .rw, rv 0x2710, .range 0 10000⟩]⟩,
  ⟨"tenv_burst", 0x53008, [(64, 17), (16, 4)], true, [⟨"", 17, 0, .rw, rv 0x4800, .range 0 147456⟩]⟩,
  ⟨"", 0x5300C, [(64, 17), (16, 4)], false, []⟩]

/-- Owner BAR0 registers of spec/03_accepted_work.md. -/
def ownerRegs03a : List RegDef := [
  ⟨"adm_disc_fcs", 0x10500, [(0x2000, 6)], false, [⟨"", 31, 0, .rc, rv 0, .any⟩]⟩,
  ⟨"adm_disc_len", 0x10504, [(0x2000, 6)], false, [⟨"", 31, 0, .rc, rv 0, .any⟩]⟩,
  ⟨"adm_disc_addr", 0x10508, [(0x2000, 6)], false, [⟨"", 31, 0, .rc, rv 0, .any⟩]⟩,
  ⟨"adm_ref_reset", 0x1050C, [(0x2000, 6)], false, [⟨"", 31, 0, .rc, rv 0, .any⟩]⟩,
  ⟨"adm_ref_cells", 0x10510, [(0x2000, 6)], false, [⟨"", 31, 0, .rc, rv 0, .any⟩]⟩,
  ⟨"adm_ref_flow", 0x10514, [(0x2000, 6)], false, [⟨"", 31, 0, .rc, rv 0, .any⟩]⟩,
  ⟨"adm_ref_queue", 0x10518, [(0x2000, 6)], false, [⟨"", 31, 0, .rc, rv 0, .any⟩]⟩,
  ⟨"adm_ref_tenant", 0x1051C, [(0x2000, 6)], false, [⟨"", 31, 0, .rc, rv 0, .any⟩]⟩,
  ⟨"adm_ref_ledger", 0x10520, [(0x2000, 6)], false, [⟨"", 31, 0, .rc, rv 0, .any⟩]⟩,
  ⟨"adm_acc", 0x10524, [(0x2000, 6)], false, [⟨"", 31, 0, .rc, rv 0, .any⟩]⟩,
  ⟨"mirror_skip", 0x10528, [(0x2000, 6)], false, [⟨"", 31, 0, .rc, rv 0, .any⟩]⟩,
  ⟨"led_stat", 0x28000, [], false, [⟨"m0_fail", 0, 0, .ro, rv 0, .any⟩, ⟨"m1_fail", 1, 1, .ro, rv 0, .any⟩, ⟨"rebuild", 2, 2, .ro, rv 0, .any⟩, ⟨"degraded", 3, 3, .ro, rv 0, .any⟩, ⟨"ret_valid", 4, 4, .ro, rv 0, .any⟩, ⟨"entry_low", 5, 5, .ro, rv 0, .any⟩]⟩,
  ⟨"entry_free", 0x28004, [], false, [⟨"", 16, 0, .ro, rv 0x10000, .any⟩]⟩,
  ⟨"flow_sel", 0x28008, [], false, [⟨"", 11, 0, .rw, rv 0, .any⟩]⟩,
  ⟨"flow_rec_w0", 0x28010, [], false, [⟨"", 31, 0, .ro, rv 0, .any⟩]⟩,
  ⟨"flow_rec_w1", 0x28014, [], false, [⟨"", 31, 0, .ro, rv 0, .any⟩]⟩,
  ⟨"flow_rec_w2", 0x28018, [], false, [⟨"", 31, 0, .ro, rv 31, .any⟩]⟩,
  ⟨"flow_rec_w3", 0x2801C, [], false, [⟨"", 31, 0, .ro, rv 0, .any⟩]⟩,
  ⟨"flow_cfg", 0x28020, [], true, [⟨"fn", 4, 0, .rw, rv 31, .notRange 18 30⟩, ⟨"en", 5, 5, .rw, rv 0, .any⟩, ⟨"hostseq", 6, 6, .rw, rv 0, .any⟩]⟩,
  ⟨"ret_hwm", 0x28024, [], false, [⟨"", 31, 0, .ro, rv 0, .any⟩]⟩,
  ⟨"disp_cnt", 0x28040, [(4, 12)], false, [⟨"", 31, 0, .rc, rv 0, .any⟩]⟩,
  ⟨"exc_skip", 0x28070, [], false, [⟨"", 31, 0, .rc, rv 0, .any⟩]⟩,
  ⟨"mirror_err_cnt", 0x28080, [], false, [⟨"", 31, 0, .rwh, rv 0, .any⟩]⟩,
  ⟨"hs_stat", 0x50040, [], false, [⟨"host_stall", 0, 0, .ro, rv 0, .any⟩, ⟨"hs_esc", 1, 1, .w1c, rv 0, .any⟩]⟩]

/-- Owner BAR0 registers of spec/03_accepted_work.md. -/
def ownerRegs03b : List RegDef := [
  ⟨"hs_detect", 0x50044, [], false, [⟨"", 15, 0, .rw, rv 0x1F40, .atLeast 800⟩]⟩,
  ⟨"hs_esc_ticks", 0x50048, [], false, [⟨"", 23, 0, .rw, rv 0x3E80, .atLeast 1⟩]⟩,
  ⟨"hs_cnt", 0x5004C, [], false, [⟨"", 31, 0, .rc, rv 0, .any⟩]⟩]

/-- Owner BAR0 registers of spec/04_port_macs.md. -/
def ownerRegs04a : List RegDef := [
  ⟨"rx_octets", 0x10600, [(0x2000, 6)], false, [⟨"", 31, 0, .ro, rv 0, .any⟩]⟩,
  ⟨"rx_ended", 0x10608, [(0x2000, 6)], false, [⟨"", 31, 0, .ro, rv 0, .any⟩]⟩,
  ⟨"rx_bcast", 0x10610, [(0x2000, 6)], false, [⟨"", 31, 0, .ro, rv 0, .any⟩]⟩,
  ⟨"rx_mcast", 0x10618, [(0x2000, 6)], false, [⟨"", 31, 0, .ro, rv 0, .any⟩]⟩,
  ⟨"rx_macctl", 0x10620, [(0x2000, 6)], false, [⟨"", 31, 0, .ro, rv 0, .any⟩]⟩,
  ⟨"rx_size", 0x10630, [(0x2000, 6), (8, 8)], false, [⟨"", 31, 0, .ro, rv 0, .any⟩]⟩,
  ⟨"tx_octets", 0x10680, [(0x2000, 6)], false, [⟨"", 31, 0, .ro, rv 0, .any⟩]⟩,
  ⟨"tx_frames", 0x10688, [(0x2000, 6)], false, [⟨"", 31, 0, .ro, rv 0, .any⟩]⟩,
  ⟨"tx_bcast", 0x10690, [(0x2000, 6)], false, [⟨"", 31, 0, .ro, rv 0, .any⟩]⟩,
  ⟨"tx_mcast", 0x10698, [(0x2000, 6)], false, [⟨"", 31, 0, .ro, rv 0, .any⟩]⟩,
  ⟨"tx_macctl", 0x106A0, [(0x2000, 6)], false, [⟨"", 31, 0, .ro, rv 0, .any⟩]⟩,
  ⟨"tx_size", 0x106B0, [(0x2000, 6), (8, 8)], false, [⟨"", 31, 0, .ro, rv 0, .any⟩]⟩,
  ⟨"port_cfg", 0x10000, [(0x2000, 6)], true, [⟨"if", 2, 0, .rw, rv 0, .any⟩, ⟨"rate_max", 6, 4, .rw, rv 5, .any⟩, ⟨"an_en", 8, 8, .rw, rv 1, .any⟩, ⟨"miss_act", 12, 12, .rw, rv 0, .any⟩, ⟨"bcast_en", 13, 13, .rw, rv 0, .any⟩, ⟨"promisc", 14, 14, .rw, rv 0, .any⟩, ⟨"tx_ipg", 23, 16, .rw, rv 12, .atLeast 12⟩]⟩,
  ⟨"maxlen", 0x10004, [(0x2000, 6)], true, [⟨"", 13, 0, .rw, rv 1522, .range 1518 9216⟩]⟩,
  ⟨"tag_cfg", 0x10008, [(0x2000, 6)], true, [⟨"s_tpid", 15, 0, .rw, rv 0x88A8, .noneOf [0x0000, 0x0800, 0x8100, 0x8808, 0xF1C1]⟩]⟩,
  ⟨"lat_rx", 0x10010, [(0x2000, 6)], true, [⟨"", 23, 0, .rw, rv 0, .any⟩]⟩,
  ⟨"lat_tx", 0x10014, [(0x2000, 6)], true, [⟨"", 23, 0, .rw, rv 0, .any⟩]⟩,
  ⟨"link_cfg", 0x10018, [(0x2000, 6)], true, [⟨"link_debounce", 15, 0, .rw, rv 10, .any⟩]⟩,
  ⟨"phy_loc", 0x1001C, [(0x2000, 6)], true, [⟨"bus", 0, 0, .rw, fun l => if l.getD 0 0 < 3 then 0 else 1, .any⟩, ⟨"prtad", 5, 1, .rw, fun l => l.getD 0 0, .any⟩, ⟨"cl45", 6, 6, .rw, rv 1, .any⟩]⟩,
  ⟨"sx_cfg", 0x10020, [(0x2000, 6)], false, [⟨"tx_pol", 0, 0, .rw, rv 0, .any⟩, ⟨"rx_pol", 1, 1, .rw, rv 0, .any⟩, ⟨"lpbk", 3, 2, .rw, rv 0, .any⟩, ⟨"tx_pre", 7, 4, .rw, rv 0, .any⟩, ⟨"tx_main", 13, 8, .rw, rv 48, .any⟩, ⟨"tx_post", 19, 16, .rw, rv 4, .any⟩]⟩,
  ⟨"port_ctrl", 0x10030, [(0x2000, 6)], false, [⟨"mac_rst", 0, 0, .w1s, rv 0, .any⟩, ⟨"pcs_rst", 1, 1, .w1s, rv 0, .any⟩, ⟨"an_restart", 2, 2, .w1s, rv 0, .any⟩]⟩,
  ⟨"port_stat", 0x10034, [(0x2000, 6)], false, [⟨"state", 2, 0, .ro, rv 0, .any⟩, ⟨"rate", 6, 4, .ro, rv 0, .any⟩, ⟨"an_done", 8, 8, .ro, rv 0, .any⟩, ⟨"local_fault", 9, 9, .ro, rv 0, .any⟩, ⟨"remote_fault", 10, 10, .ro, rv 0, .any⟩, ⟨"duplex_fault", 11, 11, .ro, rv 0, .any⟩, ⟨"rate_fault", 12, 12, .ro, rv 0, .any⟩, ⟨"sx_lock", 13, 13, .ro, rv 0, .any⟩, ⟨"pcs_sync", 14, 14, .ro, rv 0, .any⟩]⟩,
  ⟨"link_chg", 0x10038, [(0x2000, 6)], false, [⟨"link_up_ev", 0, 0, .w1c, rv 0, .any⟩, ⟨"link_lost_ev", 1, 1, .w1c, rv 0, .any⟩]⟩,
  ⟨"slot_addr_lo", 0x10100, [(0x2000, 6), (16, 32)], true, [⟨"", 31, 0, .rw, rv 0, .any⟩]⟩]

/-- Owner BAR0 registers of spec/04_port_macs.md. -/
def ownerRegs04b : List RegDef := [
  ⟨"slot_addr_hi", 0x10104, [(0x2000, 6), (16, 32)], true, [⟨"", 15, 0, .rw, rv 0, .any⟩, ⟨"slot_valid", 16, 16, .rw, rv 0, .any⟩, ⟨"slot_owner", 17, 17, .rw, rv 0, .any⟩]⟩,
  ⟨"slot_tenant_map", 0x10108, [(0x2000, 6), (16, 32)], true, [⟨"", 15, 0, .rw, rv 0, .any⟩]⟩,
  ⟨"pcs_err", 0x10300, [(0x2000, 6)], false, [⟨"", 31, 0, .rc, rv 0, .any⟩]⟩,
  ⟨"link_lost_cnt", 0x10304, [(0x2000, 6)], false, [⟨"", 31, 0, .rc, rv 0, .any⟩]⟩,
  ⟨"tx_oversize", 0x10308, [(0x2000, 6)], false, [⟨"", 31, 0, .rc, rv 0, .any⟩]⟩,
  ⟨"filt_mask_cnt", 0x1030C, [(0x2000, 6)], false, [⟨"", 31, 0, .rc, rv 0, .any⟩]⟩,
  ⟨"rx_macctl_unk", 0x10310, [(0x2000, 6)], false, [⟨"", 31, 0, .rc, rv 0, .any⟩]⟩,
  ⟨"mdio_cfg", 768, [(32, 2)], false, [⟨"div", 3, 0, .rw, rv 4, .any⟩, ⟨"retry", 6, 4, .rw, rv 2, .any⟩, ⟨"preamble_suppress", 8, 8, .rw, rv 0, .any⟩, ⟨"park", 9, 9, .rw, rv 0, .any⟩]⟩,
  ⟨"mdio_cmd", 772, [(32, 2)], false, [⟨"go", 0, 0, .w1s, rv 0, .any⟩, ⟨"clause", 1, 1, .rw, rv 0, .any⟩, ⟨"op", 3, 2, .rw, rv 0, .any⟩, ⟨"phyad", 8, 4, .rw, rv 0, .any⟩, ⟨"regad", 13, 9, .rw, rv 0, .any⟩]⟩,
  ⟨"mdio_addr", 776, [(32, 2)], false, [⟨"", 15, 0, .rw, rv 0, .any⟩]⟩,
  ⟨"mdio_data", 780, [(32, 2)], false, [⟨"wdata", 15, 0, .rw, rv 0, .any⟩, ⟨"rdata", 31, 16, .ro, rv 0, .any⟩]⟩,
  ⟨"mdio_stat", 784, [(32, 2)], false, [⟨"done", 0, 0, .w1c, rv 0, .any⟩, ⟨"no_ack", 1, 1, .w1c, rv 0, .any⟩, ⟨"fail", 2, 2, .w1c, rv 0, .any⟩, ⟨"go_ignored", 3, 3, .w1c, rv 0, .any⟩]⟩,
  ⟨"rx_octets_hi", 0x10604, [(0x2000, 6)], false, [⟨"", 31, 0, .ro, rv 0, .any⟩]⟩,
  ⟨"rx_ended_hi", 0x1060C, [(0x2000, 6)], false, [⟨"", 31, 0, .ro, rv 0, .any⟩]⟩,
  ⟨"rx_bcast_hi", 0x10614, [(0x2000, 6)], false, [⟨"", 31, 0, .ro, rv 0, .any⟩]⟩,
  ⟨"rx_mcast_hi", 0x1061C, [(0x2000, 6)], false, [⟨"", 31, 0, .ro, rv 0, .any⟩]⟩,
  ⟨"rx_macctl_hi", 0x10624, [(0x2000, 6)], false, [⟨"", 31, 0, .ro, rv 0, .any⟩]⟩,
  ⟨"rx_size_hi", 0x10634, [(0x2000, 6), (8, 8)], false, [⟨"", 31, 0, .ro, rv 0, .any⟩]⟩,
  ⟨"tx_octets_hi", 0x10684, [(0x2000, 6)], false, [⟨"", 31, 0, .ro, rv 0, .any⟩]⟩,
  ⟨"tx_frames_hi", 0x1068C, [(0x2000, 6)], false, [⟨"", 31, 0, .ro, rv 0, .any⟩]⟩,
  ⟨"tx_bcast_hi", 0x10694, [(0x2000, 6)], false, [⟨"", 31, 0, .ro, rv 0, .any⟩]⟩,
  ⟨"tx_mcast_hi", 0x1069C, [(0x2000, 6)], false, [⟨"", 31, 0, .ro, rv 0, .any⟩]⟩,
  ⟨"tx_macctl_hi", 0x106A4, [(0x2000, 6)], false, [⟨"", 31, 0, .ro, rv 0, .any⟩]⟩,
  ⟨"tx_size_hi", 0x106B4, [(0x2000, 6), (8, 8)], false, [⟨"", 31, 0, .ro, rv 0, .any⟩]⟩]

/-- Owner BAR0 registers of spec/04_port_macs.md. -/
def ownerRegs04c : List RegDef := [
  ⟨"", 0x1010C, [(0x2000, 6), (16, 32)], false, []⟩]

/-- Owner BAR0 registers of spec/05_pause_and_watchdog.md. -/
def ownerRegs05 : List RegDef := [
  ⟨"fc_cfg", 0x10700, [(0x2000, 6)], true, [⟨"rx_mode", 1, 0, .rw, rv 0, .range 0 2⟩, ⟨"tx_mode", 3, 2, .rw, rv 0, .range 0 2⟩, ⟨"wd_mode", 4, 4, .rw, rv 0, .any⟩, ⟨"adv_pause", 8, 8, .rw, rv 1, .any⟩, ⟨"adv_asm", 9, 9, .rw, rv 0, .any⟩]⟩,
  ⟨"fc_wd", 0x10704, [(0x2000, 6)], true, [⟨"pause_wd_limit", 7, 0, .rw, rv 32, .atLeast 1⟩, ⟨"pause_wd_hold", 15, 8, .rw, rv 16, .atLeast 1⟩]⟩,
  ⟨"fc_prio_map", 0x10708, [(0x2000, 6)], true, [⟨"", 23, 0, .rw, rv 0xFAC688, .any⟩]⟩,
  ⟨"fc_sa_lo", 0x1070C, [(0x2000, 6)], true, [⟨"", 31, 0, .rw, rv 0, .any⟩]⟩,
  ⟨"fc_sa_hi", 0x10710, [(0x2000, 6)], true, [⟨"", 15, 0, .rw, rv 0, .any⟩]⟩,
  ⟨"fc_tx_quanta", 0x10714, [(0x2000, 6)], true, [⟨"", 15, 0, .rw, rv 0xFFFF, .atLeast 1⟩]⟩,
  ⟨"fc_refresh", 0x10718, [(0x2000, 6)], true, [⟨"", 15, 0, .rw, rv 1000, .atLeast 1⟩]⟩,
  ⟨"fc_xoff_max", 0x1071C, [(0x2000, 6)], true, [⟨"", 7, 0, .rw, rv 16, .atLeast 1⟩]⟩,
  ⟨"fc_thr", 0x10720, [(0x2000, 6), (4, 8)], true, [⟨"xoff", 15, 0, .rw, rv 0, .range 0 49152⟩, ⟨"xon", 31, 16, .rw, rv 0, .range 0 49152⟩]⟩,
  ⟨"fc_stat", 0x10760, [(0x2000, 6)], false, [⟨"rx_held", 8, 0, .ro, rv 0, .any⟩, ⟨"tx_xoff", 23, 16, .ro, rv 0, .any⟩, ⟨"an_rx_en", 24, 24, .ro, rv 1, .any⟩, ⟨"an_tx_en", 25, 25, .ro, rv 1, .any⟩, ⟨"strict_lock", 26, 26, .ro, rv 0, .any⟩]⟩,
  ⟨"pause_wd_stat", 0x10764, [(0x2000, 6)], false, [⟨"broken", 8, 0, .w1c, rv 0, .any⟩, ⟨"holding", 24, 16, .ro, rv 0, .any⟩]⟩,
  ⟨"rx_pause_act", 0x10780, [(0x2000, 6)], false, [⟨"", 31, 0, .rc, rv 0, .any⟩]⟩,
  ⟨"rx_pause_ign", 0x10784, [(0x2000, 6)], false, [⟨"", 31, 0, .rc, rv 0, .any⟩]⟩,
  ⟨"pause_ign_wd", 0x10788, [(0x2000, 6)], false, [⟨"", 31, 0, .rc, rv 0, .any⟩]⟩,
  ⟨"pause_broken", 0x1078C, [(0x2000, 6)], false, [⟨"", 31, 0, .rc, rv 0, .any⟩]⟩,
  ⟨"tx_xoff_frames", 0x10790, [(0x2000, 6)], false, [⟨"", 31, 0, .rc, rv 0, .any⟩]⟩,
  ⟨"tx_xon_frames", 0x10794, [(0x2000, 6)], false, [⟨"", 31, 0, .rc, rv 0, .any⟩]⟩,
  ⟨"tx_xoff_cap", 0x10798, [(0x2000, 6)], false, [⟨"", 31, 0, .rc, rv 0, .any⟩]⟩,
  ⟨"pause_held_ticks", 0x1079C, [(0x2000, 6)], false, [⟨"", 31, 0, .rc, rv 0, .any⟩]⟩,
  ⟨"fc_global", 832, [], true, [⟨"xoff_free", 15, 0, .rw, rv 2048, .range 0 49152⟩, ⟨"xon_free", 31, 16, .rw, rv 3072, .range 0 49152⟩]⟩]

/-- Owner BAR0 registers of spec/06_buffer_and_folding.md. -/
def ownerRegs06a : List RegDef := [
  ⟨"buf_stat", 0x20000, [], false, [⟨"bank_fail", 4, 0, .ro, rv 0, .any⟩, ⟨"free_low", 8, 8, .ro, rv 0, .any⟩, ⟨"scrub_active", 9, 9, .ro, rv 0, .any⟩]⟩,
  ⟨"free_cells", 0x20004, [], false, [⟨"", 15, 0, .ro, rv 0xC000, .any⟩]⟩,
  ⟨"free_min", 0x20008, [], false, [⟨"", 15, 0, .rwh, rv 0xC000, .any⟩]⟩,
  ⟨"mgmt_held", 0x2000C, [], false, [⟨"", 6, 0, .ro, rv 0, .any⟩]⟩,
  ⟨"buf_thr", 0x20010, [], false, [⟨"low", 15, 0, .rw, rv 0x1000, .range 0 49152⟩]⟩,
  ⟨"bank_fail_thr", 0x20014, [], false, [⟨"", 7, 0, .rw, rv 4, .atLeast 1⟩]⟩,
  ⟨"scrub_cfg", 0x20018, [], false, [⟨"en", 0, 0, .rw, rv 1, .any⟩, ⟨"interval", 15, 8, .rw, rv 64, .atLeast 8⟩]⟩,
  ⟨"fault_cell", 0x2001C, [], false, [⟨"", 15, 0, .ro, rv 0, .any⟩]⟩,
  ⟨"fault_bank", 0x2001C, [], false, [⟨"", 18, 16, .ro, rv 0, .any⟩]⟩,
  ⟨"ecc_corr_cnt", 0x20040, [], false, [⟨"", 31, 0, .rwh, rv 0, .any⟩]⟩,
  ⟨"ecc_unc_cnt", 0x20044, [], false, [⟨"", 31, 0, .rc, rv 0, .any⟩]⟩,
  ⟨"crc_fail_cnt", 0x20048, [], false, [⟨"", 31, 0, .rc, rv 0, .any⟩]⟩,
  ⟨"rebuild_cnt", 0x2004C, [], false, [⟨"", 31, 0, .rc, rv 0, .any⟩]⟩,
  ⟨"data_fault_cnt", 0x20050, [], false, [⟨"", 31, 0, .rc, rv 0, .any⟩]⟩,
  ⟨"fold_fault_cnt", 0x20054, [], false, [⟨"", 31, 0, .rc, rv 0, .any⟩]⟩,
  ⟨"link_err_cnt", 0x20058, [], false, [⟨"", 31, 0, .rc, rv 0, .any⟩]⟩,
  ⟨"scrub_pass", 0x2005C, [], false, [⟨"", 31, 0, .rc, rv 0, .any⟩]⟩,
  ⟨"fold_cnt", 0x20060, [], false, [⟨"", 31, 0, .rc, rv 0, .any⟩]⟩,
  ⟨"fold_grp", 0x20100, [(4, 6)], true, [⟨"base", 9, 0, .rw, rv 0, .any⟩, ⟨"count", 19, 16, .rw, rv 0, .range 0 8⟩]⟩,
  ⟨"fold_grp_h", 0x20118, [], true, [⟨"base", 9, 0, .rw, rv 0, .any⟩, ⟨"count", 19, 16, .rw, rv 0, .range 0 8⟩]⟩,
  ⟨"tpl_sel", 0x20200, [], false, [⟨"", 9, 0, .rw, rv 0, .any⟩]⟩,
  ⟨"tpl_attr", 0x20204, [], false, [⟨"valid", 0, 0, .rw, rv 0, .any⟩, ⟨"tl", 15, 8, .rw, rv 14, .range 14 128⟩, ⟨"nfix", 23, 16, .ro, rv 0, .any⟩]⟩,
  ⟨"tpl_stat", 0x20208, [], false, [⟨"refs", 15, 0, .ro, rv 0, .any⟩, ⟨"pend", 16, 16, .ro, rv 0, .any⟩]⟩,
  ⟨"tpl_mask", 0x20210, [(4, 4)], false, [⟨"", 31, 0, .rw, rv 0, .any⟩]⟩]

/-- Owner BAR0 registers of spec/06_buffer_and_folding.md. -/
def ownerRegs06b : List RegDef := [
  ⟨"tpl_data", 0x20280, [(4, 32)], false, [⟨"", 31, 0, .rw, rv 0, .any⟩]⟩]

/-- Owner BAR0 registers of spec/07_match_action_tables.md. -/
def ownerRegs07a : List RegDef := [
  ⟨"mas_stat", 0x30000, [], false, [⟨"lane_fail", 3, 0, .ro, rv 0, .any⟩, ⟨"ovl_busy", 8, 8, .ro, rv 0, .any⟩, ⟨"v0_state", 18, 16, .ro, rv 0, .any⟩, ⟨"v1_state", 22, 20, .ro, rv 0, .any⟩]⟩,
  ⟨"prof_sel_p", 0x30010, [(4, 6)], true, [⟨"prof", 3, 0, .rw, rv 0, .any⟩, ⟨"space", 12, 8, .rw, rv 16, .range 0 16⟩]⟩,
  ⟨"prof_sel_f", 0x30100, [(16, 17), (4, 4)], true, [⟨"prof", 3, 0, .rw, rv 0, .any⟩, ⟨"space", 12, 8, .rw, rv 16, .range 0 16⟩]⟩,
  ⟨"profile", 0x30400, [(64, 16), (4, 14)], true, [⟨"b0", 7, 0, .rw, rv 255, .oneOfRanges [(0, 191), (255, 255)]⟩, ⟨"b1", 15, 8, .rw, rv 255, .oneOfRanges [(0, 191), (255, 255)]⟩, ⟨"b2", 23, 16, .rw, rv 255, .oneOfRanges [(0, 191), (255, 255)]⟩, ⟨"b3", 31, 24, .rw, rv 255, .oneOfRanges [(0, 191), (255, 255)]⟩]⟩,
  ⟨"part_pol", 0x30800, [(8, 16)], true, [⟨"pol_base", 8, 0, .rw, rv 0, .any⟩, ⟨"pol_num", 25, 16, .rw, rv 0, .range 0 512⟩]⟩,
  ⟨"part_cnt", 0x30804, [(8, 16)], true, [⟨"cnt_base", 9, 0, .rw, rv 0, .any⟩, ⟨"cnt_num", 26, 16, .rw, rv 0, .range 0 1024⟩]⟩,
  ⟨"tbl_stg_sel", 0x30900, [], false, [⟨"", 1, 0, .rw, rv 0, .range 0 2⟩]⟩,
  ⟨"tbl_stg_idx", 0x30904, [], false, [⟨"", 14, 0, .rw, rv 0, .any⟩]⟩,
  ⟨"tbl_stg_ctrl", 0x30908, [], false, [⟨"go", 0, 0, .w1s, rv 0, .any⟩]⟩,
  ⟨"tbl_stg_stat", 0x3090C, [], false, [⟨"full", 0, 0, .w1c, rv 0, .any⟩, ⟨"go_ignored", 1, 1, .w1c, rv 0, .any⟩, ⟨"n_exact", 25, 16, .ro, rv 0, .any⟩]⟩,
  ⟨"tbl_stg_stat2", 0x30910, [], false, [⟨"", 22, 0, .ro, rv 0, .any⟩]⟩,
  ⟨"tbl_stg_data", 0x30940, [(4, 25)], false, [⟨"", 31, 0, .rw, rv 0, .any⟩]⟩,
  ⟨"tbl_rd_sel", 0x30A00, [], false, [⟨"", 1, 0, .rw, rv 0, .any⟩]⟩,
  ⟨"tbl_rd_idx", 0x30A04, [], false, [⟨"", 14, 0, .rw, rv 0, .any⟩]⟩,
  ⟨"tbl_rd_data", 0x30A40, [(4, 25)], false, [⟨"", 31, 0, .ro, rv 0, .any⟩]⟩,
  ⟨"cnt_sel", 0x30B00, [], false, [⟨"", 9, 0, .rw, rv 0, .any⟩]⟩,
  ⟨"cnt_pkt_lo", 0x30B04, [], false, [⟨"", 31, 0, .ro, rv 0, .any⟩]⟩,
  ⟨"cnt_pkt_hi", 0x30B08, [], false, [⟨"", 31, 0, .ro, rv 0, .any⟩]⟩,
  ⟨"cnt_byte_lo", 0x30B0C, [], false, [⟨"", 31, 0, .ro, rv 0, .any⟩]⟩,
  ⟨"cnt_byte_hi", 0x30B10, [], false, [⟨"", 31, 0, .ro, rv 0, .any⟩]⟩,
  ⟨"cnt_clr", 0x30B14, [], false, [⟨"", 9, 0, .wo, rv 0, .any⟩]⟩,
  ⟨"hit_sel", 0x30C00, [], false, [⟨"", 9, 0, .rw, rv 0, .any⟩]⟩,
  ⟨"hit_word", 0x30C04, [], false, [⟨"", 31, 0, .rc, rv 0, .any⟩]⟩,
  ⟨"sketch_cfg", 0x30D00, [], false, [⟨"unit", 1, 0, .rw, rv 0, .range 0 1⟩, ⟨"en", 4, 4, .rw, rv 1, .any⟩]⟩]

/-- Owner BAR0 registers of spec/07_match_action_tables.md. -/
def ownerRegs07b : List RegDef := [
  ⟨"sketch_ctrl", 0x30D04, [], false, [⟨"clear", 0, 0, .w1s, rv 0, .any⟩]⟩,
  ⟨"sketch_stat", 0x30D08, [], false, [⟨"clearing", 0, 0, .ro, rv 0, .any⟩, ⟨"sat", 1, 1, .w1c, rv 0, .any⟩]⟩,
  ⟨"sketch_qry", 0x30D0C, [], false, [⟨"", 15, 0, .rw, rv 0, .any⟩]⟩,
  ⟨"sketch_est", 0x30D10, [], false, [⟨"", 31, 0, .ro, rv 0, .any⟩]⟩,
  ⟨"sketch_row", 0x30D14, [(4, 4)], false, [⟨"", 31, 0, .ro, rv 0, .any⟩]⟩,
  ⟨"tbl_ecc_corr", 0x30E00, [], false, [⟨"", 31, 0, .rwh, rv 0, .any⟩]⟩,
  ⟨"tbl_ecc_unc", 0x30E04, [], false, [⟨"", 31, 0, .rc, rv 0, .any⟩]⟩,
  ⟨"tbl_fault_idx", 0x30E08, [], false, [⟨"", 17, 0, .ro, rv 0, .any⟩]⟩,
  ⟨"exit_dup", 0x30E0C, [], false, [⟨"", 31, 0, .rc, rv 0, .any⟩]⟩,
  ⟨"cls_noexit", 0x30E10, [], false, [⟨"", 31, 0, .rc, rv 0, .any⟩]⟩,
  ⟨"part_viol_cnt", 0x30E14, [], false, [⟨"", 31, 0, .rc, rv 0, .any⟩]⟩,
  ⟨"lane_fault_cnt", 0x30E18, [], false, [⟨"", 31, 0, .rc, rv 0, .any⟩]⟩]

/-- Owner BAR0 registers of spec/08_henabin_action_code.md. -/
def ownerRegs08 : List RegDef := [
  ⟨"prog_p", 0x31000, [(4, 6)], true, [⟨"entry", 13, 0, .rw, rv 0, .any⟩, ⟨"en", 16, 16, .rw, rv 0, .any⟩]⟩,
  ⟨"prog_f", 0x31040, [(16, 17), (4, 4)], true, [⟨"entry", 13, 0, .rw, rv 0, .any⟩, ⟨"en", 16, 16, .rw, rv 0, .any⟩]⟩,
  ⟨"trap_flow", 0x31200, [], true, [⟨"", 11, 0, .rw, rv 0, .any⟩]⟩,
  ⟨"hac_stat", 0x31204, [], false, [⟨"retiring", 0, 0, .ro, rv 0, .any⟩]⟩,
  ⟨"trap_cnt", 0x31208, [], false, [⟨"", 31, 0, .rc, rv 0, .any⟩]⟩,
  ⟨"trap_last", 0x3120C, [], false, [⟨"", 31, 0, .ro, rv 0, .any⟩]⟩,
  ⟨"trap_last_src", 0x31210, [], false, [⟨"", 31, 0, .ro, rv 0, .any⟩]⟩,
  ⟨"carry_free", 0x31214, [], false, [⟨"", 14, 0, .ro, rv 0x4000, .any⟩]⟩,
  ⟨"carry_full", 0x31218, [], false, [⟨"", 31, 0, .rc, rv 0, .any⟩]⟩,
  ⟨"park_full", 0x3121C, [], false, [⟨"", 31, 0, .rc, rv 0, .any⟩]⟩,
  ⟨"hac_chk_fail", 0x31220, [], false, [⟨"", 29, 0, .ro, rv 0, .any⟩]⟩,
  ⟨"pcost_sel", 0x31224, [], false, [⟨"", 6, 0, .rw, rv 0, .oneOfRanges [(0, 5), (16, 83)]⟩]⟩,
  ⟨"pcost_cyc", 0x31228, [], false, [⟨"", 31, 0, .ro, rv 0, .any⟩]⟩,
  ⟨"pcost_lkp", 0x3122C, [], false, [⟨"", 31, 0, .ro, rv 0, .any⟩]⟩,
  ⟨"pcost_job", 0x31230, [], false, [⟨"", 8, 0, .ro, rv 0, .any⟩]⟩,
  ⟨"hac_live_q", 0x31234, [], false, [⟨"w", 13, 0, .rw, rv 0, .any⟩, ⟨"live", 31, 31, .ro, rv 0, .any⟩]⟩,
  ⟨"hac_lo", 0x200000, [(8, 16384)], false, [⟨"", 31, 0, .rw, rv 0, .any⟩]⟩,
  ⟨"hac_hi", 0x200004, [(8, 16384)], false, [⟨"", 31, 0, .rw, rv 0, .any⟩]⟩]

/-- Owner BAR0 registers of spec/09_egress_scheduling.md. -/
def ownerRegs09a : List RegDef := [
  ⟨"qport_cfg", 0x40000, [(0x1000, 6)], true, [⟨"gate_en", 0, 0, .rw, rv 0, .any⟩, ⟨"preempt_en", 1, 1, .rw, rv 0, .any⟩, ⟨"verify_dis", 2, 2, .rw, rv 0, .any⟩, ⟨"add_frag", 5, 4, .rw, rv 0, .any⟩, ⟨"verify_time", 15, 8, .rw, rv 10, .range 1 128⟩, ⟨"verify_limit", 18, 16, .rw, rv 3, .atLeast 1⟩]⟩,
  ⟨"q_slots_max", 0x40004, [(0x1000, 6)], true, [⟨"", 14, 0, .rw, rv 2730, .range 0 16384⟩]⟩,
  ⟨"gcl_admin_len", 0x40008, [(0x1000, 6)], true, [⟨"", 8, 0, .rw, rv 1, .range 1 256⟩]⟩,
  ⟨"gcl_admin_base_lo", 0x4000C, [(0x1000, 6)], true, [⟨"", 31, 0, .rw, rv 0, .any⟩]⟩,
  ⟨"gcl_admin_base_hi", 0x40010, [(0x1000, 6)], true, [⟨"", 7, 0, .rw, rv 0, .any⟩]⟩,
  ⟨"qport_stat", 0x40020, [(0x1000, 6)], false, [⟨"gcl_pend", 0, 0, .ro, rv 0, .any⟩, ⟨"verify_state", 3, 1, .ro, rv 0, .any⟩, ⟨"preempt_active", 4, 4, .ro, rv 0, .any⟩, ⟨"hold", 5, 5, .ro, rv 0, .any⟩, ⟨"cap_miss", 6, 6, .w1c, rv 0, .any⟩, ⟨"oper_len", 24, 16, .ro, rv 1, .any⟩]⟩,
  ⟨"gcl_oper_entry", 0x40024, [(0x1000, 6)], false, [⟨"", 7, 0, .ro, rv 0, .any⟩]⟩,
  ⟨"slots_used", 0x40028, [(0x1000, 6)], false, [⟨"", 14, 0, .ro, rv 0, .any⟩]⟩,
  ⟨"gcl_switch_tick_lo", 0x40030, [(0x1000, 6)], false, [⟨"", 31, 0, .ro, rv 0, .any⟩]⟩,
  ⟨"preempt_cnt", 0x40040, [(0x1000, 6)], false, [⟨"", 31, 0, .rc, rv 0, .any⟩]⟩,
  ⟨"frag_tx", 0x40044, [(0x1000, 6)], false, [⟨"", 31, 0, .rc, rv 0, .any⟩]⟩,
  ⟨"verify_fail_cnt", 0x40048, [(0x1000, 6)], false, [⟨"", 31, 0, .rc, rv 0, .any⟩]⟩,
  ⟨"rx_assy_err", 0x4004C, [(0x1000, 6)], false, [⟨"", 31, 0, .rc, rv 0, .any⟩]⟩,
  ⟨"lt_late", 0x40050, [(0x1000, 6)], false, [⟨"", 31, 0, .rc, rv 0, .any⟩]⟩,
  ⟨"lt_missed", 0x40054, [(0x1000, 6)], false, [⟨"", 31, 0, .rc, rv 0, .any⟩]⟩,
  ⟨"lt_ignored", 0x40058, [(0x1000, 6)], false, [⟨"", 31, 0, .rc, rv 0, .any⟩]⟩,
  ⟨"gcl_admin", 0x40800, [(0x1000, 6), (4, 256)], true, [⟨"", 27, 0, .rw, fun l => if l.getD 1 0 = 0 then 0xFF else 0, .any⟩]⟩,
  ⟨"gcl_oper", 0x40C00, [(0x1000, 6), (4, 256)], false, [⟨"", 27, 0, .ro, fun l => if l.getD 1 0 = 0 then 0xFF else 0, .any⟩]⟩,
  ⟨"q_cfg", 0x40100, [(0x1000, 6), (32, 8)], true, [⟨"cap", 4, 0, .rw, rv 16, .range 2 16⟩, ⟨"express", 8, 8, .rw, rv 0, .any⟩, ⟨"ts", 9, 9, .rw, rv 0, .any⟩, ⟨"lt_en", 10, 10, .rw, rv 0, .any⟩, ⟨"lt_act", 11, 11, .rw, rv 0, .any⟩, ⟨"shaper_en", 12, 12, .rw, rv 0, .any⟩]⟩,
  ⟨"q_idle_slope", 0x40104, [(0x1000, 6), (32, 8)], true, [⟨"", 23, 0, .rw, rv 0, .range 0 10000000⟩]⟩,
  ⟨"q_ts_bytes", 0x40108, [(0x1000, 6), (32, 8)], true, [⟨"", 15, 0, .rw, rv 0, .any⟩]⟩,
  ⟨"q_lt_window", 0x4010C, [(0x1000, 6), (32, 8)], true, [⟨"", 19, 0, .rw, rv 1000, .any⟩]⟩,
  ⟨"q_depth", 0x40110, [(0x1000, 6), (32, 8)], false, [⟨"", 14, 0, .ro, rv 0, .any⟩]⟩,
  ⟨"q_credit", 0x40114, [(0x1000, 6), (32, 8)], false, [⟨"", 31, 0, .ro, rv 0, .any⟩]⟩]

/-- Owner BAR0 registers of spec/09_egress_scheduling.md. -/
def ownerRegs09b : List RegDef := [
  ⟨"q_cap_miss", 0x40118, [(0x1000, 6), (32, 8)], false, [⟨"", 31, 0, .rc, rv 0, .any⟩]⟩,
  ⟨"q_ref_cap", 0x4011C, [(0x1000, 6), (32, 8)], false, [⟨"", 31, 0, .rc, rv 0, .any⟩]⟩]

/-- Owner BAR0 registers of spec/10_redundant_streams.md. -/
def ownerRegs10 : List RegDef := [
  ⟨"gen_cfg", 0x32000, [(16, 64)], true, [⟨"en", 0, 0, .rw, rv 0, .any⟩, ⟨"flow", 27, 16, .rw, rv 0, .any⟩]⟩,
  ⟨"gen_seq", 0x32004, [(16, 64)], false, [⟨"", 15, 0, .ro, rv 0, .any⟩]⟩,
  ⟨"gen_reset", 0x32008, [(16, 64)], false, [⟨"", 0, 0, .wo, rv 0, .any⟩]⟩,
  ⟨"gen_drawn", 0x3200C, [(16, 64)], false, [⟨"", 31, 0, .rc, rv 0, .any⟩]⟩,
  ⟨"rec_cfg", 0x33000, [(64, 128)], true, [⟨"en", 0, 0, .rw, rv 0, .any⟩, ⟨"lat_en", 1, 1, .rw, rv 0, .any⟩, ⟨"hist_len", 13, 8, .rw, rv 32, .range 1 32⟩, ⟨"lat_paths", 19, 16, .rw, rv 2, .range 2 4⟩]⟩,
  ⟨"rec_reset_ticks", 0x33004, [(64, 128)], true, [⟨"", 23, 0, .rw, rv 16, .atLeast 1⟩]⟩,
  ⟨"lat_diff", 0x33008, [(64, 128)], true, [⟨"", 15, 0, .rw, rv 50, .any⟩]⟩,
  ⟨"lat_test_ticks", 0x3300C, [(64, 128)], true, [⟨"", 23, 0, .rw, rv 0x7D00, .atLeast 1⟩]⟩,
  ⟨"lat_reset_ticks", 0x33010, [(64, 128)], true, [⟨"", 23, 0, .rw, rv 0x75300, .atLeast 1⟩]⟩,
  ⟨"rec_stat", 0x33014, [(64, 128)], false, [⟨"recov_seq", 15, 0, .ro, rv 0, .any⟩, ⟨"take_any", 16, 16, .ro, rv 1, .any⟩, ⟨"latent", 17, 17, .w1c, rv 0, .any⟩]⟩,
  ⟨"rec_history", 0x33018, [(64, 128)], false, [⟨"", 31, 0, .ro, rv 0, .any⟩]⟩,
  ⟨"rec_reset", 0x3301C, [(64, 128)], false, [⟨"", 0, 0, .wo, rv 0, .any⟩]⟩,
  ⟨"rec_passed", 0x33020, [(64, 128)], false, [⟨"", 31, 0, .rc, rv 0, .any⟩]⟩,
  ⟨"rec_discarded", 0x33024, [(64, 128)], false, [⟨"", 31, 0, .rc, rv 0, .any⟩]⟩,
  ⟨"rec_ooo", 0x33028, [(64, 128)], false, [⟨"", 31, 0, .rc, rv 0, .any⟩]⟩,
  ⟨"rec_rogue", 0x3302C, [(64, 128)], false, [⟨"", 31, 0, .rc, rv 0, .any⟩]⟩,
  ⟨"rec_lost", 0x33030, [(64, 128)], false, [⟨"", 31, 0, .rc, rv 0, .any⟩]⟩,
  ⟨"rec_tagless", 0x33034, [(64, 128)], false, [⟨"", 31, 0, .rc, rv 0, .any⟩]⟩,
  ⟨"rec_resets", 0x33038, [(64, 128)], false, [⟨"", 31, 0, .rc, rv 0, .any⟩]⟩,
  ⟨"rec_lat_cnt", 0x3303C, [(64, 128)], false, [⟨"", 31, 0, .rc, rv 0, .any⟩]⟩,
  ⟨"lat_summary", 0x32400, [(4, 4)], false, [⟨"", 31, 0, .ro, rv 0, .any⟩]⟩,
  ⟨"rec_off_cnt", 0x32410, [], false, [⟨"", 31, 0, .rc, rv 0, .any⟩]⟩]

/-- Owner BAR0 registers of spec/11_host_functions_and_tenants.md. -/
def ownerRegs11 : List RegDef := [
  ⟨"hif_stat", 0x50000, [], false, [⟨"ready", 0, 0, .ro, rv 0, .any⟩, ⟨"fw_late", 1, 1, .ro, rv 0, .any⟩, ⟨"sriov_err", 2, 2, .w1c, rv 0, .any⟩]⟩,
  ⟨"hif_link", 0x50004, [], false, [⟨"speed", 2, 0, .ro, rv 0, .any⟩, ⟨"width", 6, 4, .ro, rv 0, .any⟩, ⟨"unit", 9, 8, .ro, rv 0, .any⟩]⟩,
  ⟨"hif_flr", 0x50008, [], false, [⟨"", 16, 0, .w1s, rv 0, .any⟩]⟩,
  ⟨"hif_flr_stat", 0x5000C, [], false, [⟨"", 16, 0, .ro, rv 0, .any⟩]⟩,
  ⟨"hif_quiesced", 0x50010, [], false, [⟨"", 16, 0, .ro, rv 0, .any⟩]⟩,
  ⟨"quota", 0x51000, [(32, 16)], true, [⟨"tx_rings", 2, 0, .rw, rv 0, .range 0 4⟩, ⟨"rx_rings", 6, 4, .rw, rv 0, .range 0 4⟩, ⟨"ring_log2_max", 11, 8, .rw, rv 6, .range 6 14⟩, ⟨"fetch_max", 22, 16, .rw, rv 1, .range 1 64⟩, ⟨"el_permit", 24, 24, .rw, rv 0, .any⟩, ⟨"mbx_en", 25, 25, .rw, rv 0, .any⟩]⟩,
  ⟨"ten_viol_o", 0x51004, [(32, 16)], false, [⟨"", 31, 0, .ro, rv 0, .any⟩]⟩,
  ⟨"cto_cnt", 0x51008, [(32, 16)], false, [⟨"", 31, 0, .rc, rv 0, .any⟩]⟩,
  ⟨"cpl_err_cnt", 0x5100C, [(32, 16)], false, [⟨"", 31, 0, .rc, rv 0, .any⟩]⟩,
  ⟨"owner_cto_cnt", 0x51200, [], false, [⟨"", 31, 0, .rc, rv 0, .any⟩]⟩,
  ⟨"owner_cpl_err_cnt", 0x51204, [], false, [⟨"", 31, 0, .rc, rv 0, .any⟩]⟩,
  ⟨"msix_addr_lo", 0xB0000, [(16, 16)], false, [⟨"", 31, 0, .rw, rv 0, .any⟩]⟩,
  ⟨"msix_addr_hi", 0xB0004, [(16, 16)], false, [⟨"", 31, 0, .rw, rv 0, .any⟩]⟩,
  ⟨"msix_data", 0xB0008, [(16, 16)], false, [⟨"", 31, 0, .rw, rv 0, .any⟩]⟩,
  ⟨"msix_ctrl", 0xB000C, [(16, 16)], false, [⟨"mask", 0, 0, .rw, rv 1, .any⟩]⟩,
  ⟨"msix_pba_lo", 0xB1000, [], false, [⟨"", 31, 0, .ro, rv 0, .any⟩]⟩,
  ⟨"msix_pba_hi", 0xB1004, [], false, [⟨"", 31, 0, .ro, rv 0, .any⟩]⟩]

/-- Tenant BAR0 registers of spec/11_host_functions_and_tenants.md. -/
def tenantRegs11 : List RegDef := [
  ⟨"ten_id", 0, [], false, [⟨"fn", 4, 0, .ro, fun l => l.getD 0 0, .any⟩, ⟨"part", 31, 16, .ro, rv 0x6416, .any⟩]⟩,
  ⟨"ten_stat", 4, [], false, [⟨"quota_hit", 0, 0, .w1c, rv 0, .any⟩, ⟨"quota_reset", 1, 1, .w1c, rv 0, .any⟩, ⟨"host_stall", 2, 2, .ro, rv 0, .any⟩]⟩,
  ⟨"cfg_reject", 8, [], false, [⟨"", 0, 0, .w1c, rv 0, .any⟩]⟩,
  ⟨"cfg_reject_addr", 12, [], false, [⟨"", 15, 0, .ro, rv 0, .any⟩]⟩,
  ⟨"ten_viol", 16, [], false, [⟨"", 31, 0, .rc, rv 0, .any⟩]⟩,
  ⟨"quota", 20, [], false, [⟨"", 25, 0, .ro, rv 0x10600, .any⟩]⟩,
  ⟨"msix_addr_lo", 0xE000, [(16, 16)], false, [⟨"", 31, 0, .rw, rv 0, .any⟩]⟩,
  ⟨"msix_addr_hi", 0xE004, [(16, 16)], false, [⟨"", 31, 0, .rw, rv 0, .any⟩]⟩,
  ⟨"msix_data", 0xE008, [(16, 16)], false, [⟨"", 31, 0, .rw, rv 0, .any⟩]⟩,
  ⟨"msix_ctrl", 0xE00C, [(16, 16)], false, [⟨"mask", 0, 0, .rw, rv 1, .any⟩]⟩,
  ⟨"msix_pba_lo", 0xF000, [], false, [⟨"", 31, 0, .ro, rv 0, .any⟩]⟩,
  ⟨"msix_pba_hi", 0xF004, [], false, [⟨"", 31, 0, .ro, rv 0, .any⟩]⟩]

/-- Owner BAR0 registers of spec/12_descriptor_rings.md. -/
def ownerRegs12 : List RegDef := [
  ⟨"ring_base_lo", 0x52000, [(64, 11)], false, [⟨"", 31, 0, .rw, rv 0, .aligned 4096⟩]⟩,
  ⟨"ring_base_hi", 0x52004, [(64, 11)], false, [⟨"", 31, 0, .rw, rv 0, .any⟩]⟩,
  ⟨"ring_cfg", 0x52008, [(64, 11)], false, [⟨"en", 0, 0, .rw, rv 0, .any⟩, ⟨"log2_size", 7, 4, .rw, rv 6, .range 6 14⟩, ⟨"ts_en", 8, 8, .rw, rv 0, .any⟩, ⟨"buf_size", 29, 16, .rw, rv 0, .any⟩]⟩,
  ⟨"ring_ctrl", 0x5200C, [(64, 11)], false, [⟨"reset", 0, 0, .w1s, rv 0, .any⟩]⟩,
  ⟨"doorbell", 0x52010, [(64, 11)], false, [⟨"", 15, 0, .rw, rv 0, .any⟩]⟩,
  ⟨"head", 0x52014, [(64, 11)], false, [⟨"", 15, 0, .ro, rv 0, .any⟩]⟩,
  ⟨"cpl", 0x52018, [(64, 11)], false, [⟨"", 15, 0, .ro, rv 0, .any⟩]⟩,
  ⟨"ring_stat", 0x5201C, [(64, 11)], false, [⟨"active", 0, 0, .ro, rv 0, .any⟩, ⟨"resetting", 1, 1, .ro, rv 0, .any⟩, ⟨"last_reason", 7, 4, .ro, rv 0, .any⟩, ⟨"go_ignored", 8, 8, .w1c, rv 0, .any⟩]⟩,
  ⟨"ring_cnt0", 0x52020, [(64, 11)], false, [⟨"", 31, 0, .rc, rv 0, .any⟩]⟩,
  ⟨"ring_cnt1", 0x52024, [(64, 11)], false, [⟨"", 31, 0, .rc, rv 0, .any⟩]⟩,
  ⟨"ring_cnt2", 0x52028, [(64, 11)], false, [⟨"", 31, 0, .rc, rv 0, .any⟩]⟩,
  ⟨"ring_cnt3", 0x5202C, [(64, 11)], false, [⟨"", 31, 0, .rc, rv 0, .any⟩]⟩,
  ⟨"wb_coalesce", 0x50050, [], false, [⟨"", 13, 0, .rw, rv 2000, .range 0 10000⟩]⟩]

/-- Tenant BAR0 registers of spec/12_descriptor_rings.md. -/
def tenantRegs12 : List RegDef := [
  ⟨"ring_base_lo", 0x1000, [(64, 10)], false, [⟨"", 31, 0, .rw, rv 0, .aligned 4096⟩]⟩,
  ⟨"ring_base_hi", 0x1004, [(64, 10)], false, [⟨"", 31, 0, .rw, rv 0, .any⟩]⟩,
  ⟨"ring_cfg", 0x1008, [(64, 10)], false, [⟨"en", 0, 0, .rw, rv 0, .any⟩, ⟨"log2_size", 7, 4, .rw, rv 6, .range 6 14⟩, ⟨"ts_en", 8, 8, .rw, rv 0, .any⟩, ⟨"buf_size", 29, 16, .rw, rv 0, .any⟩]⟩,
  ⟨"ring_ctrl", 0x100C, [(64, 10)], false, [⟨"reset", 0, 0, .w1s, rv 0, .any⟩]⟩,
  ⟨"doorbell", 0x1010, [(64, 10)], false, [⟨"", 15, 0, .rw, rv 0, .any⟩]⟩,
  ⟨"head", 0x1014, [(64, 10)], false, [⟨"", 15, 0, .ro, rv 0, .any⟩]⟩,
  ⟨"cpl", 0x1018, [(64, 10)], false, [⟨"", 15, 0, .ro, rv 0, .any⟩]⟩,
  ⟨"ring_stat", 0x101C, [(64, 10)], false, [⟨"active", 0, 0, .ro, rv 0, .any⟩, ⟨"resetting", 1, 1, .ro, rv 0, .any⟩, ⟨"last_reason", 7, 4, .ro, rv 0, .any⟩, ⟨"go_ignored", 8, 8, .w1c, rv 0, .any⟩]⟩,
  ⟨"ring_cnt0", 0x1020, [(64, 10)], false, [⟨"", 31, 0, .rc, rv 0, .any⟩]⟩,
  ⟨"ring_cnt1", 0x1024, [(64, 10)], false, [⟨"", 31, 0, .rc, rv 0, .any⟩]⟩,
  ⟨"ring_cnt2", 0x1028, [(64, 10)], false, [⟨"", 31, 0, .rc, rv 0, .any⟩]⟩,
  ⟨"ring_cnt3", 0x102C, [(64, 10)], false, [⟨"", 31, 0, .rc, rv 0, .any⟩]⟩]

/-- Tenant BAR0 registers of spec/13_early_look.md. -/
def tenantRegs13 : List RegDef := [
  ⟨"el_flow_sel", 0x7000, [], false, [⟨"", 11, 0, .rw, rv 0, .any⟩]⟩,
  ⟨"el_flow", 0x7004, [], false, [⟨"el_en", 0, 0, .rw, rv 0, .any⟩]⟩,
  ⟨"el_stat", 0x7008, [], false, [⟨"outstanding", 6, 0, .ro, rv 0, .any⟩, ⟨"permit", 8, 8, .ro, rv 0, .any⟩]⟩,
  ⟨"el_next_id", 0x700C, [], false, [⟨"", 15, 0, .ro, rv 0, .any⟩]⟩,
  ⟨"el_confirm", 0x7010, [], false, [⟨"", 31, 0, .rc, rv 0, .any⟩]⟩,
  ⟨"el_retract", 0x7014, [], false, [⟨"", 31, 0, .rc, rv 0, .any⟩]⟩,
  ⟨"el_skip_limit", 0x7018, [], false, [⟨"", 31, 0, .rc, rv 0, .any⟩]⟩,
  ⟨"el_skip_room", 0x701C, [], false, [⟨"", 31, 0, .rc, rv 0, .any⟩]⟩,
  ⟨"el_late", 0x7020, [], false, [⟨"", 31, 0, .rc, rv 0, .any⟩]⟩]

/-- Owner BAR0 registers of spec/14_network_time.md. -/
def ownerRegs14a : List RegDef := [
  ⟨"td_cfg", 0x60200, [(128, 2)], false, [⟨"policy", 0, 0, .rw, fun l => if l.getD 0 0 = 0 then 1 else 0, .any⟩]⟩,
  ⟨"guard_limit", 0x60204, [(128, 2)], false, [⟨"", 23, 0, .rw, rv 1000, .atLeast 1⟩]⟩,
  ⟨"sync_timeout", 0x60208, [(128, 2)], false, [⟨"", 23, 0, .rw, rv 0x1770, .atLeast 1⟩]⟩,
  ⟨"hold_max", 0x6020C, [(128, 2)], false, [⟨"", 23, 0, .rw, rv 0xEA600, .any⟩]⟩,
  ⟨"slew_ppb", 0x60210, [(128, 2)], false, [⟨"", 18, 0, .rw, rv 0x186A0, .range 1 500000⟩]⟩,
  ⟨"td_ns", 0x60214, [(128, 2)], false, [⟨"", 29, 0, .ro, rv 0, .any⟩]⟩,
  ⟨"td_sec_lo", 0x60218, [(128, 2)], false, [⟨"", 31, 0, .ro, rv 0, .any⟩]⟩,
  ⟨"td_sec_hi", 0x6021C, [(128, 2)], false, [⟨"", 15, 0, .ro, rv 0, .any⟩]⟩,
  ⟨"td_frac", 0x60220, [(128, 2)], false, [⟨"", 7, 0, .ro, rv 0, .any⟩]⟩,
  ⟨"td_rate_lo", 0x60224, [(128, 2)], false, [⟨"", 31, 0, .rw, rv 0, .any⟩]⟩,
  ⟨"td_rate_hi", 0x60228, [(128, 2)], false, [⟨"", 7, 0, .rw, rv 0, .any⟩]⟩,
  ⟨"hold_rate_lo", 0x6022C, [(128, 2)], false, [⟨"", 31, 0, .ro, rv 0, .any⟩]⟩,
  ⟨"hold_rate_hi", 0x60230, [(128, 2)], false, [⟨"", 7, 0, .ro, rv 0, .any⟩]⟩,
  ⟨"td_adj", 0x60234, [(128, 2)], false, [⟨"", 31, 0, .wo, rv 0, .any⟩]⟩,
  ⟨"td_adj_ctrl", 0x60238, [(128, 2)], false, [⟨"mode", 0, 0, .rw, rv 0, .any⟩, ⟨"force", 1, 1, .rw, rv 0, .any⟩]⟩,
  ⟨"td_set_ns", 0x6023C, [(128, 2)], false, [⟨"", 29, 0, .rw, rv 0, .range 0 999999999⟩]⟩,
  ⟨"td_set_sec_lo", 0x60240, [(128, 2)], false, [⟨"", 31, 0, .rw, rv 0, .any⟩]⟩,
  ⟨"td_set_sec_hi", 0x60244, [(128, 2)], false, [⟨"", 15, 0, .rw, rv 0, .any⟩]⟩,
  ⟨"td_ctrl", 0x60248, [(128, 2)], false, [⟨"set_go", 0, 0, .w1s, rv 0, .any⟩, ⟨"set_force", 1, 1, .rw, rv 0, .any⟩, ⟨"set_valid", 4, 4, .wo, rv 0, .any⟩, ⟨"clr_valid", 5, 5, .wo, rv 0, .any⟩]⟩,
  ⟨"dom_stat", 0x6024C, [(128, 2)], false, [⟨"state", 1, 0, .ro, rv 0, .any⟩, ⟨"valid", 2, 2, .ro, rv 0, .any⟩, ⟨"rate_untrained", 3, 3, .ro, rv 1, .any⟩, ⟨"guard_hit", 4, 4, .w1c, rv 0, .any⟩, ⟨"valid_refused", 5, 5, .w1c, rv 0, .any⟩, ⟨"slewing", 6, 6, .ro, rv 0, .any⟩, ⟨"sync_cnt", 12, 8, .ro, rv 0, .any⟩]⟩,
  ⟨"adj_remain", 0x60250, [(128, 2)], false, [⟨"", 31, 0, .ro, rv 0, .any⟩]⟩,
  ⟨"guard_cnt", 0x60254, [(128, 2)], false, [⟨"", 31, 0, .rc, rv 0, .any⟩]⟩,
  ⟨"guard_last", 0x60258, [(128, 2)], false, [⟨"", 31, 0, .ro, rv 0, .any⟩]⟩,
  ⟨"holdover_cnt", 0x6025C, [(128, 2)], false, [⟨"", 31, 0, .rc, rv 0, .any⟩]⟩]

/-- Owner BAR0 registers of spec/14_network_time.md. -/
def ownerRegs14b : List RegDef := [
  ⟨"tu_stat", 0x60000, [], false, [⟨"tu_reset", 0, 0, .ro, rv 0, .any⟩]⟩,
  ⟨"tu_snap", 0x60300, [], false, [⟨"", 0, 0, .wo, rv 0, .any⟩]⟩,
  ⟨"snap", 0x60304, [(4, 8)], false, [⟨"", 31, 0, .ro, rv 0, .any⟩]⟩,
  ⟨"utc_cfg", 0x60340, [], false, [⟨"offset", 15, 0, .rw, rv 0, .any⟩, ⟨"leap61", 16, 16, .rwh, rv 0, .any⟩, ⟨"leap59", 17, 17, .rwh, rv 0, .any⟩]⟩,
  ⟨"utc_leap_day", 0x60344, [], false, [⟨"", 17, 0, .rw, rv 0, .range 0 146096⟩]⟩,
  ⟨"cal_ctrl", 0x60360, [], false, [⟨"go", 0, 0, .w1s, rv 0, .any⟩, ⟨"op", 2, 1, .rw, rv 0, .any⟩, ⟨"dom", 3, 3, .rw, rv 0, .any⟩]⟩,
  ⟨"cal_sec_lo", 0x60364, [], false, [⟨"", 31, 0, .rw, rv 0, .any⟩]⟩,
  ⟨"cal_sec_hi", 0x60368, [], false, [⟨"", 15, 0, .rw, rv 0, .any⟩]⟩,
  ⟨"cal_date0", 0x6036C, [], false, [⟨"", 31, 0, .rw, rv 0, .any⟩]⟩,
  ⟨"cal_date1", 0x60370, [], false, [⟨"", 31, 0, .rw, rv 0, .any⟩]⟩,
  ⟨"cal_stat", 0x60374, [], false, [⟨"done", 0, 0, .w1c, rv 0, .any⟩, ⟨"date_reject", 1, 1, .w1c, rv 0, .any⟩, ⟨"range", 2, 2, .w1c, rv 0, .any⟩, ⟨"go_ignored", 3, 3, .w1c, rv 0, .any⟩]⟩,
  ⟨"tsq_cfg", 0x60400, [(64, 6)], false, [⟨"en", 0, 0, .rw, rv 0, .any⟩]⟩,
  ⟨"tsq_count", 0x60404, [(64, 6)], false, [⟨"", 5, 0, .ro, rv 0, .any⟩]⟩,
  ⟨"tsq_ovf", 0x60408, [(64, 6)], false, [⟨"", 31, 0, .rc, rv 0, .any⟩]⟩,
  ⟨"tsq_w", 0x60410, [(64, 6), (4, 8)], false, [⟨"", 31, 0, .ro, rv 0, .any⟩]⟩,
  ⟨"tout_cfg", 0x60600, [(32, 8)], false, [⟨"mode", 2, 0, .rw, rv 0, .range 0 4⟩, ⟨"dom", 3, 3, .rw, rv 0, .any⟩, ⟨"pol", 4, 4, .rw, rv 0, .any⟩, ⟨"req_valid", 5, 5, .rw, rv 0, .any⟩, ⟨"level", 6, 6, .rw, rv 0, .any⟩]⟩,
  ⟨"tout_start_lo", 0x60604, [(32, 8)], false, [⟨"", 31, 0, .rw, rv 0, .any⟩]⟩,
  ⟨"tout_start_hi", 0x60608, [(32, 8)], false, [⟨"", 7, 0, .rw, rv 0, .any⟩]⟩,
  ⟨"tout_period", 0x6060C, [(32, 8)], false, [⟨"", 31, 0, .rw, rv 0, .any⟩]⟩,
  ⟨"tout_width", 0x60610, [(32, 8)], false, [⟨"", 23, 0, .rw, rv 1000, .atLeast 8⟩]⟩,
  ⟨"tout_comp", 0x60614, [(32, 8)], false, [⟨"", 15, 0, .rw, rv 0, .any⟩]⟩,
  ⟨"tout_ctrl", 0x60618, [(32, 8)], false, [⟨"arm", 0, 0, .w1s, rv 0, .any⟩, ⟨"disarm", 1, 1, .w1s, rv 0, .any⟩, ⟨"armed", 8, 8, .ro, rv 0, .any⟩, ⟨"miss", 9, 9, .w1c, rv 0, .any⟩, ⟨"stepped", 10, 10, .w1c, rv 0, .any⟩, ⟨"arm_refused", 11, 11, .w1c, rv 0, .any⟩]⟩,
  ⟨"tout_skip", 0x6061C, [(32, 8)], false, [⟨"", 15, 0, .rc, rv 0, .any⟩, ⟨"miss_cnt", 31, 16, .rc, rv 0, .any⟩]⟩,
  ⟨"tcap_cfg", 0x60700, [(64, 4)], false, [⟨"edge", 1, 0, .rw, rv 0, .any⟩, ⟨"filter", 7, 4, .rw, rv 0, .any⟩, ⟨"comp", 31, 16, .rw, rv 0, .any⟩]⟩]

/-- Owner BAR0 registers of spec/14_network_time.md. -/
def ownerRegs14c : List RegDef := [
  ⟨"tcap_count", 0x60704, [(64, 4)], false, [⟨"", 3, 0, .ro, rv 0, .any⟩]⟩,
  ⟨"tcap_lost", 0x60708, [(64, 4)], false, [⟨"", 31, 0, .rc, rv 0, .any⟩]⟩,
  ⟨"tcap_w", 0x60710, [(64, 4), (4, 8)], false, [⟨"", 31, 0, .ro, rv 0, .any⟩]⟩]

/-- Tenant BAR0 registers of spec/14_network_time.md. -/
def tenantRegs14 : List RegDef := [
  ⟨"td_ns", 0xA000, [(16, 2)], false, [⟨"", 29, 0, .ro, rv 0, .any⟩]⟩,
  ⟨"td_sec_lo", 0xA004, [(16, 2)], false, [⟨"", 31, 0, .ro, rv 0, .any⟩]⟩,
  ⟨"td_sec_hi", 0xA008, [(16, 2)], false, [⟨"", 15, 0, .ro, rv 0, .any⟩]⟩,
  ⟨"td_frac", 0xA00C, [(16, 2)], false, [⟨"", 7, 0, .ro, rv 0, .any⟩]⟩,
  ⟨"dom_stat", 0xA020, [(4, 2)], false, [⟨"", 3, 0, .ro, rv 0, .any⟩]⟩,
  ⟨"utc_cfg", 0xA028, [], false, [⟨"", 17, 0, .ro, rv 0, .any⟩]⟩,
  ⟨"utc_leap_day", 0xA02C, [], false, [⟨"", 17, 0, .ro, rv 0, .range 0 146096⟩]⟩]

/-- Owner BAR0 registers of spec/15_digest_and_check_units.md. -/
def ownerRegs15a : List RegDef := [
  ⟨"dge_stat", 0x70000, [], false, [⟨"cleared", 0, 0, .w1c, rv 0, .any⟩, ⟨"clearing", 1, 1, .ro, rv 0, .any⟩]⟩,
  ⟨"dge_ctrl", 0x70004, [], false, [⟨"clear", 0, 0, .wo, rv 0, .any⟩]⟩,
  ⟨"dge_clear_cause", 0x70008, [], false, [⟨"", 3, 0, .ro, rv 0, .any⟩]⟩,
  ⟨"dge_clear_cnt", 0x7000C, [], false, [⟨"", 31, 0, .rc, rv 0, .any⟩]⟩,
  ⟨"dge_key_fault", 0x70010, [], false, [⟨"", 31, 0, .rc, rv 0, .any⟩]⟩,
  ⟨"dge_data_err", 0x70014, [], false, [⟨"", 31, 0, .rc, rv 0, .any⟩]⟩,
  ⟨"dge_ecc_corr", 0x70018, [], false, [⟨"", 31, 0, .rwh, rv 0, .any⟩]⟩,
  ⟨"dge_units_last", 0x7001C, [], false, [⟨"", 27, 0, .ro, rv 0, .any⟩]⟩,
  ⟨"key_part", 0x70040, [(4, 16)], true, [⟨"base", 5, 0, .rw, rv 0, .any⟩, ⟨"count", 22, 16, .rw, rv 0, .range 0 64⟩]⟩,
  ⟨"key_sel", 0x70100, [], false, [⟨"", 5, 0, .rw, rv 0, .any⟩]⟩,
  ⟨"key_attr", 0x70104, [], false, [⟨"alg", 2, 0, .rw, rv 1, .range 0 4⟩, ⟨"con", 4, 4, .rw, rv 0, .any⟩, ⟨"clear", 5, 5, .rw, rv 0, .any⟩, ⟨"len", 15, 8, .rw, rv 32, .range 1 128⟩]⟩,
  ⟨"key_ctrl", 0x70108, [], false, [⟨"go", 0, 0, .w1s, rv 0, .any⟩]⟩,
  ⟨"key_stat", 0x7010C, [], false, [⟨"valid", 0, 0, .ro, rv 0, .any⟩, ⟨"alg", 3, 1, .ro, rv 0, .any⟩, ⟨"staged", 4, 4, .ro, rv 0, .any⟩, ⟨"retiring", 5, 5, .ro, rv 0, .any⟩, ⟨"go_ignored", 6, 6, .w1c, rv 0, .any⟩, ⟨"con", 7, 7, .ro, rv 0, .any⟩]⟩,
  ⟨"key_kcv", 0x70110, [], false, [⟨"", 31, 0, .ro, rv 0, .any⟩]⟩,
  ⟨"key_kcv_stg", 0x70114, [], false, [⟨"", 31, 0, .ro, rv 0, .any⟩]⟩,
  ⟨"key_data", 0x70140, [(4, 32)], false, [⟨"", 31, 0, .wo, rv 0, .any⟩]⟩,
  ⟨"sys_ctrl", 0x70200, [], false, [⟨"open", 0, 0, .w1s, rv 0, .any⟩, ⟨"final", 1, 1, .w1s, rv 0, .any⟩, ⟨"abort", 2, 2, .w1s, rv 0, .any⟩, ⟨"alg", 6, 4, .rw, rv 1, .range 0 4⟩, ⟨"hmac", 7, 7, .rw, rv 0, .any⟩, ⟨"key", 13, 8, .rw, rv 0, .any⟩]⟩,
  ⟨"sys_stat", 0x70204, [], false, [⟨"state", 2, 0, .ro, rv 0, .any⟩, ⟨"holder", 5, 4, .ro, rv 0, .any⟩, ⟨"reason", 11, 8, .ro, rv 0, .any⟩, ⟨"in_free", 23, 16, .ro, rv 128, .any⟩, ⟨"busy_refused", 24, 24, .w1c, rv 0, .any⟩, ⟨"open_refused", 25, 25, .w1c, rv 0, .any⟩]⟩,
  ⟨"sys_data_lo", 0x70208, [], false, [⟨"", 31, 0, .wo, rv 0, .any⟩]⟩,
  ⟨"sys_data_hi", 0x7020C, [], false, [⟨"", 31, 0, .wo, rv 0, .any⟩]⟩,
  ⟨"sys_tail", 0x70210, [], false, [⟨"", 2, 0, .wo, rv 0, .atLeast 1⟩]⟩,
  ⟨"sys_bytes_lo", 0x70214, [], false, [⟨"", 31, 0, .ro, rv 0, .any⟩]⟩,
  ⟨"sys_bytes_hi", 0x70218, [], false, [⟨"", 15, 0, .ro, rv 0, .any⟩]⟩,
  ⟨"digest", 0x70240, [(4, 16)], false, [⟨"", 31, 0, .ro, rv 0, .any⟩]⟩]

/-- Owner BAR0 registers of spec/15_digest_and_check_units.md. -/
def ownerRegs15b : List RegDef := [
  ⟨"ctx_stat", 0x70300, [(4, 17)], false, [⟨"", 11, 0, .ro, rv 0, .any⟩]⟩,
  ⟨"cru_cfg", 0x78000, [(1024, 4)], true, [⟨"width", 6, 0, .rw, rv 32, .range 8 64⟩, ⟨"refin", 8, 8, .rw, rv 1, .any⟩, ⟨"refout", 9, 9, .rw, rv 1, .any⟩]⟩,
  ⟨"poly_lo", 0x78008, [(1024, 4)], true, [⟨"", 31, 0, .rw, rv 0x4C11DB7, .any⟩]⟩,
  ⟨"poly_hi", 0x7800C, [(1024, 4)], true, [⟨"", 31, 0, .rw, rv 0, .any⟩]⟩,
  ⟨"init_lo", 0x78010, [(1024, 4)], true, [⟨"", 31, 0, .rw, rv 0xFFFFFFFF, .any⟩]⟩,
  ⟨"init_hi", 0x78014, [(1024, 4)], true, [⟨"", 31, 0, .rw, rv 0, .any⟩]⟩,
  ⟨"xorout_lo", 0x78018, [(1024, 4)], true, [⟨"", 31, 0, .rw, rv 0xFFFFFFFF, .any⟩]⟩,
  ⟨"xorout_hi", 0x7801C, [(1024, 4)], true, [⟨"", 31, 0, .rw, rv 0, .any⟩]⟩,
  ⟨"cru_stat", 0x78020, [(1024, 4)], false, [⟨"retiring", 0, 0, .ro, rv 0, .any⟩]⟩,
  ⟨"cru_fault_cnt", 0x78024, [(1024, 4)], false, [⟨"", 31, 0, .rc, rv 0, .any⟩]⟩,
  ⟨"cru_blocks_last", 0x78028, [(1024, 4)], false, [⟨"", 31, 0, .ro, rv 0, .any⟩]⟩,
  ⟨"jctrl", 0x78120, [(1024, 4), (256, 2)], false, [⟨"open", 0, 0, .w1s, rv 0, .any⟩, ⟨"final", 1, 1, .w1s, rv 0, .any⟩, ⟨"abort", 2, 2, .w1s, rv 0, .any⟩, ⟨"fold_len", 11, 8, .rw, rv 0, .range 0 8⟩]⟩,
  ⟨"jfold_lo", 0x78124, [(1024, 4), (256, 2)], false, [⟨"", 31, 0, .rw, rv 0, .any⟩]⟩,
  ⟨"jfold_hi", 0x78128, [(1024, 4), (256, 2)], false, [⟨"", 31, 0, .rw, rv 0, .any⟩]⟩,
  ⟨"jdata_lo", 0x7812C, [(1024, 4), (256, 2)], false, [⟨"", 31, 0, .wo, rv 0, .any⟩]⟩,
  ⟨"jdata_hi", 0x78130, [(1024, 4), (256, 2)], false, [⟨"", 31, 0, .wo, rv 0, .any⟩]⟩,
  ⟨"jtail", 0x78134, [(1024, 4), (256, 2)], false, [⟨"", 2, 0, .wo, rv 0, .atLeast 1⟩]⟩,
  ⟨"jstat", 0x78138, [(1024, 4), (256, 2)], false, [⟨"state", 2, 0, .ro, rv 0, .any⟩, ⟨"reason", 11, 8, .ro, rv 0, .any⟩, ⟨"in_free", 22, 16, .ro, rv 0, .any⟩, ⟨"param_err", 24, 24, .w1c, rv 0, .any⟩, ⟨"open_refused", 25, 25, .w1c, rv 0, .any⟩]⟩,
  ⟨"jres_lo", 0x7813C, [(1024, 4), (256, 2)], false, [⟨"", 31, 0, .ro, rv 0, .any⟩]⟩,
  ⟨"jres_hi", 0x78140, [(1024, 4), (256, 2)], false, [⟨"", 31, 0, .ro, rv 0, .any⟩]⟩,
  ⟨"jpar_cfg", 0x78100, [(1024, 4), (256, 2)], false, [⟨"width", 6, 0, .rw, rv 32, .range 8 64⟩, ⟨"refin", 8, 8, .rw, rv 1, .any⟩, ⟨"refout", 9, 9, .rw, rv 1, .any⟩]⟩,
  ⟨"jpoly_lo", 0x78108, [(1024, 4), (256, 2)], false, [⟨"", 31, 0, .rw, rv 0x4C11DB7, .any⟩]⟩,
  ⟨"jpoly_hi", 0x7810C, [(1024, 4), (256, 2)], false, [⟨"", 31, 0, .rw, rv 0, .any⟩]⟩,
  ⟨"jinit_lo", 0x78110, [(1024, 4), (256, 2)], false, [⟨"", 31, 0, .rw, rv 0xFFFFFFFF, .any⟩]⟩]

/-- Owner BAR0 registers of spec/15_digest_and_check_units.md. -/
def ownerRegs15c : List RegDef := [
  ⟨"jinit_hi", 0x78114, [(1024, 4), (256, 2)], false, [⟨"", 31, 0, .rw, rv 0, .any⟩]⟩,
  ⟨"jxorout_lo", 0x78118, [(1024, 4), (256, 2)], false, [⟨"", 31, 0, .rw, rv 0xFFFFFFFF, .any⟩]⟩,
  ⟨"jxorout_hi", 0x7811C, [(1024, 4), (256, 2)], false, [⟨"", 31, 0, .rw, rv 0, .any⟩]⟩]

/-- Owner BAR0 registers of spec/16_interrupts_and_event_fifos.md. -/
def ownerRegs16a : List RegDef := [
  ⟨"irc_stat", 0x80000, [], false, [⟨"irc_reset", 0, 0, .ro, rv 0, .any⟩]⟩,
  ⟨"sys_msg_max", 0x80004, [], true, [⟨"", 7, 0, .rw, rv 16, .atLeast 1⟩]⟩,
  ⟨"msg_cnt", 0x80008, [], false, [⟨"", 31, 0, .rc, rv 0, .any⟩]⟩,
  ⟨"held_cnt", 0x8000C, [], false, [⟨"", 31, 0, .rc, rv 0, .any⟩]⟩,
  ⟨"bypass_cnt", 0x80010, [], false, [⟨"", 31, 0, .rc, rv 0, .any⟩]⟩,
  ⟨"dlsend_cnt", 0x80014, [], false, [⟨"", 31, 0, .rc, rv 0, .any⟩]⟩,
  ⟨"fn_mask", 0x80040, [], false, [⟨"", 16, 0, .rw, rv 0, .any⟩]⟩,
  ⟨"level", 0x80100, [(4, 12)], false, [⟨"", 31, 0, .ro, rv 0, .any⟩]⟩,
  ⟨"pend", 0x80140, [(4, 12)], false, [⟨"", 31, 0, .rw, rv 0, .any⟩]⟩,
  ⟨"mask", 0x80180, [(4, 12)], false, [⟨"", 31, 0, .rw, rv 0xFFFFFFFF, .any⟩]⟩,
  ⟨"insvc", 0x801C0, [(4, 12)], false, [⟨"", 31, 0, .ro, rv 0, .any⟩]⟩,
  ⟨"eoi", 0x80200, [(4, 12)], false, [⟨"", 31, 0, .wo, rv 0, .any⟩]⟩,
  ⟨"sw_level", 0x80240, [(4, 4)], false, [⟨"", 31, 0, .rw, rv 0, .any⟩]⟩,
  ⟨"slot_state", 0x80300, [(4, 16)], false, [⟨"prio", 3, 0, .rw, rv 0, .any⟩, ⟨"idle", 8, 8, .rw, rv 0, .any⟩, ⟨"offline", 9, 9, .rw, rv 0, .any⟩]⟩,
  ⟨"route", 0x80400, [(8, 384)], true, [⟨"policy", 1, 0, .rw, rv 0, .range 0 2⟩, ⟨"slot", 7, 4, .rw, rv 0, .any⟩, ⟨"sprio", 11, 8, .rw, rv 0, .any⟩, ⟨"intn", 12, 12, .rw, rv 0, .any⟩, ⟨"mod", 25, 16, .rw, rv 0, .oneOfRanges [(0, 0), (4, 1000)]⟩]⟩,
  ⟨"set", 0x80404, [(8, 384)], true, [⟨"", 15, 0, .rw, rv 0, .any⟩]⟩,
  ⟨"vec", 0x81000, [(4, 384)], false, [⟨"", 31, 0, .rw, rv 0, .any⟩]⟩,
  ⟨"cnt", 0x81800, [(4, 384)], false, [⟨"", 7, 0, .rc, rv 0, .any⟩]⟩,
  ⟨"evlog_lo", 0x82000, [], false, [⟨"", 31, 0, .ro, rv 0, .any⟩]⟩,
  ⟨"evlog_hi", 0x82004, [], false, [⟨"", 31, 0, .ro, rv 0, .any⟩]⟩,
  ⟨"evlog_stat", 0x82008, [], false, [⟨"empty", 0, 0, .ro, rv 1, .any⟩, ⟨"underrun", 1, 1, .w1c, rv 0, .any⟩, ⟨"age", 2, 2, .w1c, rv 0, .any⟩, ⟨"count", 17, 8, .ro, rv 0, .any⟩]⟩,
  ⟨"evlog_wm", 0x8200C, [], false, [⟨"", 9, 0, .rw, rv 1, .range 1 512⟩]⟩,
  ⟨"evlog_age_ticks", 0x82010, [], false, [⟨"", 23, 0, .rw, rv 0x3E80, .any⟩]⟩,
  ⟨"evlog_lost", 0x82014, [], false, [⟨"", 31, 0, .rc, rv 0, .any⟩]⟩]

/-- Owner BAR0 registers of spec/16_interrupts_and_event_fifos.md. -/
def ownerRegs16b : List RegDef := [
  ⟨"tele_cfg", 0x82100, [], false, [⟨"en", 0, 0, .rw, rv 0, .any⟩, ⟨"dest", 2, 1, .rw, rv 0, .any⟩, ⟨"types", 6, 4, .rw, rv 0, .any⟩, ⟨"ports", 13, 8, .rw, rv 0, .any⟩, ⟨"period", 31, 16, .rw, rv 16, .atLeast 1⟩]⟩,
  ⟨"tele_stat", 0x82104, [], false, [⟨"empty", 0, 0, .ro, rv 1, .any⟩, ⟨"age", 1, 1, .w1c, rv 0, .any⟩, ⟨"count", 19, 8, .ro, rv 0, .any⟩]⟩,
  ⟨"tele_wm", 0x82108, [], false, [⟨"", 11, 0, .rw, rv 1, .range 1 2048⟩]⟩,
  ⟨"tele_age_ticks", 0x8210C, [], false, [⟨"", 23, 0, .rw, rv 0x3E80, .any⟩]⟩,
  ⟨"tele_lost", 0x82110, [], false, [⟨"", 31, 0, .rc, rv 0, .any⟩]⟩,
  ⟨"tele_flow_n", 0x82114, [], false, [⟨"", 6, 0, .rw, rv 0, .range 0 64⟩]⟩,
  ⟨"tlr_base_lo", 0x82120, [], false, [⟨"", 31, 0, .rw, rv 0, .aligned 4096⟩]⟩,
  ⟨"tlr_base_hi", 0x82124, [], false, [⟨"", 31, 0, .rw, rv 0, .any⟩]⟩,
  ⟨"tlr_log2", 0x82128, [], false, [⟨"", 3, 0, .rw, rv 6, .range 6 14⟩]⟩,
  ⟨"tlr_head", 0x8212C, [], false, [⟨"", 15, 0, .ro, rv 0, .any⟩]⟩,
  ⟨"tlr_tail", 0x82130, [], false, [⟨"", 15, 0, .rw, rv 0, .any⟩]⟩,
  ⟨"tele_d", 0x82140, [(4, 16)], false, [⟨"", 31, 0, .ro, rv 0, .any⟩]⟩,
  ⟨"tele_flow", 0x82200, [(4, 64)], false, [⟨"", 15, 0, .rw, rv 0, .any⟩]⟩]

/-- Tenant BAR0 registers of spec/16_interrupts_and_event_fifos.md. -/
def tenantRegs16 : List RegDef := [
  ⟨"tlevel", 0x6000, [], false, [⟨"", 10, 0, .ro, rv 0, .any⟩]⟩,
  ⟨"tpend", 0x6004, [], false, [⟨"", 10, 0, .rw, rv 0, .any⟩]⟩,
  ⟨"tmask", 0x6008, [], false, [⟨"", 10, 0, .rw, rv 2047, .any⟩]⟩,
  ⟨"tinsvc", 0x600C, [], false, [⟨"", 10, 0, .ro, rv 0, .any⟩]⟩,
  ⟨"teoi", 0x6010, [], false, [⟨"", 10, 0, .wo, rv 0, .any⟩]⟩,
  ⟨"tvec", 0x6040, [(4, 11)], false, [⟨"", 31, 0, .rw, rv 0, .any⟩]⟩,
  ⟨"tcnt", 0x6080, [(4, 11)], false, [⟨"", 7, 0, .rc, rv 0, .any⟩]⟩]

/-- Owner BAR0 registers of spec/17_molsum_console.md. -/
def ownerRegs17 : List RegDef := [
  ⟨"mbx_stat", 0xA0000, [], false, [⟨"cmd_busy", 0, 0, .ro, rv 0, .any⟩, ⟨"rpl_avail", 1, 1, .ro, rv 0, .any⟩, ⟨"halt", 2, 2, .ro, rv 0, .any⟩, ⟨"go_ignored", 3, 3, .w1c, rv 0, .any⟩, ⟨"strict", 4, 4, .ro, rv 1, .any⟩]⟩,
  ⟨"mbx_cmd_len", 0xA0004, [], false, [⟨"", 7, 0, .rw, rv 0, .range 1 160⟩]⟩,
  ⟨"mbx_cmd_go", 0xA0008, [], false, [⟨"", 0, 0, .w1s, rv 0, .any⟩]⟩,
  ⟨"mbx_rpl_len", 0xA000C, [], false, [⟨"", 7, 0, .ro, rv 0, .any⟩]⟩,
  ⟨"mbx_rpl_pop", 0xA0010, [], false, [⟨"", 0, 0, .wo, rv 0, .any⟩]⟩,
  ⟨"mbx_ev_lost", 0xA0014, [], false, [⟨"", 31, 0, .rc, rv 0, .any⟩]⟩,
  ⟨"mbx_cmd", 0xA0100, [(4, 40)], false, [⟨"", 31, 0, .rw, rv 0, .any⟩]⟩,
  ⟨"mbx_rpl", 0xA0200, [(4, 40)], false, [⟨"", 31, 0, .ro, rv 0, .any⟩]⟩,
  ⟨"con_cfg", 0xA0800, [], false, [⟨"baud", 2, 0, .rw, rv 0, .any⟩, ⟨"uart_mode", 5, 4, .rw, rv 2, .range 0 2⟩]⟩,
  ⟨"con_stat", 0xA0804, [], false, [⟨"strict", 0, 0, .ro, rv 0, .any⟩, ⟨"break", 1, 1, .w1c, rv 0, .any⟩]⟩,
  ⟨"netcon_cfg", 0xA0810, [], true, [⟨"etype", 15, 0, .rw, rv 0x88B5, .etype⟩, ⟨"ports", 21, 16, .rw, rv 0, .any⟩]⟩,
  ⟨"netcon_cfg2", 0xA0814, [], true, [⟨"key", 5, 0, .rw, rv 0, .any⟩, ⟨"q", 18, 16, .rw, rv 7, .any⟩, ⟨"flow", 31, 20, .rw, rv 0, .any⟩]⟩,
  ⟨"netcon_sa_lo", 0xA0818, [], true, [⟨"", 31, 0, .rw, rv 0, .any⟩]⟩,
  ⟨"netcon_sa_hi", 0xA081C, [], true, [⟨"", 15, 0, .rw, rv 0, .any⟩]⟩,
  ⟨"con_framing", 0xA0840, [], false, [⟨"", 31, 0, .rc, rv 0, .any⟩]⟩,
  ⟨"con_overrun", 0xA0844, [], false, [⟨"", 31, 0, .rc, rv 0, .any⟩]⟩,
  ⟨"net_reject", 0xA0848, [], false, [⟨"", 31, 0, .rc, rv 0, .any⟩]⟩,
  ⟨"net_replay", 0xA084C, [], false, [⟨"", 31, 0, .rc, rv 0, .any⟩]⟩,
  ⟨"net_rpl_refused", 0xA0850, [], false, [⟨"", 31, 0, .rc, rv 0, .any⟩]⟩,
  ⟨"ev_lines_lost", 0xA0854, [], false, [⟨"", 31, 0, .rc, rv 0, .any⟩]⟩,
  ⟨"lines_ok", 0xA0858, [], false, [⟨"", 31, 0, .rc, rv 0, .any⟩]⟩,
  ⟨"lines_er", 0xA085C, [], false, [⟨"", 31, 0, .rc, rv 0, .any⟩]⟩,
  ⟨"net_last_seq", 0xA0860, [(4, 6)], false, [⟨"", 16, 0, .ro, rv 0, .any⟩]⟩]

/-- Tenant BAR0 registers of spec/17_molsum_console.md. -/
def tenantRegs17 : List RegDef := [
  ⟨"mbx_stat", 0x8000, [], false, [⟨"cmd_busy", 0, 0, .ro, rv 0, .any⟩, ⟨"rpl_avail", 1, 1, .ro, rv 0, .any⟩, ⟨"halt", 2, 2, .ro, rv 0, .any⟩, ⟨"go_ignored", 3, 3, .w1c, rv 0, .any⟩, ⟨"strict", 4, 4, .ro, rv 1, .any⟩]⟩,
  ⟨"mbx_cmd_len", 0x8004, [], false, [⟨"", 7, 0, .rw, rv 0, .range 1 160⟩]⟩,
  ⟨"mbx_cmd_go", 0x8008, [], false, [⟨"", 0, 0, .w1s, rv 0, .any⟩]⟩,
  ⟨"mbx_rpl_len", 0x800C, [], false, [⟨"", 7, 0, .ro, rv 0, .any⟩]⟩,
  ⟨"mbx_rpl_pop", 0x8010, [], false, [⟨"", 0, 0, .wo, rv 0, .any⟩]⟩,
  ⟨"mbx_ev_lost", 0x8014, [], false, [⟨"", 31, 0, .rc, rv 0, .any⟩]⟩,
  ⟨"mbx_cmd", 0x8100, [(4, 40)], false, [⟨"", 31, 0, .rw, rv 0, .any⟩]⟩,
  ⟨"mbx_rpl", 0x8200, [(4, 40)], false, [⟨"", 31, 0, .ro, rv 0, .any⟩]⟩]

/-- Owner BAR0 registers of spec/18_power_and_wake.md. -/
def ownerRegs18a : List RegDef := [
  ⟨"pm_ctrl", 0x90000, [], false, [⟨"target", 1, 0, .rw, rv 0, .any⟩, ⟨"go", 4, 4, .w1s, rv 0, .any⟩]⟩,
  ⟨"pm_stat", 0x90004, [], false, [⟨"state", 1, 0, .ro, rv 0, .any⟩, ⟨"busy", 4, 4, .ro, rv 0, .any⟩, ⟨"tw_ready", 5, 5, .ro, rv 0, .any⟩, ⟨"drain", 6, 6, .ro, rv 0, .any⟩, ⟨"go_ignored", 7, 7, .w1c, rv 0, .any⟩, ⟨"refuse", 11, 8, .ro, rv 0, .any⟩]⟩,
  ⟨"tw_drain_ticks", 0x90008, [], false, [⟨"", 7, 0, .rw, rv 80, .atLeast 1⟩]⟩,
  ⟨"tw_l2_wait", 0x9000C, [], false, [⟨"", 11, 0, .rw, rv 1000, .atLeast 1⟩]⟩,
  ⟨"tw_cfg", 0x90010, [], false, [⟨"ports", 5, 0, .rw, rv 0, .any⟩, ⟨"rate", 8, 8, .rw, rv 1, .any⟩, ⟨"park_a", 12, 12, .rw, rv 1, .any⟩, ⟨"park_b", 13, 13, .rw, rv 1, .any⟩, ⟨"le_ports", 21, 16, .rw, rv 0, .any⟩]⟩,
  ⟨"le_time", 0x90014, [], false, [⟨"", 15, 0, .rw, rv 100, .atLeast 1⟩]⟩,
  ⟨"tw_night_ticks", 0x90018, [], false, [⟨"", 31, 0, .rw, rv 0, .any⟩]⟩,
  ⟨"temp", 0x90020, [], false, [⟨"", 10, 0, .ro, rv 0, .any⟩]⟩,
  ⟨"therm_stat", 0x90024, [], false, [⟨"derate", 0, 0, .ro, rv 0, .any⟩, ⟨"alarm", 1, 1, .ro, rv 0, .any⟩]⟩,
  ⟨"tj_alarm", 0x90028, [], false, [⟨"", 7, 0, .rw, fun _ => Config.tjAlarmReset, .any⟩]⟩,
  ⟨"phy_pm_addr", 0x90040, [(16, 6)], false, [⟨"reg", 15, 0, .rw, rv 0, .any⟩, ⟨"devad", 20, 16, .rw, rv 0, .any⟩, ⟨"en", 24, 24, .rw, rv 0, .any⟩]⟩,
  ⟨"phy_pm_val", 0x90044, [(16, 6)], false, [⟨"sleep", 15, 0, .rw, rv 0, .any⟩, ⟨"wake", 31, 16, .rw, rv 0, .any⟩]⟩,
  ⟨"phy_pm_stat", 0x90048, [(16, 6)], false, [⟨"slp_fail", 0, 0, .w1c, rv 0, .any⟩, ⟨"wk_fail", 1, 1, .w1c, rv 0, .any⟩]⟩,
  ⟨"pat", 0x91000, [(256, 32), (4, 32)], false, [⟨"", 31, 0, .rw, rv 0, .any⟩]⟩,
  ⟨"pat_mask", 0x91080, [(256, 32), (4, 4)], false, [⟨"", 31, 0, .rw, rv 0, .any⟩]⟩,
  ⟨"pat_ctrl", 0x91090, [(256, 32)], false, [⟨"en", 0, 0, .rw, rv 0, .any⟩, ⟨"ports", 13, 8, .rw, rv 0, .any⟩]⟩,
  ⟨"wk_cfg", 0x94000, [(4, 4)], false, [⟨"edge", 1, 0, .rw, rv 0, .any⟩, ⟨"thr", 5, 4, .rw, rv 0, .any⟩, ⟨"deb", 15, 8, .rw, rv 0, .any⟩]⟩,
  ⟨"wk_level", 0x94010, [], false, [⟨"", 3, 0, .ro, rv 0, .any⟩]⟩,
  ⟨"lw_rec0", 0x94020, [], false, [⟨"", 31, 0, .ro, rv 0, .any⟩]⟩,
  ⟨"lw_rec1", 0x94024, [], false, [⟨"", 31, 0, .ro, rv 0, .any⟩]⟩,
  ⟨"lw_rec2", 0x94028, [], false, [⟨"", 15, 0, .ro, rv 0, .any⟩]⟩,
  ⟨"lw_pend", 0x94030, [], false, [⟨"", 9, 1, .w1c, rv 0, .any⟩]⟩,
  ⟨"wake_cnt", 0x94034, [], false, [⟨"", 31, 0, .ro, rv 0, .any⟩]⟩,
  ⟨"aon_stat", 0x94038, [], false, [⟨"rf_bad", 0, 0, .w1c, rv 0, .any⟩]⟩]

/-- Owner BAR0 registers of spec/18_power_and_wake.md. -/
def ownerRegs18b : List RegDef := [
  ⟨"rf", 0x94100, [(4, 64)], false, [⟨"", 31, 0, .rw, rv 0, .any⟩]⟩]

/-- Owner BAR0 registers of spec/19_startup_fuses_update.md. -/
def ownerRegs19 : List RegDef := [
  ⟨"fuse_stat", 0x95000, [], false, [⟨"fuse_marginal", 0, 0, .w1c, rv 0, .any⟩, ⟨"corr", 1, 1, .w1c, rv 0, .any⟩]⟩,
  ⟨"fuse_marg_idx", 0x95004, [], false, [⟨"", 5, 0, .ro, rv 0, .any⟩]⟩,
  ⟨"fuse_marg_map_lo", 0x95008, [], false, [⟨"", 31, 0, .ro, rv 0, .any⟩]⟩,
  ⟨"fuse_marg_map_hi", 0x9500C, [], false, [⟨"", 31, 0, .ro, rv 0, .any⟩]⟩,
  ⟨"fuse_sel", 0x95010, [], false, [⟨"", 5, 0, .rw, rv 0, .any⟩]⟩,
  ⟨"fuse_val_lo", 0x95014, [], false, [⟨"", 31, 0, .ro, rv 0, .any⟩]⟩,
  ⟨"fuse_val_hi", 0x95018, [], false, [⟨"data", 23, 0, .ro, rv 0, .any⟩, ⟨"defaulted", 24, 24, .ro, rv 0, .any⟩]⟩,
  ⟨"boot_stat", 0x96000, [], false, [⟨"slot", 0, 0, .ro, rv 0, .any⟩, ⟨"trial", 1, 1, .ro, rv 0, .any⟩, ⟨"recovery", 4, 4, .ro, rv 0, .any⟩, ⟨"cfg_fail", 5, 5, .w1c, rv 0, .any⟩, ⟨"unsecured", 6, 6, .ro, rv 0, .any⟩, ⟨"sv_full", 7, 7, .ro, rv 0, .any⟩, ⟨"fallback", 8, 8, .ro, rv 0, .any⟩, ⟨"jnl_err", 9, 9, .w1c, rv 0, .any⟩]⟩,
  ⟨"cfg_fail_idx", 0x96004, [], false, [⟨"", 23, 0, .ro, rv 0, .any⟩]⟩,
  ⟨"img_ver", 0x96008, [], false, [⟨"", 31, 0, .ro, rv 0, .any⟩]⟩,
  ⟨"img_sv", 0x9600C, [], false, [⟨"", 31, 0, .ro, rv 0, .any⟩]⟩,
  ⟨"fused_sv", 0x96010, [], false, [⟨"", 31, 0, .ro, rv 0, .any⟩]⟩,
  ⟨"upd_state", 0x96014, [], false, [⟨"a", 2, 0, .ro, rv 0, .any⟩, ⟨"b", 6, 4, .ro, rv 0, .any⟩, ⟨"trials", 9, 8, .ro, rv 0, .any⟩]⟩,
  ⟨"jnl_seq", 0x96018, [], false, [⟨"", 31, 0, .ro, rv 0, .any⟩]⟩,
  ⟨"trial_left", 0x9601C, [], false, [⟨"", 15, 0, .ro, rv 0, .any⟩]⟩]

/-- Owner BAR0 registers of spec/20_faults_and_recovery.md. -/
def ownerRegs20 : List RegDef := [
  ⟨"flt_stat", 1024, [], false, [⟨"eclipse", 0, 0, .ro, rv 0, .any⟩, ⟨"ecl_drain", 1, 1, .ro, rv 0, .any⟩, ⟨"mgc_halt", 2, 2, .ro, rv 0, .any⟩, ⟨"go_ignored", 3, 3, .w1c, rv 0, .any⟩]⟩,
  ⟨"ecl_cause", 1028, [], false, [⟨"", 3, 0, .ro, rv 0, .any⟩]⟩,
  ⟨"ecl_tick_lo", 1032, [], false, [⟨"", 31, 0, .ro, rv 0, .any⟩]⟩,
  ⟨"ecl_tick_hi", 1036, [], false, [⟨"", 15, 0, .ro, rv 0, .any⟩]⟩,
  ⟨"ecl_drain_ticks", 1040, [], false, [⟨"", 7, 0, .rw, rv 16, .any⟩]⟩,
  ⟨"eng_rst", 1044, [], false, [⟨"", 16, 0, .w1s, rv 0, .any⟩]⟩,
  ⟨"eng_rst_stat", 1048, [], false, [⟨"", 16, 0, .ro, rv 0, .any⟩]⟩,
  ⟨"flt_ctrl", 1052, [], false, [⟨"eclipse_req", 0, 0, .wo, rv 0, .any⟩]⟩,
  ⟨"esc_limit", 1056, [], false, [⟨"", 3, 0, .rw, rv 3, .atLeast 1⟩]⟩,
  ⟨"esc_window", 1060, [], false, [⟨"", 23, 0, .rw, rv 0x3E80, .atLeast 1⟩]⟩,
  ⟨"mgc_wd", 1064, [], false, [⟨"", 11, 0, .rw, rv 100, .atLeast 10⟩]⟩,
  ⟨"mgc_kick", 1068, [], false, [⟨"", 0, 0, .wo, rv 0, .any⟩]⟩,
  ⟨"mgc_rst_cnt", 1072, [], false, [⟨"", 31, 0, .rc, rv 0, .any⟩]⟩,
  ⟨"self_rst_cnt", 1088, [(4, 16)], false, [⟨"", 31, 0, .rc, rv 0, .any⟩]⟩]

/-- Owner BAR0 registers of spec/21_register_map.md. -/
def ownerRegs21 : List RegDef := [
  ⟨"dev_id", 0, [], false, [⟨"", 31, 0, .ro, fun _ => Config.devId, .any⟩]⟩,
  ⟨"rej_stat", 16, [], false, [⟨"cfg_reject", 0, 0, .w1c, rv 0, .any⟩, ⟨"why", 7, 4, .ro, rv 0, .any⟩]⟩,
  ⟨"cfg_reject_addr", 20, [], false, [⟨"", 21, 0, .ro, rv 0, .any⟩]⟩,
  ⟨"cfg_reject_cnt", 24, [], false, [⟨"", 31, 0, .rc, rv 0, .any⟩]⟩,
  ⟨"unmapped_cnt", 28, [], false, [⟨"", 31, 0, .rc, rv 0, .any⟩]⟩]

/-- Tenant BAR0 registers of spec/21_register_map.md. -/
def tenantRegs21 : List RegDef := [
  ⟨"tcnt_sel", 0x5000, [], false, [⟨"", 9, 0, .rw, rv 0, .any⟩]⟩,
  ⟨"tcnt_pkt_lo", 0x5004, [], false, [⟨"", 31, 0, .ro, rv 0, .any⟩]⟩,
  ⟨"tcnt_pkt_hi", 0x5008, [], false, [⟨"", 31, 0, .ro, rv 0, .any⟩]⟩,
  ⟨"tcnt_byte_lo", 0x500C, [], false, [⟨"", 31, 0, .ro, rv 0, .any⟩]⟩,
  ⟨"tcnt_byte_hi", 0x5010, [], false, [⟨"", 31, 0, .ro, rv 0, .any⟩]⟩,
  ⟨"t_flow_sel", 0x4008, [], false, [⟨"", 11, 0, .rw, rv 0, .any⟩]⟩,
  ⟨"t_flow_rec_w0", 0x4010, [], false, [⟨"", 31, 0, .ro, rv 0, .any⟩]⟩,
  ⟨"t_flow_rec_w1", 0x4014, [], false, [⟨"", 31, 0, .ro, rv 0, .any⟩]⟩,
  ⟨"t_flow_rec_w2", 0x4018, [], false, [⟨"", 31, 0, .ro, rv 0, .any⟩]⟩,
  ⟨"t_flow_rec_w3", 0x401C, [], false, [⟨"", 31, 0, .ro, rv 0, .any⟩]⟩,
  ⟨"t_ret_hwm", 0x4024, [], false, [⟨"", 31, 0, .ro, rv 0, .any⟩]⟩]

/-- Owner BAR0 registers of spec/13_early_look.md. -/
def ownerRegs13 : List RegDef := [
  ⟨"el_stat_o", 0x51010, [(32, 16)], false, [⟨"outstanding", 6, 0, .ro, rv 0, .any⟩, ⟨"permit", 8, 8, .ro, rv 0, .any⟩]⟩]

/-- The lists above with the offsets each of them spans, to find an offset without reading them all. -/
def ownerBlocks : List (Nat × Nat × List RegDef) := [
  (512, 0x6011F, ownerRegs02),
  (0x10500, 0x50043, ownerRegs03a),
  (0x50044, 0x5004F, ownerRegs03b),
  (0x10000, 0x1A6EB, ownerRegs04a),
  (768, 0x1A6EF, ownerRegs04b),
  (0x1010C, 0x1A2FF, ownerRegs04c),
  (832, 0x1A79F, ownerRegs05),
  (0x20000, 0x2021F, ownerRegs06a),
  (0x20280, 0x202FF, ownerRegs06b),
  (0x30000, 0x30D03, ownerRegs07a),
  (0x30D04, 0x30E1B, ownerRegs07b),
  (0x31000, 0x21FFFF, ownerRegs08),
  (0x40000, 0x45FFF, ownerRegs09a),
  (0x40118, 0x451FF, ownerRegs09b),
  (0x32000, 0x34FFF, ownerRegs10),
  (0x50000, 0xB1007, ownerRegs11),
  (0x50050, 0x522AF, ownerRegs12),
  (0x60200, 0x602DF, ownerRegs14a),
  (0x60000, 0x607C3, ownerRegs14b),
  (0x60704, 0x607EF, ownerRegs14c),
  (0x70000, 0x7027F, ownerRegs15a),
  (0x70300, 0x78E43, ownerRegs15b),
  (0x78114, 0x78E1F, ownerRegs15c),
  (0x80000, 0x82017, ownerRegs16a),
  (0x82100, 0x822FF, ownerRegs16b),
  (0xA0000, 0xA0877, ownerRegs17),
  (0x90000, 0x9403B, ownerRegs18a),
  (0x94100, 0x941FF, ownerRegs18b),
  (0x95000, 0x9601F, ownerRegs19),
  (1024, 1151, ownerRegs20),
  (0, 31, ownerRegs21),
  (0x51010, 0x511F3, ownerRegs13)]

/-- The lists above with the offsets each of them spans, to find an offset without reading them all. -/
def tenantBlocks : List (Nat × Nat × List RegDef) := [
  (0, 0xF007, tenantRegs11),
  (0x1000, 0x126F, tenantRegs12),
  (0x7000, 0x7023, tenantRegs13),
  (0xA000, 0xA02F, tenantRegs14),
  (0x6000, 0x60AB, tenantRegs16),
  (0x8000, 0x829F, tenantRegs17),
  (0x4008, 0x5013, tenantRegs21)]

end Sys2Proof.Machine
end

