-- ==== Sys2Proof/Machine/State.lean ====
section
/-! DEFINITION. The state of the TRT6416: everything the spec gives the device to hold, as plain data; the two ways a command
can stop; and the state right after a power-on reset. Register fields live in `State.regs` (and, for staged fields, their
values in force in `State.force`), keyed by byte offset and lowest bit; what stands here beside them is the state the spec
keeps outside the register tables. Times are counted in units of 1/64 ns from power-on or device reset (log entry 2). -/

namespace Sys2Proof.Machine

/-- Why the device stops: no command of this model faults, because the spec gives every one of them an effect. -/
inductive Fault where
  /-- An access outside the state, which no meaning makes: nobody raises it (safe). -/
  | unreachable
  deriving DecidableEq, Repr

/-- Why a command is refused. -/
inductive Refusal where
  /-- The command has no meaning yet: an arm of `exec` raises it, and no arm does now (safe). -/
  | notModelled (mnemonic : String)
  deriving DecidableEq, Repr

/-- Register fields that differ from their reset value, keyed by 32 times the byte offset plus the lowest bit. -/
abbrev RegFile := List (Nat × Nat)

/-! ### What leaves the device -/

/-- How a request of the host to a function ends where it carries no data: Configuration Request Retry Status (R329),
Unsupported Request (R333, R347), or Completer Abort (R615). -/
inductive ConfigEnd where
  | retry
  | unsupported
  | aborted
  deriving DecidableEq, Repr

/-- Something the device has sent outward: a frame on a port, an mPacket with a fragment of a frame of the preemptable MAC, its number and
the fragment's (R304), a verify or respond mPacket, the Clause 37 base page (R164), a posted write to host memory or an interrupt message, a read
request, a byte on CON_TX, the completion of a register read, an MDIO frame, a completion without data, a management message; a
command to the serial NOR device (R570), bits on TDO, what a test instruction drives on the pins (none: they float), and edges on AC
transmitters with the level after the last of them (R666). -/
inductive Sent where
  | frame (p : Nat) (at_ : Nat) (bytes : List Byte)
  | fragment (p : Nat) (at_ : Nat) (frame frag : Nat) (bytes : List Byte)
  | mpacket (p : Nat) (respond : Bool)
  | basePage (p : Nat) (pause asmDir : Bool)
  | write (fn : Nat) (relaxed : Bool) (addr : Nat) (bytes : List Byte)
  | message (src slot : Nat) (addr data : Nat)
  | readReq (fn : Nat) (addr len : Nat)
  | readData (who : Reader) (off value : Nat)
  | conByte (b : Byte)
  | mdio (m : Nat) (clause op phy reg addr data : Nat)
  | config (fn : Nat) (e : ConfigEnd)
  | ltr (snoopNs : Nat)
  | nor (op addr : Nat) (bytes : List Byte)
  | tdo (n bits : Nat)
  | pads (v : Option Nat)
  | edges (pairs levels n : Nat)
  | pmeToAck
  | pmePm
  deriving DecidableEq, Repr

/-! ### Frames (chapters 1, 3, 4, 6 to 8) -/

/-- An exit of R223. -/
structure Exit where
  dest : Nat
  sub : Nat
  mirror : Bool
  sOp : Nat
  cOp : Nat
  rOp : Nat
  sTci : Nat
  cTci : Nat
  rgen : Nat
  deriving DecidableEq, Repr

/-- A unit job of a resolution (R261, R262): the CRU unit it runs on (none for DGE), the register its result goes to, the
bytes it covers, and its result once done; `bad` is a unit fault (R264). `left` are the blocks still to start, `at_` the instant from
which on the next of them may, and `tick` the tick in which the job entered its unit (R437, R455). -/
structure Job where
  unit : Option Nat
  gd : Nat
  fold : List Byte
  data : List Byte
  alg : Nat
  key : Option Nat
  done : Bool
  bad : Bool
  result : List Byte
  left : Nat
  at_ : Nat
  tick : Nat
  deriving DecidableEq, Repr

/-- How a phase of a program ended. -/
inductive PhaseEnd where
  | running
  | waiting
  | closed
  | ended
  | trapped (info : Nat)
  | faulted
  deriving DecidableEq, Repr

/-- A lane context (R239), with what its phase has done so far and will record at its outcome (R102): the entries that
lookups hit, dispositions, policer applications (policer, instant, input colour, colour), counters and recoveries (function, discard). `drawn` holds
the numbers drawn at acceptance (R314). -/
structure Ctx where
  resolving : Bool
  src : Source
  epoch : Nat
  len : Nat
  g : List Qword
  z : Bool
  lt : Bool
  h : Bool
  pc : Nat
  icount : Nat
  space : Nat
  w : List Byte
  v : List Byte
  m : List Byte
  k : List Byte
  x : List Byte
  t : List Byte
  d : List Byte
  p : List Byte
  exits : List Exit
  flow : Option Nat
  tele : Option Nat
  patch : Option (Nat × Nat)
  jobs : List Job
  hits : List Nat
  disps : List (Option Nat)
  pols : List (Nat × Nat × Nat × Nat)
  cnts : List Nat
  recs : List (Nat × Bool)
  drawn : List (Nat × Nat)
  lane : Nat
  fin : PhaseEnd
  deriving DecidableEq, Repr

/-- Whether a frame could begin to take cells (R115). -/
inductive Begun where
  | ordinary
  | management
  | cannot
  deriving DecidableEq, Repr

/-- Outcome of the address filter (R138). -/
inductive Filter where
  | undecided
  | pass (tenants : Nat) (owner : Bool)
  | miss
  deriving DecidableEq, Repr

/-- What a transmit descriptor gives its frame (R359 to R361). -/
structure TxDesc where
  idx : Nat
  addr : Nat
  len : Nat
  flowSeq : Nat
  launch : Option Nat
  ts : Bool
  cookie : Nat
  deriving DecidableEq, Repr

/-- A stamp as TU converts it (R414): the values that TD0 and TD1 held at the instant, in units of 1/(2^22 * 10^9) ns, and
their validity. -/
structure Stamp where
  td0 : Nat
  td1 : Nat
  v0 : Bool
  v1 : Bool
  deriving DecidableEq, Repr

/-- A frame in arrival, from its SFD or its first fetched byte to its last byte. `el` is the tenant and EL_ID of its
provisional record, and whether it still takes an outcome (R384, R394), `elSkip` the tenant whose limit (true) or room (false) held one back; `noMore` is a frame that stopped taking cells (R115, R195), `bad` one whose
FCS is bad whatever its bytes (R130), `lostClass` one whose classification is lost (R109),
`envFail` one that failed the interval test (R59); `tpl` is the fold decision once made (R201), `refd` whether its template counts
the frame in REFS (R202). -/
structure Arrival where
  src : Source
  cls : Nat
  bytes : List Byte
  sfd : Nat
  stamp : Stamp
  begun : Begun
  storing : Bool
  cells : List Nat
  noMore : Bool
  bad : Bool
  lostClass : Bool
  envFail : Bool
  filter : Filter
  tpl : Option (Option Nat)
  refd : Bool
  ctx : Option Ctx
  desc : Option TxDesc
  el : Option (Nat × Nat × Bool)
  elSkip : Option (Nat × Bool)
  deriving DecidableEq, Repr

/-- An exit of an accepted frame with its reservation (R103, R248). -/
structure ExitRec where
  exit : Exit
  entry : Nat
  drawn : Nat
  desc : Nat
  disp : Option Nat
  deriving DecidableEq, Repr

/-- A parsed tag stack (R141). -/
structure Tags where
  sTag : Option (Nat × Nat)
  cTag : Option Nat
  rTag : Option (Nat × Nat)
  etypeOff : Nat
  etype : Nat
  deriving DecidableEq, Repr

/-- An accepted frame (R13) until its last entry has its disposition; `resTick` is the tick of its resolution, once resolved (R51). -/
structure Frame where
  src : Source
  len : Nat
  cls : Nat
  flow : Nat
  seq : Nat
  epoch : Nat
  accTick : Nat
  accSec : Nat
  folded : Option Nat
  mgmt : Bool
  cells : List Nat
  exits : List ExitRec
  drawnBy : List (Nat × Nat)
  g0 : Qword
  resume : Nat
  icount : Nat
  tele : Option Nat
  trapInfo : Option Nat
  metaRec : List Byte
  stamp : Stamp
  patch : Option (Nat × List Byte)
  resolved : Bool
  resTick : Nat
  desc : Option TxDesc
  deriving DecidableEq, Repr

/-! ### Engines -/

/-- A flow record (R91). -/
structure FlowRec where
  lastAcc : Nat
  lastDel : Nat
  fn : Nat
  en : Bool
  hostseq : Bool
  elEn : Bool
  inflight : Nat
  nondel : Nat
  lastCode : Nat
  deriving DecidableEq, Repr

/-- An exit entry (R95), with the frame whose exit it is. -/
structure Entry where
  frame : Nat
  exit : Nat
  flow : Nat
  seq : Nat
  stage : Nat
  dest : Nat
  sub : Nat
  mirror : Bool
  late : Bool
  elv : Bool
  hostsrc : Bool
  accTick : Nat
  deriving DecidableEq, Repr

/-- LED (chapter 3); `retCrc` is the CRC-32C kept beside the retention pool (R111), `handles` the number of frames
accepted so far, which names them here (log entry 28). -/
structure Led where
  flows : SMap FlowRec
  flowStg : SMap (Nat × Bool × Bool)
  entries : SMap Entry
  retention : SMap Nat
  retCrc : Nat
  rebuilt : Nat
  handles : Nat
  deriving DecidableEq, Repr

/-- A cell that belongs to a frame (R178 to R182): its stored bytes, its link word and its CCRC. -/
structure CellRec where
  bytes : List Byte
  next : Option Nat
  first : Bool
  folded : Bool
  ccrc : Nat
  deriving DecidableEq, Repr

/-- A header template's content (R198). -/
structure Tpl where
  valid : Bool
  tl : Nat
  mask : Nat
  bytes : List Byte
  deriving DecidableEq, Repr

/-- BUF (chapter 6). -/
structure Buf where
  cells : SMap (Option CellRec)
  uncTick : List Nat
  writeFail : List Nat
  scrubAt : Nat
  scrubRead : Option Nat
  writeback : Option Nat
  tplForce : SMap Tpl
  tplStg : SMap Tpl
  tplPend : SMap Tpl
  tplRefs : SMap Nat
  deriving DecidableEq, Repr

/-- A token bucket: its level in units of 1/512000 byte, and the instant of that level (R60). -/
structure Bucket where
  level : Nat
  at_ : Nat
  deriving DecidableEq, Repr

/-- A frame in an egress queue (R277): `late` says that its missed launch time has been counted (R300), `missed` that its missed cap has
(R290). -/
structure QItem where
  frame : Nat
  exit : Nat
  w : Nat
  len : Nat
  deadline : Nat
  accTick : Nat
  launch : Option Nat
  started : Bool
  late : Bool
  missed : Bool
  deriving DecidableEq, Repr

/-- A frame in a staging slot (R145): its queue, the bytes as they will leave. -/
structure Staged where
  queue : Nat
  frame : Nat
  exit : Nat
  bytes : List Byte
  deriving DecidableEq, Repr

/-- A frame in transmission: from a slot (0, 1 the normal slots, 2 SX), or generated (slot 3), the instant of the SFD of its frame or
fragment, and that of its first; `sent` counts bytes of earlier fragments, `frag` those fragments, and `pm` is the number modulo 4 of a frame sent through the
preemptable MAC (R304). -/
structure TxCur where
  slot : Nat
  bytes : List Byte
  start : Nat
  sent : Nat
  sfd : Nat
  item : Option (Nat × Nat)
  frag : Nat
  pm : Option Nat
  deriving DecidableEq, Repr

/-- A port: MPn (chapters 4, 5) and the QSC state of the port (chapter 9). `ready` is the rate at which it enters UP once no fault is
signalled (R127), `loads` the loads of held indices that have not acted yet, each with its instant and the end of its timer (R159),
`broke` the instant of the latest watchdog break and the indices it broke (R167), `gapUntil` the first instant of the next SFD after the
gap (R146), and `pmCount` the number modulo 4 of the next frame of the preemptable MAC (R304). -/
structure PortState where
  debounceSince : Option Nat
  causes : List LinkCause
  rx : Option Arrival
  rxe : Option Arrival
  lastPass : Option Nat
  buckets : List Bucket
  timers : List (Option Nat)
  heldTick : List Bool
  wdCount : List Nat
  wdHold : List Nat
  classCells : List Nat
  xoffTicks : List Nat
  capped : List Bool
  refreshAt : Nat
  pauseOut : List (List Byte)
  slots : List (Option Staged)
  tx : Option TxCur
  preempted : Option TxCur
  queues : List (List QItem)
  credits : List (Int × Nat)
  oper : List Nat
  operEntry : Nat
  gclPend : Option (List Nat × Nat)
  verifyCount : Nat
  verifyAt : Nat
  gclFrom : Nat
  tsUsed : List Nat
  ready : Option Nat
  loads : List (Nat × Nat × Option Nat)
  broke : Nat × List Nat
  gapUntil : Nat
  pmCount : Nat
  deriving DecidableEq, Repr

/-- An exact-match entry (R215). -/
structure ExactEntry where
  key : List Byte
  space : Nat
  valid : Bool
  result : List Byte
  deriving DecidableEq, Repr

/-- A ternary entry (R218). -/
structure TernEntry where
  key : List Byte
  mask : List Byte
  space : Nat
  valid : Bool
  result : List Byte
  deriving DecidableEq, Repr

/-- A policer configuration (R226). -/
structure PolCfg where
  cir : Nat
  eir : Nat
  cbs : Nat
  ebs : Nat
  cm : Bool
  cf : Bool
  deriving DecidableEq, Repr

/-- A policer's levels in units of 2^-12 byte and the stamp in units of 1.25 ns (R226). -/
structure PolLvl where
  c : Nat
  e : Nat
  stamp : Nat
  deriving DecidableEq, Repr

/-- The states of an overlay bank (R231). -/
inductive BankState where
  | free | staging | pending | active | copying
  deriving DecidableEq, Repr

/-- An overlay bank (R231). -/
structure Overlay where
  state : BankState
  epoch : Nat
  exact : SMap ExactEntry
  tern : SMap TernEntry
  pol : SMap PolCfg
  deriving DecidableEq, Repr

/-- A lane of MAS: the resolution in its context, those parked, and the frame in arrival whose classification context issued last
(R207, R263). Classification contexts stand with their frames (`Arrival.ctx`). -/
structure LaneState where
  res : Option (Nat × Ctx)
  parked : List (Nat × Ctx)
  turn : Option Arr
  deriving DecidableEq, Repr

/-- MAS (chapters 7, 8, 10). `words` lists the table words that hold an error (R219), `reported` those that the scrub has
reported, `hits` the hit words (R220); `pcost` what the latest check reports of each binding (R275); GO of table staging reads 1 until the instant `stgGo` (R233); `sketchClear` is the
start of a sketch clear and the first index not yet cleared (R236). -/
structure Mas where
  lanes : List LaneState
  exact : SMap ExactEntry
  tern : SMap TernEntry
  words : SMap WordState
  reported : List Nat
  scrubAt : Nat
  hits : SMap Nat
  stgGo : Nat
  banks : List Overlay
  polCfg : SMap PolCfg
  polLvl : SMap PolLvl
  counters : SMap (Nat × Nat)
  sketch : SMap Nat
  sketchClear : Option (Nat × Nat)
  store : SMap Qword
  hacLo : Nat
  latCounts : SMap (Nat × Nat)
  recTimer : SMap Nat
  latFrom : SMap Nat
  latTested : SMap Nat
  pcost : SMap (Nat × Nat × Nat)
  deriving DecidableEq, Repr

/-- An interrupt source (R461 to R473): its event latch, the value that software wrote to PEND last where no message has taken it since,
MASK, in service, CNT and VEC; the instant of its latest message and the ticks of its latest idle bypass, deadline send and message;
the deadline tick of its oldest unsignalled event (R470), the slot of its latest message, the slot and vector of a held message, and whether the
episode of an OFFLINE slot has been counted. -/
structure IrqSrc where
  latch : Bool
  pend : Bool
  mask : Bool
  insvc : Bool
  cnt : Nat
  vec : Nat
  lastIssue : Option Nat
  bypassTick : Option Nat
  dlTick : Option Nat
  sentTick : Option Nat
  oldest : Option Nat
  lastSlot : Nat
  held : Option (Nat × Nat)
  offlineHeld : Bool
  deriving DecidableEq, Repr

/-- An entry of the event log (R479): an event with its code, subject and short time, or a time mark with its seconds. -/
structure LogEntry where
  code : Nat
  subj : Nat
  low : Nat
  deriving DecidableEq, Repr

/-- IRC with the event log and the telemetry FIFO (chapter 16); `seenMark` are the seconds and the validity of the latest time mark
removed, by which MGC rebuilds times (R523); `aged` says that the age timers of the log and of the telemetry FIFO have run out since the latest
removal (R488), `ringMoves` how many records have gone to the telemetry ring in a tick (R487). -/
structure Irc where
  src : SMap IrqSrc
  lastMsg : Option Nat
  sysThisTick : Nat
  log : List LogEntry
  mark : Option (Nat × Bool)
  lostPend : Nat
  lastRemoved : LogEntry
  seenMark : Nat × Bool
  logAge : Nat
  tele : List (List Nat)
  teleSeq : Nat
  teleLost : Nat
  teleAge : Nat
  telePrev : SMap (List Nat)
  teleCursor : Nat
  teleTick : Option Nat
  aged : Bool × Bool
  ringMoves : Nat × Nat
  deriving DecidableEq, Repr

/-- How a time domain ran from an instant on (R414): its time then, its rate, what remained of a slew, SLEW_PPB, and whether stamps of it
are valid. -/
structure TSeg where
  at_ : Nat
  val : Nat
  rate : Int
  adj : Int
  slew : Nat
  valid : Bool
  deriving DecidableEq, Repr

/-- A time domain (chapter 14): its time at instant `at_`, in units of 1/(2^22 * 10^9) ns, so that one unit of `State.now`
adds 65536 * 10^9 plus the rate in use; `adj` is what remained of a slew then, in the same units; `hist` holds the latest rates
written, `sinceRate` the boundaries since the latest sync interval, `holdTicks` those in HOLDOVER, `past` how it ran before `at_`, the
latest first, as far back as a stamp reaches. -/
structure TDom where
  val : Nat
  at_ : Nat
  rate : Int
  adj : Int
  hist : List Int
  sinceRate : Nat
  holdTicks : Nat
  past : List TSeg
  deriving DecidableEq, Repr

/-- An MDIO transaction (R151): its clause and operation, PHY, register or device, Clause 45 address, write data, and the
failed read attempts so far. -/
structure MdioTx where
  clause : Nat
  op : Nat
  phy : Nat
  reg : Nat
  addr : Nat
  data : Nat
  tries : Nat
  deriving DecidableEq, Repr

/-- An MDIO master's two command channels (R150): the owner's waiting transaction, MGC's in their order, and the one running. MGC's carry
what they are for: 1 a console line, 2 + p a step of the PHY handshake of port p (R543, R551); 0 marks the owner's. `since` is the
instant at which the attempt that runs began (R153). -/
structure MdioState where
  owner : Option MdioTx
  mgc : List (Nat × MdioTx)
  running : Option (Nat × MdioTx)
  since : Nat
  deriving DecidableEq, Repr

/-- An event record due to a function's event ring (R376, R377), with the transmit ring, the position and the frame
whose completion it must follow (R379), its deadline tick and the instant it became due (R378, R380). -/
structure EvRec where
  kind : Nat
  code : Nat
  late : Bool
  tsV : Bool
  fn : Nat
  flow : Nat
  seq : Nat
  dest : Nat
  sub : Nat
  count : Nat
  ts40 : Nat
  tsec : Nat
  after : Option (Nat × Nat × Nat)
  due : Nat
  readyAt : Nat
  deriving DecidableEq, Repr

/-- A completion ready to be written over its descriptor (R363 to R374): its dwords without LATE, the place of LATE in D0,
LATE so far, the last tick in which it is in time, the instant it became ready, the tick in which its work entered HIF (R51), the
exit that it delivers, and the frame whose acceptance it reports. -/
structure Cpl where
  words : List Nat
  lateBit : Nat
  late : Bool
  due : Nat
  readyAt : Nat
  since : Nat
  exit : Option (Nat × Nat)
  frame : Option Nat
  deriving DecidableEq, Repr

/-- A descriptor in the device's hands, from CPL to HEAD (R356): being fetched, since an instant; a transmit descriptor whose data is being
read; a checked receive descriptor (posted, R369); a receive descriptor reserved for an exit of a frame; a transmit
descriptor whose frame is accepted; and one whose completion is ready. -/
inductive DescState where
  | fetching (at_ : Nat)
  | reading (d : TxDesc) (issued got : Nat) (at_ : List Nat)
  | held
  | reserved (h i : Nat)
  | accepted (h : Nat)
  | ready (c : Cpl)
  deriving DecidableEq, Repr

/-- A descriptor and where it lies. -/
structure Desc where
  pos : Nat
  addr : Nat
  st : DescState
  deriving DecidableEq, Repr

/-- A ring's dynamic state beside its registers: the descriptors from CPL on, the envelope of a transmit ring (R62), and
the records skipped since the last LOST_EVENTS record (R377), and the doorbell writes that posted what is in the device's hands,
each with its tick and its value, the oldest first (R51). -/
structure Ring where
  descs : List Desc
  bucket : Bucket
  lastPass : Option Nat
  skipped : Nat
  bells : List (Nat × Nat)
  deriving DecidableEq, Repr

/-- Posted writes that await the acknowledgement of the last of them (R97): the exit whose data they complete (false) or whose
completion they are (true), and what they write (relaxed, address, bytes), since a reset of HIF writes it again (R109). -/
structure Posted where
  fn : Nat
  ends : List (Nat × Nat × Bool)
  tlps : List (Bool × Nat × List Byte)
  deriving DecidableEq, Repr

/-- An Early Look record ready to be written (R388 to R391): its type, EL_ID, its entries without PHASE and LATE, and for an
outcome the instant up to which it is in time; of a CONFIRM also its frame. -/
structure ElRec where
  kind : Nat
  entries : List (List Nat)
  due : Option Nat
  frame : Option Nat
  deriving DecidableEq, Repr

/-- A timed output (R417 to R423): whether its pin is away from the idle level, the target of its pending edge (in modes 1 to 3 the
whole nanoseconds of its domain, in tick mode an instant), the instant at which its pulse ends, and whether Eclipse holds it
at idle (R605). -/
structure Tout where
  away : Bool
  next : Option Nat
  endAt : Option Nat
  idle : Bool
  deriving DecidableEq, Repr

/-- TU beside its registers and the domains (chapter 14): the PTP event stamp queues of the ports and the capture queues, each
entry its eight words (R415, R424), and the timed outputs. -/
structure Tu where
  tsq : List (List (List Nat))
  tcap : List (List (List Nat))
  tout : List Tout
  deriving DecidableEq, Repr

/-- What a function's configuration space holds that the host can write (R334, R335, R347 to R350): Memory Space Enable, Bus Master
Enable, power state D3hot, Enable Relaxed Ordering, Function Mask, the code of the completion timeout value, and the errors logged in
its AER registers: timeout 1, Unsupported Request 2, Completer Abort 4, poisoned 8. -/
structure PciFn where
  mse : Bool
  bme : Bool
  d3 : Bool
  ro : Bool
  fnMask : Bool
  cto : Nat
  aer : Nat
  deriving DecidableEq, Repr

/-- A function's configuration space after a reset (PRESUMED, log entry 14). -/
def PciFn.reset : PciFn := ⟨true, true, false, true, false, 0, 0⟩

/-- An access to the block of HIF or IRC that waits for the end of the engine's reset (R625). -/
inductive Access where
  | doorbell (f : Func) (r : AnyRing) (v : BitVec 16)
  | ringEnable (f : Func) (r : AnyRing) (v : Dword)
  | ringReset (f : Func) (r : AnyRing)
  | hifFlr (f : Func)
  | elFlow (n : Tenant) (en : Bool)
  | eoi (src : IrqSource)
  | pend (src : IrqSource)
  | count (rd : Reader) (src : IrqSource)
  | log (rd : Reader)
  | tele (rd : Reader)
  | tlrTail (v : BitVec 16)
  | write (f : Func) (off : Nat) (be : BitVec 4) (v : Dword)
  | read (rd : Reader) (off : Nat) (be : BitVec 4)
  deriving DecidableEq, Repr

/-- HIF (chapters 11 to 13) beside its registers. `rings` is keyed by 11 f + r; `numVfs` is 0 while VF Enable is 0; `vfWant`, `ari` and
`pageSize` are NumVFs, ARI Capable Hierarchy and System Page Size as written (R332), `mps` and `mrrs` the codes in the owner's Device
Control (R327), `bar` and `vfBar` the base addresses in the owner's BAR0/1 and the VF BAR0/1 (R336, R337), `pci` the rest of each
function's configuration space; `quotaReset` the tenants whose running reset a commit caused;
`mgc` are the exits that wait for MGC in its receive slots (R103); `stallTick` is the tick in which HOST_STALL was set
and `stallLast` the last one, if any, in which a posted write waited too long (R121); `perstAt` is the instant of PE_PERST_N's
deassertion (R329), `ltrOn` is LTR Mechanism Enable of the owner (R538). -/
structure Hif where
  rings : SMap Ring
  posted : List Posted
  el : SMap (List ElRec)
  numVfs : Nat
  vfAt : Nat
  vfWant : Nat
  ari : Bool
  pageSize : Nat
  bar : Nat
  vfBar : Nat
  mps : Nat
  mrrs : Nat
  pci : SMap PciFn
  quotaReset : Nat
  mgc : List (Nat × Nat)
  stallTick : Option Nat
  stallLast : Option Nat
  perstAt : Option Nat
  ltrOn : Bool
  heldAcc : List Access
  deriving DecidableEq, Repr

/-- A bank of a key slot (R443): the inner and outer chaining values of the HMAC, and KCV with its first byte lowest. -/
structure KeyBank where
  alg : Nat
  valid : Bool
  con : Bool
  inner : List Nat
  outer : List Nat
  kcv : Nat
  deriving DecidableEq, Repr

/-- A key slot (R443, R445): the bank in force and the other one, which is the staging bank or, from the epoch `retiring` on,
the former bank. -/
structure KeySlot where
  force : KeyBank
  other : KeyBank
  staged : Bool
  retiring : Option Nat
  deriving DecidableEq, Repr

/-- A resident context of DGE (R436, R440): its state, holder and fault reason, the computation (chaining value, bytes
absorbed, partial block, HMAC outer state), the input buffer, the instant at which its latest block ends, the instant of
the last append, the digest, and the blocks still to start while it is FINISHING. -/
structure Stream where
  state : Nat
  holder : Nat
  reason : Nat
  alg : Nat
  hm : Bool
  chain : List Nat
  outer : List Nat
  count : Nat
  part : List Byte
  buf : List Byte
  busyUntil : Nat
  lastAt : Nat
  digest : List Byte
  left : Nat
  deriving DecidableEq, Repr

/-- DGE (chapter 15): the key slots, the contexts, a clear in progress since an instant with its cause, the units of the blocks that
started in the running tick (frame jobs, streams), and the instant since which MGC has waited for context 16 (R441); of each pipeline the
instant at which its latest block ends, the frame-job blocks since the latest stream block, the context that comes next in turn, and a
key load's blocks still to start with the cycles of each and the instant from which on the next may start (R437, R444). -/
structure Dge where
  slots : SMap KeySlot
  ctxs : List Stream
  clearing : Option (Nat × Nat)
  units : Nat × Nat
  mgcWait : Option Nat
  pipes : List Nat
  since : Nat
  turn : Nat
  load : Option (Nat × Nat × Nat)
  deriving DecidableEq, Repr

/-- A job port of a CRU (R456): state and fault reason, the parameters taken at OPEN, the register, the bytes waiting in the
input buffer since an instant, the result, the bytes of the fold word that have not entered yet, and the instant at which the latest
block ends. -/
structure CruPort where
  state : Nat
  reason : Nat
  width : Nat
  poly : Nat
  refin : Bool
  refout : Bool
  xorout : Nat
  reg : Nat
  buf : List Byte
  lastAt : Nat
  result : Nat
  part : List Byte
  busy : Nat
  deriving DecidableEq, Repr

/-- A CRU (R454 to R456): its job ports, the epoch since which its former parameter bank retires, the blocks that started in the running
tick (frame jobs, job ports), the instant at which its latest block ends, the frame-job blocks since the latest one of a job port,
and the job port that comes next in turn. -/
structure Cru where
  ports : List CruPort
  retiring : Option Nat
  blocks : Nat × Nat
  free : Nat
  since : Nat
  turn : Nat
  deriving DecidableEq, Repr

/-- What a budget check by MGC is for (R64, R520, R535, R587): a commit or a check asked for on a console channel, the entry
to Dusk, or the first configuration. -/
inductive CheckFor where
  | commit (ch : Channel) (at_ : Option Nat)
  | check (ch : Channel)
  | dusk
  | boot
  deriving DecidableEq, Repr

/-- The tick generator and the commit (chapter 2). `checks` are the checks asked of MGC, in order; `told` is the channel that a
pending commit answers (R500); `rerun` says that a rerun is due (R75). `work` counts the units served in the running tick, `worked`
those of the tick before: lane cycles, exact-match and ternary lookups, ledger operations, host fetches, host write-backs and
interrupt messages (R54, R483); `ahead` are the prefetches among the running tick's fetches (R368). `fresh` are the bits of
OVERRUN_ENG that the latest boundary set (R79). -/
structure Tick where
  num : Nat
  start : Nat
  len : Nat
  sec : Nat
  epoch : Nat
  commitAt : Option Nat
  checks : List CheckFor
  told : Option Channel
  rerun : Bool
  work : List Nat
  worked : List Nat
  ahead : Nat
  fresh : Nat
  deriving DecidableEq, Repr

/-- Faults and the recovery ladder (chapter 20): the instant of entry to Eclipse and the boundaries of its drain, the ticks of
each engine's self-resets, the instants at which running resets began, the engines whose running reset is a self-reset, the
latest MGC_KICK, whether the code in MGC SRAM has failed its check, and whether ECL_CAUSE still shows the cause of before a
device reset (R603). -/
structure Ladder where
  eclAt : Option Nat
  drained : Nat
  selfAt : SMap (List Nat)
  resetAt : SMap Nat
  selfRun : Nat
  kickAt : Nat
  codeBad : Bool
  keepEcl : Bool
  deriving DecidableEq, Repr

/-- Where a power transition stands (R535 to R544): none; the Dusk check; the switch awaited at a tick; a bias ramp since an
instant, to Dusk or to Day; the Day switch awaited; the drain since a tick, to Night or to Twilight; the hand-over of the link since an
instant, with PME_Turn_Off received or not; the PHY sleep handshake; and Night, with the clamps engaged. -/
inductive PmPhase where
  | settled
  | duskCheck
  | duskAt (tick : Nat)
  | ramp (since : Nat) (day : Bool)
  | dayAt
  | drain (since : Nat) (night : Bool)
  | handOver (since : Nat) (night off : Bool)
  | phySleep (night : Bool)
  | night
  deriving DecidableEq, Repr

/-- PMU and AON beside their registers (chapter 18): the transition, the tick of entry to Twilight, PE_WAKE_N driven low, PE_PERST_N low, the ticks in a row at or below 120 °C, and the source that woke the device from
Night, whose entry in the log is still due (R553), the ports whose PHY was put to sleep (R543), the ports whose
PHY handshake runs, since an instant and for a wake or not (R543, R551), the wake patterns as they stood
at the entry to Twilight (R547), the latest wake with its instant, source and state (R550), the tick before which admission stays
closed after a drain was abandoned (R540), and the words of the retention file whose parity fails (R554). -/
structure Pm where
  phase : PmPhase
  twSince : Nat
  wakeOut : Bool
  perstLow : Bool
  coolTicks : Nat
  wakeDue : Option Nat
  slept : Nat
  hand : Nat
  handAt : Nat
  handWake : Bool
  pats : RegFile
  woke : Option (Nat × Nat × Nat)
  shut : Nat
  rfBad : List Nat
  deriving DecidableEq, Repr

/-- A complete console line (R492, R497): its channel (0 UART, 1 the owner's mailbox, 2 to 7 the network console of P0 to P5, 8 to
23 the mailbox of T0 to T15), its first 161 bytes, whether its channel was strict when it was complete, whether a byte of it was
lost (R505), and the instant at which it was complete (R501). -/
structure ConLine where
  ch : Nat
  bytes : List Byte
  strict : Bool
  bad : Bool
  at_ : Nat
  deriving DecidableEq, Repr

/-- What the reply to the line in service waits for (R520, R525): a budget check, an engine's reset, a tenant's reset, a
transaction of MGC's on an MDIO master. -/
inductive ConWait where
  | check
  | engine (e : Nat)
  | tenant (n : Nat)
  | mdio (m : Nat)
  deriving DecidableEq, Repr

/-- A channel (R490): the reply stored for a retry with its sequence (R495), the reply queue of a mailbox with a mark on its event
lines (R509), the event lines that wait and the number dropped since the last `ev lost` (R500). -/
structure ConChan where
  stored : Option (Nat × List (List Byte))
  replies : List (Bool × List Byte)
  events : List (List Byte)
  lost : Nat
  deriving DecidableEq, Repr

/-- The Molsum console (chapter 17): the complete lines in order of service; what the line in service waits for; the channels; the
reply lines that wait for room in a mailbox, each with the mark of a final line; the UART's partial line, whether it has lost a
byte, whether CR ended the line before it, the bytes to transmit, the instant at which the first of them began, the rate in
effect and the rate that follows after a number of bytes; the peers of the network console, the tick of each port's latest entry
0x80, the frames that wait to be offered and those offered in a tick; the channel that holds telemetry; and the reply of the
latest check. -/
structure Con where
  lines : List ConLine
  serving : Option ConWait
  chans : SMap ConChan
  waiting : List (Nat × Bool × List Byte)
  part : List Byte
  partBad : Bool
  lastCr : Bool
  tx : List Byte
  txAt : Nat
  rate : Nat
  rateNext : Option (Nat × Nat)
  peers : SMap (List Byte)
  rejTick : SMap Nat
  netOut : List (Nat × List Byte)
  netTick : Nat × Nat
  tele : Option Nat
  lastCheck : Option (Bool × List Byte)
  deriving DecidableEq, Repr

/-- Where a start stands (R561 to R563, R662, R667): none has run since power-on; a power-on or a
wake waits at step 1 for the rails or is held at step 4; a device reset is held at step 4; the start halted; the first configuration is
being applied or checked; or the start has ended. -/
inductive StartPhase where
  | none
  | waiting
  | held
  | halted
  | config
  | ended
  deriving DecidableEq, Repr

/-- How the serial NOR device is accessed (R570): the read opcode, its address and data on four lines, its dummy cycles, the rate in MHz,
the bytes of an address, the quad-enable method (none in single-line mode), the page size, and the opcodes of erase, program and
polling. -/
structure NorMode where
  read : Nat
  quadAddr : Bool
  quadData : Bool
  dummy : Nat
  mhz : Nat
  addr : Nat
  enable : Option Nat
  page : Nat
  erase : Nat
  program : Nat
  poll : Nat
  deriving DecidableEq, Repr

/-- The access of a device without SFDP (R570); 64-byte pages are the least of R569. -/
def NorMode.plain : NorMode := ⟨0x03, false, false, 0, 25, 3, none, 64, 0x20, 0x02, 0x05⟩

/-- Start-up and update (chapter 19): the fuse words that are not 0, the free words that stayed marginal when programmed, the bytes of
the serial NOR device's journal sectors and slots (a byte not listed is erased, 0xFF), the update session (its channel, slot and next
offset), the instant at which a trial ends, and the first configuration: the records still to apply, the index of the next, whether
the segment is the one the ROM read, and the register, bits and instant since which a record waits for a W1S bit; and the instant
at which a device reset that `reset device` asked for is due (R525); `nor` is the access that the latest start selected,
and `sram` what MGC SRAM holds of the running image, each segment at its offset (R580). -/
structure Boot where
  phase : StartPhase
  fuse : SMap Nat
  spent : Nat
  j0 : List Byte
  j1 : List Byte
  slotA : List Byte
  slotB : List Byte
  session : Option (Channel × Nat × Nat)
  trialEnd : Option Nat
  cfg : List (Nat × Nat)
  cfgIdx : Nat
  cfgSame : Bool
  cfgWait : Option (Nat × Nat × Nat)
  resetDue : Option Nat
  nor : NorMode
  sram : List (Nat × List Byte)
  deriving DecidableEq, Repr

/-- Supplies, reset pins and the test access port (chapters 22, 23): the rails below their monitor threshold, the banks that chose
3.3 V levels, SYSRST_N and PORST_N low, the TAP's instruction in force, the result of the latest memory test, and the values that the
latest Update-DR left in the boundary-scan cells (R664). -/
structure Pins where
  low : List Rail
  io33 : Nat
  sysrst : Bool
  porst : Bool
  tapIr : Nat
  mbist : Nat
  cells : Nat
  deriving DecidableEq, Repr

/-- A port after power-on: link DISABLED, nothing held, every bucket full (R61, R127, R177, R291, R303) (DESIGN CHOICE, log entry 92). -/
def PortState.reset : PortState where
  debounceSince := none
  causes := []
  rx := none
  rxe := none
  lastPass := none
  buckets := List.replicate 8 ⟨18432 * 512000, 0⟩
  timers := List.replicate 9 none
  heldTick := List.replicate 9 false
  wdCount := List.replicate 9 0
  wdHold := List.replicate 9 0
  classCells := List.replicate 8 0
  xoffTicks := List.replicate 8 0
  capped := List.replicate 8 false
  refreshAt := 0
  pauseOut := []
  slots := List.replicate 3 none
  tx := none
  preempted := none
  queues := List.replicate 8 []
  credits := List.replicate 8 (0, 0)
  oper := [0xFF]
  operEntry := 0
  gclPend := none
  verifyCount := 0
  verifyAt := 0
  gclFrom := 0
  tsUsed := List.replicate 8 0
  ready := none
  loads := []
  broke := (0, [])
  gapUntil := 0
  pmCount := 0

/-- What the running core cycle has brought (R620, R621): the register file as the cycle found it, the sources with arrivals, each with its
CNT before and its arrivals (R462), the entries added to the event log and the records added to the telemetry FIFO (R482, R486), and
those added to the time queues, the capture queues from 8 on (R416). -/
structure Cyc where
  regs : RegFile
  srcs : SMap (Nat × Nat)
  log : Nat
  tele : Nat
  queues : SMap Nat
  deriving DecidableEq, Repr

/-- The whole device; `base0` is the instant from which the fixed 1.25 ns time base counts (R228), `cyc` what the running core cycle has
brought. -/
structure State where
  pending : List Instr
  now : Nat
  base0 : Nat
  draws : Nat
  sent : List Sent
  regs : RegFile
  force : RegFile
  oldForce : List (Nat × RegFile)
  kept : List (Nat × RegFile)
  latches : SMap Nat
  tick : Tick
  led : Led
  buf : Buf
  ports : List PortState
  frames : SMap Frame
  mas : Mas
  irc : Irc
  td : List TDom
  hostArr : SMap Arrival
  events : SMap (List EvRec)
  mdio : List MdioState
  dge : Dge
  crus : List Cru
  hif : Hif
  tu : Tu
  ladder : Ladder
  pm : Pm
  con : Con
  boot : Boot
  pins : Pins
  cyc : Cyc
  deriving DecidableEq, Repr

/-- The CRC-32C of 4 096 words of 0 (R111). -/
def retZero : Nat := 0x94640b85

/-- LED after power-on: every flow with FN 31 and EN 0, the entry store and the retention pool empty (R92, R95, R111). -/
def Led.reset : Led := ⟨[], [], [], [], retZero, 0, 0⟩

/-- BUF after power-on: every cell free, no template valid (R197, R199). -/
def Buf.reset : Buf := ⟨[], [0, 0, 0, 0, 0], [], 0, none, none, [], [], [], []⟩

/-- An empty overlay bank (R231). -/
def Overlay.reset : Overlay := ⟨.free, 0, [], [], []⟩

/-- MAS after power-on (R238). -/
def Mas.reset : Mas where
  lanes := List.replicate 4 ⟨none, [], none⟩
  exact := []
  tern := []
  words := []
  reported := []
  scrubAt := 0
  hits := []
  stgGo := 0
  banks := [Overlay.reset, Overlay.reset]
  polCfg := []
  polLvl := []
  counters := []
  sketch := []
  sketchClear := none
  store := []
  hacLo := 0
  latCounts := []
  recTimer := []
  latFrom := []
  latTested := []
  pcost := []

/-- IRC after power-on (R478) (DESIGN CHOICE, log entry 92). -/
def Irc.reset : Irc where
  src := []
  lastMsg := none
  sysThisTick := 0
  log := []
  mark := none
  lostPend := 0
  lastRemoved := ⟨0, 0, 0⟩
  seenMark := (0, false)
  logAge := 0
  tele := []
  teleSeq := 0
  teleLost := 0
  teleAge := 0
  telePrev := []
  teleCursor := 0
  teleTick := none
  aged := (false, false)
  ringMoves := (0, 0)

/-- A time domain after power-on: FREE at time 0 (R432). -/
def TDom.reset : TDom := ⟨0, 0, 0, 0, [], 0, 0, []⟩

/-- An invalid, zeroed key bank (R459). -/
def KeyBank.reset : KeyBank := ⟨0, false, false, [], [], 0⟩

/-- A key slot after power-on (R459). -/
def KeySlot.reset : KeySlot := ⟨.reset, .reset, false, none⟩

/-- An IDLE, zeroed context (R440, R459). -/
def Stream.reset : Stream := ⟨0, 0, 0, 0, false, [], [], 0, [], [], 0, 0, [], 0⟩

/-- DGE after power-on (R459). -/
def Dge.reset : Dge := ⟨[], List.replicate 17 Stream.reset, none, (0, 0), none, [0, 0, 0, 0], 0, 0, none⟩

/-- An IDLE job port (R459). -/
def CruPort.reset : CruPort := ⟨0, 0, 0, 0, false, false, 0, 0, [], 0, 0, [], 0⟩

/-- A CRU after power-on (R459). -/
def Cru.reset : Cru := ⟨[CruPort.reset, CruPort.reset], none, (0, 0), 0, 0, 0⟩

/-- A ring after power-on: no descriptor, a full bucket (R62, R381). -/
def Ring.reset : Ring := ⟨[], ⟨18432 * 512000, 0⟩, none, 0, []⟩

/-- HIF after power-on: no ring, no tenant, 4 KiB pages, MPS 128 and MRRS 512 (PRESUMED, log entry 14). -/
def Hif.reset : Hif := ⟨[], [], [], 0, 0, 0, false, 1, 0, 0, 0, 2, [], 0, [], none, none, none, false, []⟩

/-- The tick after power-on: tick 0 of the nominal default length, epoch 0, no commit pending (R37, R40, R41). -/
def Tick.reset : Tick :=
  ⟨0, 0, 4000000, 0, 0, none, [], none, false, [0, 0, 0, 0, 0, 0, 0], [0, 0, 0, 0, 0, 0, 0], 0, 0⟩

/-- The ladder after power-on (DESIGN CHOICE, log entry 92). -/
def Ladder.reset : Ladder := ⟨none, 0, [], [], 0, 0, false, false⟩

/-- PMU after power-on: Day, no transition (DESIGN CHOICE, log entry 92). -/
def Pm.reset : Pm := ⟨.settled, 0, false, false, 0, none, 0, 0, 0, false, [], none, 0, []⟩

/-- The console after power-on: no line, nothing queued, the UART at 115 200 Bd (R490, R503) (DESIGN CHOICE, log entry 92). -/
def Con.reset : Con where
  lines := []
  serving := none
  chans := []
  waiting := []
  part := []
  partBad := false
  lastCr := false
  tx := []
  txAt := 0
  rate := 0
  rateNext := none
  peers := []
  rejTick := []
  netOut := []
  netTick := (0, 0)
  tele := none
  lastCheck := none

/-- The fuse block and the serial NOR device before the first start: the part's grade, SECURE and JTAG_LOCK of a released part (R566,
R575), the other words unprogrammed and the NOR device blank (DESIGN CHOICE, log entry 33). -/
def Boot.reset : Boot where
  phase := .none
  fuse := [(0, if Config.gradeAE then 2 else 1), (1, 3)]
  spent := 0
  j0 := []
  j1 := []
  slotA := []
  slotB := []
  session := none
  trialEnd := none
  cfg := []
  cfgIdx := 0
  cfgSame := true
  cfgWait := none
  resetDue := none
  nor := NorMode.plain
  sram := []

/-- Every rail good at 1.8 V levels, the reset pins released, IDCODE selected (R635, R661) (DESIGN CHOICE, log entry 33). -/
def Pins.reset : Pins := ⟨[], 0, false, false, 2, 0, 0⟩

/-- The device right after a power-on reset: every register at its reset value, every array empty (DEDUCED, DESIGN CHOICE, log entries 33, 92, 94). -/
def State.reset : State where
  pending := []
  now := 0
  base0 := 0
  draws := 0
  sent := []
  regs := []
  force := []
  oldForce := []
  kept := []
  latches := []
  tick := Tick.reset
  led := Led.reset
  buf := Buf.reset
  ports := List.replicate 6 PortState.reset
  frames := []
  mas := Mas.reset
  irc := Irc.reset
  td := [TDom.reset, TDom.reset]
  hostArr := []
  events := []
  mdio := List.replicate 2 ⟨none, [], none, 0⟩
  dge := Dge.reset
  crus := List.replicate 4 Cru.reset
  hif := Hif.reset
  tu := ⟨List.replicate 6 [], List.replicate 4 [], List.replicate 8 ⟨false, none, none, false⟩⟩
  ladder := Ladder.reset
  pm := Pm.reset
  con := Con.reset
  boot := Boot.reset
  pins := Pins.reset
  cyc := ⟨[], [], 0, 0, []⟩

end Sys2Proof.Machine
end

