-- ==== Sys2Proof/Machine/Ops.lean ====
section
/-! DEFINITION. The named operations that every meaning is written over: sparse arrays, register fields, time, interrupt
sources, the event log, and what leaves the device. -/

namespace Sys2Proof.Machine

/-! ### Sparse arrays -/

/-- The entry with index k, if it is listed. -/
def mget {α : Type} : SMap α → Nat → Option α
  | [], _ => none
  | (j, v) :: t, k => if k = j then some v else mget t k

/-- Put the entry with index k, keeping the indices strictly rising. -/
def mput {α : Type} : SMap α → Nat → α → SMap α
  | [], k, v => [(k, v)]
  | (j, w) :: t, k, v =>
    if k = j then (k, v) :: t else if k < j then (k, v) :: (j, w) :: t else (j, w) :: mput t k v

/-- Remove the entry with index k. -/
def mdel {α : Type} : SMap α → Nat → SMap α
  | [], _ => []
  | (j, w) :: t, k => if k = j then mdel t k else (j, w) :: mdel t k

/-- The indices rise strictly. -/
def mwf {α : Type} : SMap α → Bool
  | [] => true
  | [_] => true
  | (j, _) :: (k, w) :: t => decide (j < k) && mwf ((k, w) :: t)

/-- The entry with index k, or d where it is not listed. -/
def mgetD {α : Type} (m : SMap α) (k : Nat) (d : α) : α := (mget m k).getD d

/-- The lowest index of 0 to n - 1 that a map does not list. -/
def mfree {α : Type} (m : SMap α) (n : Nat) : Option Nat :=
  let rec go : SMap α → Nat → Nat
    | [], i => i
    | (j, _) :: t, i => if j = i then go t (i + 1) else i
  let i := go m 0
  if i < n then some i else none

/-! ### Register fields (R8, R10) -/

/-- The key of a field in a register file. -/
def Fld.key (f : Fld) : Nat := 32 * f.off + f.lo

/-- The value of a field in a register file. -/
def regGet (r : RegFile) (f : Fld) : Nat := mgetD r (Fld.key f) f.rst

/-- Write a field of a register file; a field at its reset value is not listed. -/
def regPut (r : RegFile) (f : Fld) (v : Nat) : RegFile :=
  let v' := v % 2 ^ f.width
  if v' = f.rst then mdel r (Fld.key f) else mput r (Fld.key f) v'

/-- The current value of a field; of a staged field, its staged value (R619) (DESIGN CHOICE, log entry 4). -/
def State.rd (s : State) (f : Fld) : Nat := regGet s.regs f

/-- The value in force of a staged field (R71) (DESIGN CHOICE, log entry 4). -/
def State.inf (s : State) (f : Fld) : Nat := regGet s.force f

/-- Write a field (DESIGN CHOICE, log entry 4). -/
def State.wr (s : State) (f : Fld) (v : Nat) : State := { s with regs := regPut s.regs f v }

/-- Whether a one-bit field reads 1. -/
def State.bit (s : State) (f : Fld) : Bool := s.rd f == 1

/-- Set or clear a one-bit field. -/
def State.put (s : State) (f : Fld) (b : Bool) : State := s.wr f (if b then 1 else 0)

/-- Add n to a counter field; it saturates (R122, R234, and the register headings of the chapters). -/
def State.add (s : State) (f : Fld) (n : Nat) : State := s.wr f (min (s.rd f + n) (2 ^ f.width - 1))

/-- Add 1 to a counter field. -/
def State.inc (s : State) (f : Fld) : State := s.add f 1

/-- Bit i of a field. -/
def State.bitAt (s : State) (f : Fld) (i : Nat) : Bool := (s.rd f).testBit i

/-- Set or clear bit i of a field. -/
def setBitAt (v i : Nat) (b : Bool) : Nat :=
  if v.testBit i == b then v else if b then v + 2 ^ i else v - 2 ^ i

/-- Set or clear bit i of a field. -/
def State.putAt (s : State) (f : Fld) (i : Nat) (b : Bool) : State := s.wr f (setBitAt (s.rd f) i b)

/-- Write a 64-bit quantity into a LO and a HI register. -/
def State.wr64 (s : State) (lo hi : Fld) (v : Nat) : State := (s.wr lo (v % 2 ^ 32)).wr hi (v / 2 ^ 32)

/-- Read a LO and a HI register as one number. -/
def State.rd64 (s : State) (lo hi : Fld) : Nat := s.rd lo + 2 ^ 32 * s.rd hi

/-- Add to a 64-bit statistic, which wraps (R156). -/
def State.add64 (s : State) (lo hi : Fld) (n : Nat) : State := s.wr64 lo hi ((s.rd64 lo hi + n) % 2 ^ 64)

/-- The configuration in force in an epoch that may be an older one whose frames have not all ended (R38) (DESIGN CHOICE, log entry 4). -/
def State.forceOf (s : State) (epoch : Nat) : RegFile :=
  match (s.oldForce ++ s.kept).find? (fun p => p.1 == epoch) with
  | some p => p.2
  | none => s.force

/-- A field in force in an epoch (R38) (DESIGN CHOICE, log entry 4). -/
def State.infAt (s : State) (epoch : Nat) (f : Fld) : Nat := regGet (s.forceOf epoch) f

/-! ### Free values, outputs, lists -/

/-- A value the spec leaves undefined, of w bits, and the state with the draw counted (DESIGN CHOICE, log entry 35). -/
def State.draw (s : State) (w : Nat) : Nat × State :=
  (Config.freeValue s.draws % 2 ^ w, { s with draws := s.draws + 1 })

/-- Replace element i of a list by its image. -/
def lmod {α : Type} : List α → Nat → (α → α) → List α
  | [], _, _ => []
  | x :: t, 0, g => g x :: t
  | x :: t, i + 1, g => x :: lmod t i g

/-- n work units of kind k are served (R54). -/
def State.spend (s : State) (k n : Nat) : State := { s with tick := { s.tick with work := lmod s.tick.work k (· + n) } }

/-- The kind of work unit of something that leaves: a host fetch or a host write-back (R56). -/
def Sent.unit : Sent → Option Nat
  | .readReq _ _ _ => some 4
  | .write _ _ _ _ => some 5
  | .message _ _ _ _ => some 5
  | _ => none

/-- Something leaves the device; the latest stands first. -/
def State.emit (s : State) (o : Sent) : State :=
  let s : State := { s with sent := o :: s.sent }
  match o.unit with
  | some k => s.spend k 1
  | none => s

/-! ### Bytes -/

/-- A number from bytes, most significant first (R8, R241). -/
def beNat (l : List Byte) : Nat := l.foldl (fun a b => a * 256 + b.toNat) 0

/-- n bytes of a number, most significant first. -/
def beBytes : Nat → Nat → List Byte
  | 0, _ => []
  | n + 1, v => beBytes n (v / 256) ++ [BitVec.ofNat 8 v]

/-- A number from bytes, least significant first. -/
def leNat (l : List Byte) : Nat := l.foldr (fun b a => a * 256 + b.toNat) 0

/-- n bytes of a number, least significant first. -/
def leBytes : Nat → Nat → List Byte
  | 0, _ => []
  | n + 1, v => BitVec.ofNat 8 v :: leBytes n (v / 256)

/-- n bytes of a list from offset i; bytes outside it read as 0. -/
def sliceD (l : List Byte) (i n : Nat) : List Byte :=
  (List.range n).map (fun k => l.getD (i + k) 0)

/-- Overwrite bytes of a list from offset i, as far as the list reaches. -/
def overwrite (l : List Byte) (i : Nat) (v : List Byte) : List Byte :=
  l.take i ++ v.take (l.length - i) ++ l.drop (i + v.length)

/-- A signed number from a field of w bits in two's complement. -/
def toSigned (w v : Nat) : Int := if v < 2 ^ (w - 1) then v else (v : Int) - (2 ^ w : Nat)

/-- A signed number in w bits, two's complement. -/
def ofSigned (w : Nat) (v : Int) : Nat := (v % (2 ^ w : Nat)).toNat

/-- ceil(a / b). -/
def ceilDiv (a b : Nat) : Nat := (a + b - 1) / b

/-! ### Time (chapters 2 and 14) -/

/-- Units of State.now in one nanosecond (DESIGN CHOICE, log entry 2). -/
def unitsPerNs : Nat := 64

/-- The tick periods of R40 in ns, times 8 so that each is whole (DESIGN CHOICE, log entry 2). -/
def period8 (code : Nat) : Nat := 125000 * 2 ^ code

/-- The period in force, in units of State.now (R40) (DESIGN CHOICE, log entry 2). -/
def State.period (s : State) : Nat := period8 (s.rd R.TICK_ACTIVE % 8) * 8

/-- The core clock's cycle in units of State.now: 1.25 ns in Day, 5 ns in Dusk, 40 ns in Twilight (R40, R57, R529). -/
def State.cycle (s : State) : Nat :=
  match s.rd R.PM_STAT_STATE with
  | 0 => 80
  | 1 => 320
  | _ => 2560

/-- The fixed 1.25 ns time base, counted from the latest start of the core (R228, R292). -/
def State.base125 (s : State) : Nat := (s.now - s.base0) / 80

/-- The time of domain d at an instant, in units of 1/(2^22 * 10^9) ns (R396, R407, R409). -/
def State.tdVal (s : State) (d : Nat) (at_ : Nat) : Nat :=
  match s.td[d]? with
  | none => 0
  | some t =>
    let e := at_ - t.at_
    let step : Nat := e * s.rd (R.SLEW_PPB d) * 65536
    let slew : Int := if t.adj < 0 then -(min (t.adj.natAbs) step : Nat) else (min (t.adj.natAbs) step : Nat)
    ((t.val : Int) + (e : Int) * (65536000000000 + t.rate) + slew).toNat

/-- Units of a domain's time in one nanosecond (DESIGN CHOICE, log entry 2). -/
def tdUnit : Nat := 2 ^ 22 * 1000000000

/-- The whole nanoseconds of domain d now (DESIGN CHOICE, log entry 2). -/
def State.tdNs (s : State) (d : Nat) : Nat := s.tdVal d s.now / tdUnit

/-- The seconds of domain d now (DESIGN CHOICE, log entry 2). -/
def State.tdSec (s : State) (d : Nat) : Nat := s.tdNs d / 1000000000 % 2 ^ 48

/-- The short time of domain d now (R13). -/
def State.short (s : State) (d : Nat) : Nat := s.tdNs d % 2 ^ 40

/-- The part of a domain's slew that is left now, in its units (R409). -/
def State.adjLeft (s : State) (d : Nat) : Int :=
  match s.td[d]? with
  | none => 0
  | some t =>
    let n := t.adj.natAbs - (s.now - t.at_) * s.rd (R.SLEW_PPB d) * 65536
    if t.adj < 0 then -(n : Int) else n

/-- The first instant from now on at which domain d holds at least a value, its rate and slew as they stand (R398, R409) (DEDUCED, log entry 39). -/
def State.tdWhen (s : State) (d v : Nat) : Nat :=
  match s.td[d]? with
  | none => s.now
  | some t =>
    let cur := s.tdVal d s.now
    let slope := max (65536000000000 + t.rate).toNat 1
    let step := s.rd (R.SLEW_PPB d) * 65536
    let left := s.adjLeft d
    let n := left.natAbs / max step 1
    let fast := if left < 0 then slope - step else slope + step
    if v ≤ cur then s.now
    else if left = 0 ∨ cur + n * fast ≥ v then s.now + ceilDiv (v - cur) (max (if left = 0 then slope else fast) 1)
    else
      let r := left.natAbs % max step 1
      let rest := v - (cur + n * fast)
      s.now + n + ceilDiv (if left < 0 then rest + r else rest - r) slope

/-- Whether TD0 or TD1 is valid (R404). -/
def State.tdValid (s : State) (d : Nat) : Bool := s.bit (R.DOM_STAT_VALID d)

/-- A short-time target is in the future (R296, R401) (DEDUCED, log entry 39). -/
def inFuture (target now : Nat) : Bool :=
  decide ((target % 2 ^ 40 + 2 ^ 40 - now % 2 ^ 40) % 2 ^ 40 < 2 ^ 39)

/-- The start of the next core cycle. -/
def State.nextCycle (s : State) : Nat := (s.now / s.cycle + 1) * s.cycle

/-- The number of the running tick, 48 bits: `Tick.num` counts on where TICK_NUM wraps (R41) (DEDUCED, log entry 59). -/
def State.tickNum (s : State) : Nat := s.tick.num % 2 ^ 48

/-- The instant of the next boundary: the first core cycle at or after the target (R43). -/
def State.nextBoundary (s : State) : Nat := s.tick.start + ceilDiv s.tick.len s.cycle * s.cycle

/-- Time passes up to an instant, if it lies ahead; a new core cycle finds the registers as they stand (R621) (DEDUCED, DESIGN CHOICE, log entries 3, 88, 91). -/
def State.upTo (s : State) (t : Nat) : State :=
  { s with now := max s.now t, cyc := if t / s.cycle ≤ s.now / s.cycle then s.cyc else ⟨s.regs, [], 0, 0, []⟩ }

/-- One core clock cycle passes with no command waiting (DESIGN CHOICE, log entry 3). -/
def State.idle (s : State) : State := { s with now := s.now + s.cycle, cyc := ⟨s.regs, [], 0, 0, []⟩ }

/-- A field counts as found at a value by the running core cycle: what software did to it is no change of hardware's (R621) (DEDUCED, log entry 88). -/
def State.found (s : State) (f : Fld) (v : Nat) : State := { s with cyc := { s.cyc with regs := regPut s.cyc.regs f v } }

/-- An entry is added to a time queue in the running cycle (R416). -/
def State.timeQueued (s : State) (k : Nat) : State := { s with cyc := { s.cyc with queues := mput s.cyc.queues k (mgetD s.cyc.queues k 0 + 1) } }

/-! ### Event log (R479 to R482) -/

/-- The event log's capacity (chapter 16). -/
def logMax : Nat := 512

/-- Whether an event now needs a time mark before it (R480). -/
def State.needsMark (s : State) : Bool :=
  match s.irc.mark with
  | none => true
  | some (sec, valid) =>
    valid != s.tdValid 0 || decide (s.tdSec 0 < sec ∨ s.tdSec 0 > sec + 255)

/-- The time mark an event now would carry. -/
def State.markEntry (s : State) : LogEntry :=
  ⟨1, (if s.tdValid 0 then 2 ^ 15 else 0) + s.tdSec 0 / 2 ^ 40, s.tdSec 0 % 2 ^ 40⟩

/-- Append the LOST entry that is due, if one is and it fits with its time mark (R481). -/
def State.logLost (s : State) : State :=
  if s.irc.lostPend = 0 ∨ s.irc.log.length + 2 > logMax then s
  else
    { s with
      irc := { s.irc with
        log := s.irc.log ++ [⟨2, min s.irc.lostPend 0xFFFF, s.short 0⟩, s.markEntry]
        lostPend := 0, mark := some (s.tdSec 0, s.tdValid 0) }
      cyc := { s.cyc with log := s.cyc.log + 2 } }

/-- An entry's place among those of one cycle (R481). -/
def LogEntry.key (e : LogEntry) : Nat := 2 ^ 16 * e.code + e.subj

/-- An event takes its place among the events of its cycle, behind those with a lower code and subject; marks and LOST entries stay where
they are (R481). -/
def insertEntry (e : LogEntry) : List LogEntry → List LogEntry
  | [] => [e]
  | x :: t => if x.code ≤ 2 ∨ x.key ≤ e.key then x :: insertEntry e t else e :: x :: t

/-! ### Interrupt sources (R460 to R463) -/

/-- A source after power-on (R478) (DESIGN CHOICE, log entry 62). -/
def IrqSrc.reset : IrqSrc :=
  ⟨false, false, true, false, 0, 0, none, none, none, none, none, 15, none, false⟩

/-- A source's state. -/
def State.src (s : State) (i : Nat) : IrqSrc := mgetD s.irc.src i IrqSrc.reset

/-- Change a source's state. -/
def State.setSrc (s : State) (i : Nat) (v : IrqSrc) : State :=
  { s with irc := { s.irc with src := if v = IrqSrc.reset then mdel s.irc.src i else mput s.irc.src i v } }

/-- An arrival at a source: its counter rises (R462); `latch` for kind E (R461). -/
def State.arrive (s : State) (i : Nat) (latch : Bool) : State :=
  let v := s.src i
  let c := mgetD s.cyc.srcs i (v.cnt, 0)
  { s.setSrc i { v with latch := v.latch || latch, cnt := min (v.cnt + 1) 255 } with
    cyc := { s.cyc with srcs := mput s.cyc.srcs i (c.1, c.2 + 1) } }

/-- An event of a kind E source (R461). -/
def State.raise (s : State) (i : Nat) : State := s.arrive i true

/-- An event of a ring source whose deadline tick is `due` (R50, R470): the source keeps the earliest of its unsignalled events. -/
def State.raiseBy (s : State) (i due : Nat) : State :=
  let v := s.src i
  (s.setSrc i { v with oldest := some (match v.oldest with
    | some t => min t due
    | none => due) }).raise i

/-- Set a status flag that is the level of a kind S source; `was` is the level before (R461, R462) (DEDUCED, log entry 73). -/
def State.setLevel (s : State) (f : Fld) (i : Nat) (was : Bool) : State :=
  if was then s.wr f 1 else (s.wr f 1).arrive i false

/-- Set a one-bit status flag that alone is the level of a kind S source. -/
def State.setFlag (s : State) (f : Fld) (i : Nat) : State := s.setLevel f i (s.bit f)

/-- Append an event to the log, with the time mark it needs, or count it as lost; of the events of one cycle the last in order is lost (R480,
R481). The level of source EVLOG
is the count at or above EVLOG_WM. -/
def State.logNow (s : State) (code subj : Nat) : State :=
  let s := s.logLost
  let ms := if s.needsMark then [s.markEntry] else []
  let e : LogEntry := ⟨code, subj % 2 ^ 16, s.short 0⟩
  let n := s.irc.log.length - s.cyc.log
  if s.irc.lostPend ≠ 0 ∨ s.irc.log.length + ms.length + 1 > logMax then
    let l := insertEntry e (s.irc.log.drop n)
    { s with irc := { s.irc with log := s.irc.log.take n ++ l.dropLast, lostPend := s.irc.lostPend + 1 } }.inc R.EVLOG_LOST
  else
    let l := s.irc.log.take n ++ insertEntry e (s.irc.log.drop n ++ ms)
    let was := decide (s.irc.log.length ≥ s.rd R.EVLOG_WM)
    let s' : State := { s with
      irc := { s.irc with
        log := l
        mark := if s.needsMark then some (s.tdSec 0, s.tdValid 0) else s.irc.mark }
      cyc := { s.cyc with log := s.cyc.log + ms.length + 1 } }
    if !was && decide (l.length ≥ s.rd R.EVLOG_WM) then s'.arrive 239 false else s'

/-- An event is logged: only IRC and its counter of lost entries change. -/
def State.log (s : State) (code subj : Nat) : State :=
  { s with irc := (s.logNow code subj).irc, regs := (s.logNow code subj).regs, cyc := (s.logNow code subj).cyc }

/-- A test instruction holds the device in reset (R661, R662): EXTEST, HIGHZ, CLAMP, EXTEST_PULSE or EXTEST_TRAIN (DESIGN CHOICE, log entry 76). -/
def State.testHeld (s : State) : Bool := ([0, 3, 4, 5, 6] : List Nat).contains s.pins.tapIr

/-! ### Fuse words (R565, R566) -/

/-- The safe default of a fuse word (R566) (DESIGN CHOICE, log entry 37). -/
def fuseDefault (i : Nat) : Nat :=
  if i = 0 then 1
  else if i = 1 then 3
  else if i = 2 then Config.vendorId
  else if 32 ≤ i ∧ i ≤ 39 then Config.trimMid i
  else 0

/-- A fuse word took its safe default at the latest start. -/
def State.fuseBad (s : State) (i : Nat) : Bool :=
  if i < 32 then s.bitAt R.FUSE_MARG_MAP_LO i else s.bitAt R.FUSE_MARG_MAP_HI (i - 32)

/-- The value in use of a fuse word. -/
def State.fuse (s : State) (i : Nat) : Nat := if s.fuseBad i then fuseDefault i else mgetD s.boot.fuse i 0

/-- A supply of the serial links is low: every port and the PCIe link are held in reset (R635) (DEDUCED, log entry 80). -/
def State.sxLow (s : State) : Bool := s.pins.low.contains .asx || s.pins.low.contains .hsx

/-! ### Rejected writes (R624, R625) -/

/-- Reject a write (R624): CFG_REJECT, its cause, the register's offset and the count. -/
def State.reject (s : State) (off why : Nat) : State :=
  (((s.put R.REJ_STAT_CFG_REJECT true).wr R.REJ_STAT_WHY why).wr R.CFG_REJECT_ADDR off).inc R.CFG_REJECT_CNT

/-- A write of a register in the block of an engine that resets is rejected (R625); t is what it does otherwise. -/
def State.unlessReset (s : State) (engine : Nat) (f : Fld) (t : State) : State :=
  if s.bitAt R.ENG_RST_STAT engine then s.reject f.off 7 else t

/-! ### Requests of the host to a function (R332, R333, R345, R347) -/

/-- What a function's configuration space holds. -/
def State.pci (s : State) (f : Nat) : PciFn := mgetD s.hif.pci f PciFn.reset

/-- Write it. -/
def State.setPci (s : State) (f : Nat) (v : PciFn) : State :=
  { s with hif := { s.hif with pci := if v = PciFn.reset then mdel s.hif.pci f else mput s.hif.pci f v } }

/-- A function that the host can address: the owner, or a present tenant from 100 µs after VF Enable was set (R332, R333). -/
def State.addressable (s : State) (f : Nat) : Bool :=
  f == 16 || (decide (f < s.hif.numVfs) && decide (s.hif.vfAt + 100000 * unitsPerNs ≤ s.now))

/-- A function's BAR takes register accesses: it is addressable, decoded, and, of a tenant, not in reset (R332, R333, R345, R347). -/
def State.barOn (s : State) (f : Nat) : Bool :=
  s.addressable f && (s.pci f).mse && (f == 16 || !s.bitAt R.HIF_FLR_STAT f)

/-- Log an error in a function's AER registers (R349, R350) (DESIGN CHOICE, log entry 30). -/
def State.aerLog (s : State) (f i : Nat) : State :=
  let v := s.pci f
  s.setPci f { v with aer := setBitAt v.aer i true }

/-- A memory request to a function's BAR: it acts where the BAR takes accesses; where the BAR is not decoded it completes with
Unsupported Request; during a tenant's reset `held` is what follows (R345, R347). -/
def State.barRequest (s : State) (f : Nat) (act held : State) : State :=
  if s.barOn f then act
  else if s.addressable f = false then s
  else if (s.pci f).mse = false then (s.aerLog f 1).emit (.config f .unsupported)
  else held

/-- A read of a register completes with its data, or with 0 during the reset of the tenant that reads (R345); MGC reads without a BAR. -/
def State.answer (s : State) (rd : Reader) (off : Nat) (x : Nat × State) : State :=
  let done (y : Nat × State) : State := y.2.emit (.readData rd off y.1)
  match rd with
  | .mgc => done x
  | .owner => s.barRequest 16 (done x) s
  | .tenant n => s.barRequest n (done x) (done (0, s))

/-- A read of a register that only the owner's BAR has, by the owner or by MGC. -/
def State.ownerAnswer (s : State) (rd : Reader) (off : Nat) (x : Nat × State) : State :=
  match rd with
  | .tenant _ => s
  | _ => s.answer rd off x

/-! ### The rate of the UART (R503, R650) -/

/-- The UART takes a rate; in Twilight it stays at 115 200 Bd (R650). -/
def State.setRate (s : State) (r : Nat) : State :=
  if s.rd R.PM_STAT_STATE = 2 then s else { s with con := { s.con with rate := r } }

/-- A write to BAUD takes effect after the byte in transmission ends (R503). -/
def State.baudWrite (s : State) (r : Nat) : State :=
  let s := s.wr R.CON_CFG_BAUD r
  if s.con.tx.isEmpty then { s.setRate r with con := { (s.setRate r).con with rateNext := none } }
  else { s with con := { s.con with rateNext := some (1, r) } }

/-! ### Ports -/

/-- A port of the list. -/
def State.port (s : State) (p : Nat) : PortState := s.ports.getD p PortState.reset

/-- Change a port. -/
def State.modPort (s : State) (p : Nat) (g : PortState → PortState) : State :=
  { s with ports := lmod s.ports p g }

/-- Port states of PORT_STAT.STATE (R127). -/
def isUp (s : State) (p : Nat) : Bool := s.rd (R.PORT_STAT_STATE p) == 3

/-- A port runs a near-end loopback: what it sends comes back to it, and its partner sees idle (R132) (DEDUCED, log entry 11). -/
def State.looped (s : State) (p : Nat) : Bool := s.rd (R.SX_CFG_LPBK p) == 1 || s.rd (R.SX_CFG_LPBK p) == 2

/-- A port sends something to its link partner (R132). -/
def State.sendOut (s : State) (p : Nat) (o : Sent) : State := if s.looped p then s else s.emit o

/-- The rate of a code of RATE_MAX, in kb/s (R123). -/
def rateKb (code : Nat) : Nat :=
  match code with
  | 0 => 10000
  | 1 => 100000
  | 2 => 1000000
  | 3 => 2500000
  | 4 => 5000000
  | _ => 10000000

/-- The rate in force of a port, in kb/s. -/
def State.rateKb (s : State) (p : Nat) : Nat := Machine.rateKb (s.rd (R.PORT_STAT_RATE p))

/-- The time of n bits at a rate in kb/s, in units of State.now, rounded up. -/
def bitsTime (bits kb : Nat) : Nat := ceilDiv (bits * 64000000) kb

/-- A word of 32 one-bit values. -/
def bits (n : Nat) (g : Nat → Bool) : Nat := (List.range n).foldl (fun v b => v + (if g b then 2 ^ b else 0)) 0

/-- One bit. -/
def bit1 (b : Bool) : Nat := if b then 1 else 0

end Sys2Proof.Machine
end

