-- ==== Sys2Proof/Machine/Crc.lean ====
section
/-! DEFINITION. Cyclic redundancy checks: the frame check sequence of IEEE 802.3, the CRC-32C of R182 and R216, and the
parametric CRC of R452. -/

namespace Sys2Proof.Machine

/-- One step of a reflected CRC register. -/
def crcShiftR (poly c : Nat) : Nat := if c % 2 = 1 then Nat.xor (c / 2) poly else c / 2

/-- A byte into a reflected CRC register. -/
def crcByteR (poly c : Nat) (b : Byte) : Nat :=
  let c := Nat.xor c b.toNat
  crcShiftR poly (crcShiftR poly (crcShiftR poly (crcShiftR poly
    (crcShiftR poly (crcShiftR poly (crcShiftR poly (crcShiftR poly c)))))))

/-- A reflected 32-bit CRC with initial value and final XOR of all ones (PRESUMED, log entry 13). -/
def crc32R (poly : Nat) (l : List Byte) : Nat :=
  Nat.xor (l.foldl (crcByteR poly) 0xFFFFFFFF) 0xFFFFFFFF

/-- CRC-32C (R182): polynomial 0x1EDC6F41, reflected. -/
def crc32c (l : List Byte) : Nat := crc32R 0x82F63B78 l

/-- The product of two polynomials modulo that of CRC-32C, with x^0 in bit 31 as in its reflected register; k bits of a are left. -/
def gfMul (a : Nat) : Nat → Nat → Nat
  | 0, _ => 0
  | k + 1, b => Nat.xor (if a.testBit k then b else 0) (gfMul a k (crcShiftR 0x82F63B78 b))

/-- x^n modulo the polynomial of CRC-32C, n below 2^k, where b is x. -/
def gfPow : Nat → Nat → Nat → Nat
  | 0, _, _ => 0x80000000
  | k + 1, n, b => gfMul (if n % 2 = 1 then b else 0x80000000) 32 (gfPow k (n / 2) (gfMul b 32 b))

/-- What a difference of word i of the retention pool changes in the CRC-32C over its 4 096 words, each least significant byte
first (R111) (DEDUCED, log entry 42). -/
def retPart (i w : Nat) : Nat := gfMul ((leBytes 4 w).foldl (crcByteR 0x82F63B78) 0) 32 (gfPow 17 (32 * (4095 - i)) 0x40000000)

/-- The CRC-32C of the retention pool (R111), where the words not listed are 0; `retZero` is that of 4 096 words of 0. -/
def poolCrc (m : SMap Nat) : Nat := m.foldl (fun a x => Nat.xor a (retPart x.1 x.2)) retZero

/-- The CRC of the frame check sequence of IEEE 802.3 (PRESUMED, log entry 13). -/
def fcsOf (l : List Byte) : Nat := crc32R 0xEDB88320 l

/-- A frame without FCS, with its FCS appended, least significant byte first on the wire. -/
def withFcs (l : List Byte) : List Byte := l ++ leBytes 4 (fcsOf l)

/-- The FCS at a frame's end matches its bytes. -/
def fcsGood (l : List Byte) : Bool :=
  decide (l.length ≥ 4) && (leNat (l.drop (l.length - 4)) == fcsOf (l.take (l.length - 4)))

/-- The bits of a number, most significant of w first. -/
def msbBits (w v : Nat) : List Bool := (List.range w).map (fun i => v.testBit (w - 1 - i))

/-- A number from bits, most significant first. -/
def ofBits (l : List Bool) : Nat := l.foldl (fun a b => 2 * a + (if b then 1 else 0)) 0

/-- Reflect the low w bits of a number. -/
def reflect (w v : Nat) : Nat := ofBits (msbBits w v).reverse

/-- A bit into an unreflected CRC register of width w. -/
def crcBit (w poly c : Nat) (b : Bool) : Nat :=
  let top := c.testBit (w - 1) != b
  let c' := (2 * c) % 2 ^ w
  if top then Nat.xor c' poly else c'

/-- The register of a parametric CRC after some bytes (R452, R453). -/
def crcFeed (w poly : Nat) (refin : Bool) (c : Nat) (l : List Byte) : Nat :=
  l.foldl (fun c b =>
    let bits := if refin then (msbBits 8 b.toNat).reverse else msbBits 8 b.toNat
    bits.foldl (crcBit w poly) c) c

/-- The parametric CRC of R452: width, polynomial, initial value, reflections and final XOR. -/
def crcParam (w poly init : Nat) (refin refout : Bool) (xorout : Nat) (l : List Byte) : Nat :=
  let c := crcFeed w poly refin (init % 2 ^ w) l
  Nat.xor (if refout then reflect w c else c) (xorout % 2 ^ w)

/-- The CCRC of a cell (R182): over the cell index, most significant byte first, and the cell's 128 bytes. -/
def ccrcOf (i : Nat) (bytes : List Byte) : Nat := crc32c (beBytes 4 i ++ sliceD bytes 0 128)

end Sys2Proof.Machine
end

