-- ==== Sys2Proof/Machine/Sha.lean ====
section
/-! DEFINITION. The hash functions of FIPS 180-4 that DGE computes, and HMAC of RFC 2104 from cached states (R433, R438, R444).
SHA-224 and SHA-256 work on 32-bit words, the others on 64-bit words; the constants of the former are the upper halves of
those of the latter. -/

namespace Sys2Proof.Machine

/-- ALG codes of R433 with 128-byte blocks. -/
def shaWide (alg : Nat) : Bool := decide (alg ≥ 2)

/-- The block size in bytes (R433). -/
def shaBlock (alg : Nat) : Nat := if shaWide alg then 128 else 64

/-- The word size in bits. -/
def shaBits (alg : Nat) : Nat := if shaWide alg then 64 else 32

/-- The digest size in bytes (R433). -/
def shaLen (alg : Nat) : Nat :=
  match alg with
  | 0 => 28
  | 1 => 32
  | 2 => 48
  | 3 => 64
  | _ => 32

/-- The 80 round constants of FIPS 180-4, section 4.2.3 (PRESUMED, log entry 13). -/
def shaK : List Nat :=
  [0x428A2F98D728AE22, 0x7137449123EF65CD, 0xB5C0FBCFEC4D3B2F, 0xE9B5DBA58189DBBC,
  0x3956C25BF348B538, 0x59F111F1B605D019, 0x923F82A4AF194F9B, 0xAB1C5ED5DA6D8118,
  0xD807AA98A3030242, 0x12835B0145706FBE, 0x243185BE4EE4B28C, 0x550C7DC3D5FFB4E2,
  0x72BE5D74F27B896F, 0x80DEB1FE3B1696B1, 0x9BDC06A725C71235, 0xC19BF174CF692694] ++
  [0xE49B69C19EF14AD2, 0xEFBE4786384F25E3, 0x0FC19DC68B8CD5B5, 0x240CA1CC77AC9C65,
  0x2DE92C6F592B0275, 0x4A7484AA6EA6E483, 0x5CB0A9DCBD41FBD4, 0x76F988DA831153B5,
  0x983E5152EE66DFAB, 0xA831C66D2DB43210, 0xB00327C898FB213F, 0xBF597FC7BEEF0EE4,
  0xC6E00BF33DA88FC2, 0xD5A79147930AA725, 0x06CA6351E003826F, 0x142929670A0E6E70] ++
  [0x27B70A8546D22FFC, 0x2E1B21385C26C926, 0x4D2C6DFC5AC42AED, 0x53380D139D95B3DF,
  0x650A73548BAF63DE, 0x766A0ABB3C77B2A8, 0x81C2C92E47EDAEE6, 0x92722C851482353B,
  0xA2BFE8A14CF10364, 0xA81A664BBC423001, 0xC24B8B70D0F89791, 0xC76C51A30654BE30,
  0xD192E819D6EF5218, 0xD69906245565A910, 0xF40E35855771202A, 0x106AA07032BBD1B8] ++
  [0x19A4C116B8D2D0C8, 0x1E376C085141AB53, 0x2748774CDF8EEB99, 0x34B0BCB5E19B48A8,
  0x391C0CB3C5C95A63, 0x4ED8AA4AE3418ACB, 0x5B9CCA4F7763E373, 0x682E6FF3D6B2B8A3,
  0x748F82EE5DEFB2FC, 0x78A5636F43172F60, 0x84C87814A1F0AB72, 0x8CC702081A6439EC,
  0x90BEFFFA23631E28, 0xA4506CEBDE82BDE9, 0xBEF9A3F7B2C67915, 0xC67178F2E372532B] ++
  [0xCA273ECEEA26619C, 0xD186B8C721C0C207, 0xEADA7DD6CDE0EB1E, 0xF57D4F7FEE6ED178,
  0x06F067AA72176FBA, 0x0A637DC5A2C898A6, 0x113F9804BEF90DAE, 0x1B710B35131C471B,
  0x28DB77F523047D84, 0x32CAAB7B40C72493, 0x3C9EBE0A15C9BEBC, 0x431D67C49C100D4C,
  0x4CC5D4BECB3E42B6, 0x597F299CFC657E2A, 0x5FCB6FAB3AD6FAEC, 0x6C44198C4A475817]

/-- The initial values of SHA-512 (PRESUMED, log entry 13). -/
def shaH512 : List Nat := [0x6A09E667F3BCC908, 0xBB67AE8584CAA73B, 0x3C6EF372FE94F82B, 0xA54FF53A5F1D36F1,
  0x510E527FADE682D1, 0x9B05688C2B3E6C1F, 0x1F83D9ABFB41BD6B, 0x5BE0CD19137E2179]

/-- The initial values of SHA-384 (PRESUMED, log entry 13). -/
def shaH384 : List Nat := [0xCBBB9D5DC1059ED8, 0x629A292A367CD507, 0x9159015A3070DD17, 0x152FECD8F70E5939,
  0x67332667FFC00B31, 0x8EB44A8768581511, 0xDB0C2E0D64F98FA7, 0x47B5481DBEFA4FA4]

/-- The initial values of SHA-512/256 (PRESUMED, log entry 13). -/
def shaH512_256 : List Nat := [0x22312194FC2BF72C, 0x9F555FA3C84C64C2, 0x2393B86B6F53B151, 0x963877195940EABD,
  0x96283EE2A88EFFE3, 0xBE5E1E2553863992, 0x2B0199FC2C85B8AA, 0x0EB72DDC81C52CA2]

/-- The initial chaining value of an algorithm. -/
def shaInit (alg : Nat) : List Nat :=
  match alg with
  | 0 => shaH384.map (· % 2 ^ 32)
  | 1 => shaH512.map (· / 2 ^ 32)
  | 2 => shaH384
  | 3 => shaH512
  | _ => shaH512_256

/-- Rotate right in w bits. -/
def rotr (w n x : Nat) : Nat := x / 2 ^ n + x % 2 ^ n * 2 ^ (w - n)

/-- The four Sigma and sigma functions of FIPS 180-4: two rotations and a third rotation or a shift. -/
def shaSigma (w a b c : Nat) (shift : Bool) (x : Nat) : Nat :=
  Nat.xor (Nat.xor (rotr w a x) (rotr w b x)) (if shift then x / 2 ^ c else rotr w c x)

/-- sigma0 and sigma1 of the message schedule, Sigma0 and Sigma1 of the rounds. -/
def shaS0 (wide : Bool) (x : Nat) : Nat := if wide then shaSigma 64 1 8 7 true x else shaSigma 32 7 18 3 true x
def shaS1 (wide : Bool) (x : Nat) : Nat := if wide then shaSigma 64 19 61 6 true x else shaSigma 32 17 19 10 true x
def shaB0 (wide : Bool) (x : Nat) : Nat := if wide then shaSigma 64 28 34 39 false x else shaSigma 32 2 13 22 false x
def shaB1 (wide : Bool) (x : Nat) : Nat := if wide then shaSigma 64 14 18 41 false x else shaSigma 32 6 11 25 false x

/-- The rounds of one block: the constants, the chaining variables a to h, and the sixteen schedule words ahead. -/
def shaRounds (wide : Bool) (m : Nat) : List Nat → Nat → Nat → Nat → Nat → Nat → Nat → Nat → Nat → List Nat → List Nat
  | [], a, b, c, d, e, f, g, h, _ => [a, b, c, d, e, f, g, h]
  | k :: ks, a, b, c, d, e, f, g, h, w =>
    let w0 := w.headD 0
    let ch := Nat.xor (Nat.land e f) (Nat.land (m - 1 - e) g)
    let mj := Nat.xor (Nat.xor (Nat.land a b) (Nat.land a c)) (Nat.land b c)
    let t1 := h + shaB1 wide e + ch + k + w0
    let t2 := shaB0 wide a + mj
    let wn := (shaS1 wide (w.getD 14 0) + w.getD 9 0 + shaS0 wide (w.getD 1 0) + w0) % m
    shaRounds wide m ks ((t1 + t2) % m) a b c ((d + t1) % m) e f g (w.drop 1 ++ [wn])

/-- The compression of one block into a chaining value. -/
def shaCompress (alg : Nat) (h : List Nat) (block : List Byte) : List Nat :=
  let wide := shaWide alg
  let m := 2 ^ shaBits alg
  let n := shaBits alg / 8
  let w := (List.range 16).map (fun i => beNat (sliceD block (i * n) n))
  let ks := if wide then shaK else (shaK.take 64).map (· / 2 ^ 32)
  let r := shaRounds wide m ks (h.getD 0 0) (h.getD 1 0) (h.getD 2 0) (h.getD 3 0) (h.getD 4 0) (h.getD 5 0)
    (h.getD 6 0) (h.getD 7 0) w
  List.zipWith (fun x y => (x + y) % m) h r

/-- Compress whole blocks from the front of some bytes, at most `fuel` of them; what remains is a partial block. -/
def shaFeed (alg : Nat) : Nat → List Nat → List Byte → List Nat × List Byte
  | 0, h, l => (h, l)
  | fuel + 1, h, l =>
    if l.length < shaBlock alg then (h, l)
    else shaFeed alg fuel (shaCompress alg h (l.take (shaBlock alg))) (l.drop (shaBlock alg))

/-- The padding of FIPS 180-4 after a message of n bytes in all (R438). -/
def shaPad (alg n : Nat) : List Byte :=
  let b := shaBlock alg
  let f := if shaWide alg then 16 else 8
  let z := (b - (n + 1 + f) % b) % b
  0x80 :: (List.replicate z 0 ++ beBytes f (8 * n))

/-- The digest bytes of a chaining value. -/
def shaOut (alg : Nat) (h : List Nat) : List Byte := ((h.map (beBytes (shaBits alg / 8))).flatten).take (shaLen alg)

/-- Finish a computation: `n` bytes in all have been absorbed, of which `rest` are not yet compressed (R438). -/
def shaFinish (alg : Nat) (h : List Nat) (n : Nat) (rest : List Byte) : List Byte :=
  let l := rest ++ shaPad alg n
  shaOut alg (shaFeed alg (l.length / shaBlock alg) h l).1

/-- The digest of a message. -/
def sha (alg : Nat) (l : List Byte) : List Byte :=
  let r := shaFeed alg (l.length / shaBlock alg) (shaInit alg) l
  shaFinish alg r.1 l.length r.2

/-- The key of an HMAC padded to one block (R444) (PRESUMED, log entry 13). -/
def hmacKey (alg : Nat) (key : List Byte) : List Byte :=
  sliceD (if key.length > shaBlock alg then sha alg key else key) 0 (shaBlock alg)

/-- The cached inner state of a key: the block of the key XOR 0x36 bytes (R444). -/
def hmacInner (alg : Nat) (key : List Byte) : List Nat :=
  shaCompress alg (shaInit alg) ((hmacKey alg key).map (· ^^^ 0x36))

/-- The cached outer state of a key: the block of the key XOR 0x5C bytes (R444). -/
def hmacOuter (alg : Nat) (key : List Byte) : List Nat :=
  shaCompress alg (shaInit alg) ((hmacKey alg key).map (· ^^^ 0x5C))

/-- The outer computation of an HMAC, over the inner digest. -/
def hmacFinish (alg : Nat) (outer : List Nat) (inner : List Byte) : List Byte :=
  shaFinish alg outer (shaBlock alg + inner.length) inner

/-- HMAC of a message from the cached states of its key. -/
def hmac (alg : Nat) (inner outer : List Nat) (l : List Byte) : List Byte :=
  let r := shaFeed alg (l.length / shaBlock alg) inner l
  hmacFinish alg outer (shaFinish alg r.1 (shaBlock alg + l.length) r.2)

/-- Digest units of a computation over m bytes (R435). -/
def digestUnits (alg m : Nat) (hm : Bool) : Nat :=
  if shaWide alg then 2 * (ceilDiv (m + 17) 128 + (if hm then 1 else 0))
  else ceilDiv (m + 9) 64 + (if hm then 1 else 0)

end Sys2Proof.Machine
end

