-- ==== Sys2Proof/Machine/Cells.lean ====
section
/-! DEFINITION. The shared buffer (spec/06_buffer_and_folding.md): taking and freeing cells, writing and reading them, header
folding and unfolding. -/

namespace Sys2Proof.Machine

/-! ### Free cells (R194 to R197) -/

/-- Cells of the buffer (R178). -/
def cellCount : Nat := 49152

/-- FREE_CELLS (R194). -/
def State.freeCells (s : State) : Nat := cellCount - s.buf.cells.length

/-- FREE_MIN and FREE_LOW follow FREE_CELLS (R196). -/
def State.freeFlags (s : State) : State :=
  let n := s.freeCells
  let s := s.wr R.FREE_MIN (min (s.rd R.FREE_MIN) n)
  if n < s.rd R.BUF_THR_LOW then s.setFlag R.BUF_STAT_FREE_LOW 227
  else if n ≥ s.rd R.BUF_THR_LOW + 256 then s.put R.BUF_STAT_FREE_LOW false
  else s

/-- The class count of a port that R172 compares changes by cells taken or freed. -/
def State.classCells (s : State) (src : Source) (c : Nat) (g : Nat → Nat) : State :=
  match src with
  | .port p => s.modPort p (fun q => { q with classCells := lmod q.classCells c g })
  | _ => s

/-- Take a free cell (R194), the one with the lowest index, the spec giving the free list no order; `mgmt`
counts it in MGMT_HELD (R195) (DESIGN CHOICE, log entry 93). -/
def State.takeCell (s : State) (mgmt : Bool) : Option (Nat × State) :=
  match mfree s.buf.cells cellCount with
  | none => none
  | some i =>
    let s := { s with buf := { s.buf with cells := mput s.buf.cells i none } }
    let s := if mgmt then s.wr R.MGMT_HELD (s.rd R.MGMT_HELD + 1) else s
    some (i, s.freeFlags)

/-- Free a frame's cells, all in one cycle (R194). -/
def State.freeList (s : State) (l : List Nat) (mgmt : Bool) : State :=
  let s := { s with buf := { s.buf with cells := l.foldl mdel s.buf.cells } }
  let s := if mgmt then s.wr R.MGMT_HELD (s.rd R.MGMT_HELD - l.length) else s
  s.freeFlags

/-- How a frame begins at its SFD or first fetched byte (R115). -/
def State.beginAs (s : State) : Begun :=
  if s.freeCells ≥ 576 then .ordinary else if s.freeCells ≥ 512 then .management else .cannot

/-! ### Header folding (R198 to R205) -/

/-- The template in force with an index; an unlisted one is not valid (R199). -/
def State.tpl (s : State) (t : Nat) : Tpl := mgetD s.buf.tplForce t ⟨false, 14, 0, []⟩

/-- The fixed bytes of a template equal those of a frame (R201). -/
def Tpl.fits (t : Tpl) (bytes : List Byte) : Bool :=
  (List.range t.tl).all (fun j => !t.mask.testBit j || bytes.getD j 0 == t.bytes.getD j 0)

/-- NFIX of a template (R198). -/
def Tpl.nfix (t : Tpl) : Nat := ((List.range t.tl).filter (fun j => t.mask.testBit j)).length

/-- The first template of a fold group, and their number, for a source (R200). -/
def State.foldGroup (s : State) (src : Source) : Nat × Nat :=
  match src with
  | .port p => (s.inf (R.FOLD_GRP_BASE p), s.inf (R.FOLD_GRP_COUNT p))
  | .ring _ _ => (s.inf R.FOLD_GRP_H_BASE, s.inf R.FOLD_GRP_H_COUNT)
  | .mgc => (0, 0)

/-- A frame as folded against a template: the fold record, the variable bytes and the rest (R202). -/
def foldBytes (idx : Nat) (t : Tpl) (bytes : List Byte) : List Byte :=
  leBytes 2 idx ++ ((List.range t.tl).filter (fun j => !t.mask.testBit j)).map (fun j => bytes.getD j 0)
    ++ bytes.drop t.tl

/-- The variable bytes of a folded frame put back among the fixed ones (R203). -/
def unfoldHead (t : Tpl) : Nat → Nat → List Byte → List Byte
  | 0, _, _ => []
  | n + 1, j, v =>
    if t.mask.testBit j then t.bytes.getD j 0 :: unfoldHead t n (j + 1) v
    else v.headD 0 :: unfoldHead t n (j + 1) v.tail

/-- The original bytes of a folded frame (R203). -/
def unfold (t : Tpl) (stored : List Byte) : List Byte :=
  let v := stored.drop 2
  unfoldHead t t.tl 0 v ++ v.drop (t.tl - t.nfix)

/-- The stored form of a frame: folded against a template or as it is. -/
def State.storedForm (s : State) (fold : Option Nat) (bytes : List Byte) : List Byte :=
  match fold with
  | some t => foldBytes t (s.tpl t) bytes
  | none => bytes

/-! ### Writing and reading cells (R178 to R183) -/

/-- Write cell number k of a frame's chain with its part of the stored bytes (R179, R181, R182). -/
def State.writeCell (s : State) (chain : List Nat) (folded : Bool) (stored : List Byte) (k : Nat) : State :=
  match chain[k]? with
  | none => s
  | some i =>
    let b := (stored.drop (128 * k)).take 128
    let c : CellRec := ⟨b, chain[k + 1]?, k == 0, folded && k == 0, ccrcOf i b⟩
    { s with buf := { s.buf with cells := mput s.buf.cells i (some c) } }

/-- Write every cell of a frame's chain. -/
def State.writeCells (s : State) (chain : List Nat) (folded : Bool) (stored : List Byte) : State :=
  (List.range chain.length).foldl (fun s k => s.writeCell chain folded stored k) s

/-- The stored bytes of a frame, read along its chain. -/
def State.storedBytes (s : State) (chain : List Nat) : List Byte :=
  (chain.map (fun i =>
    match mget s.buf.cells i with
    | some (some c) => c.bytes
    | _ => [])).flatten

/-- The original bytes of a stored frame, as every reader sees them (R203). -/
def State.frameBytes (s : State) (f : Frame) : List Byte :=
  let st := s.storedBytes f.cells
  match f.folded with
  | some t => unfold (s.tpl t) st
  | none => st

/-- The reference count of a template (R202). -/
def State.tplRefs (s : State) (t : Nat) : Nat := mgetD s.buf.tplRefs t 0

/-- Change the reference count of a template (R202). -/
def State.setRefs (s : State) (t n : Nat) : State :=
  { s with buf := { s.buf with tplRefs := if n = 0 then mdel s.buf.tplRefs t else mput s.buf.tplRefs t n } }

end Sys2Proof.Machine
end

