-- ==== Sys2Proof/Machine/Rings.lean ====
section
/-! DEFINITION. Descriptor rings and record rings beside the host (spec/12_descriptor_rings.md): where an entry lies, which
descriptors the device holds, what completions carry, and the writing of ready completions. -/

namespace Sys2Proof.Machine

/-! ### Rings (R351, R352, R356) -/

/-- The dynamic state of ring r of function f. -/
def State.ring (s : State) (f r : Nat) : Ring := mgetD s.hif.rings (11 * f + r) Ring.reset

/-- Write it. -/
def State.setRing (s : State) (f r : Nat) (v : Ring) : State :=
  { s with hif := { s.hif with
      rings := if v = Ring.reset then mdel s.hif.rings (11 * f + r) else mput s.hif.rings (11 * f + r) v } }

/-- Change it. -/
def State.modRing (s : State) (f r : Nat) (g : Ring → Ring) : State := s.setRing f r (g (s.ring f r))

/-- A ring is enabled and not resetting. -/
def State.ringOn (s : State) (f r : Nat) : Bool :=
  s.bit (R.RING_CFG_EN f r) && !s.bit (R.RING_STAT_RESETTING f r)

/-- Entries of a ring (R352). -/
def State.ringSize (s : State) (f r : Nat) : Nat := 2 ^ s.rd (R.RING_CFG_LOG2_SIZE f r)

/-- The address of the entry at a position (R352, R356). -/
def State.entryAddr (s : State) (f r pos : Nat) : Nat :=
  s.rd64 (R.RING_BASE_LO f r) (R.RING_BASE_HI f r) + 32 * (pos % s.ringSize f r)

/-- The IRC source of a ring (R460). -/
def ringSource (f r : Nat) : Nat :=
  if f < 16 then 10 * f + r else if r < 8 then 160 + r else if r = 9 then 168 else 169

/-- The status of a ring changes with its state: ACTIVE (R353). -/
def State.ringActive (s : State) (f r : Nat) : State :=
  s.put (R.RING_STAT_ACTIVE f r) (s.ringOn f r)

/-- How far a position lies beyond CPL. -/
def State.fromCpl (s : State) (f r pos : Nat) : Nat := (pos + 2 ^ 16 - s.rd (R.CPL f r)) % 2 ^ 16

/-- The tick in which the descriptor at a position was posted: its doorbell's (R51). -/
def State.bellTick (s : State) (f r pos : Nat) : Nat :=
  (((s.ring f r).bells.find? (fun b => decide (s.fromCpl f r pos < s.fromCpl f r b.2))).map (·.1)).getD s.tick.num

/-- A doorbell write posts descriptors up to a value; writes of one tick count as one. -/
def State.ringBell (s : State) (f r n : Nat) : State :=
  s.modRing f r (fun x => { x with
    bells := x.bells.filter (fun b => decide (s.fromCpl f r b.2 ≠ 0) && b.1 != s.tick.num) ++ [(s.tick.num, n)] })

/-- The positions from one on, as far as the doorbell, that hold no descriptor in the device's hands. -/
def freshFrom (held : List Nat) : Nat → Nat → List Nat
  | 0, _ => []
  | k + 1, p =>
    let t := freshFrom held k ((p + 1) % 2 ^ 16)
    if held.contains p then t else p :: t

/-- The descriptors of a ring that are posted from HEAD on and not in the device's hands. -/
def State.fresh (s : State) (f r : Nat) : List Nat :=
  let h := s.rd (R.HEAD f r)
  freshFrom ((s.ring f r).descs.map (·.pos)) ((s.rd (R.DOORBELL f r) + 2 ^ 16 - h) % 2 ^ 16) h

/-- A descriptor comes into the device's hands, in ring order. -/
def State.addDesc (s : State) (f r : Nat) (d : Desc) : State :=
  s.modRing f r (fun x =>
    let before (y : Desc) : Bool := decide (s.fromCpl f r y.pos < s.fromCpl f r d.pos)
    { x with descs := x.descs.filter before ++ d :: x.descs.filter (fun y => !before y) })

/-- HIF takes the next descriptor of a ring, and HEAD moves on to the one after it; it lies further where a reset of HIF has turned
HEAD back before work that is accepted (R356, R381) (DEDUCED, log entry 66). -/
def State.takeDesc (s : State) (f r : Nat) (st : Nat → DescState) (addr : Nat → Nat) : State :=
  match s.fresh f r with
  | [] => s
  | p :: t => (s.addDesc f r ⟨p, addr p, st p⟩).wr (R.HEAD f r) (t.headD (s.rd (R.DOORBELL f r)))

/-- Change the descriptor at a position. -/
def State.modDesc (s : State) (f r pos : Nat) (g : Desc → Desc) : State :=
  s.modRing f r (fun x => { x with descs := x.descs.map (fun d => if d.pos = pos then g d else d) })

/-- The descriptor at a position becomes ready for its completion (R366). -/
def State.readyDesc (s : State) (f r pos : Nat) (c : Cpl) : State :=
  s.modDesc f r pos (fun d => { d with st := .ready c })

/-- A function transfers nothing: it is in reset, quiesced, or absent (R333, R343, R347). -/
def State.fnDown (s : State) (f : Nat) : Bool :=
  s.bitAt R.HIF_FLR_STAT f || s.bitAt R.HIF_QUIESCED f || (decide (f < 16) && decide (s.hif.numVfs ≤ f))

/-- No reset of HIF is in progress (R109). -/
def State.hifUp (s : State) : Bool := !s.bitAt R.ENG_RST_STAT 8

/-! ### Units of host transfers (R327) -/

/-- Bytes of a Max Payload Size or Max Read Request Size code. -/
def pcieBytes (code : Nat) : Nat := 128 * 2 ^ code

/-- The longest posted write. -/
def State.wrUnit (s : State) : Nat := min (pcieBytes s.hif.mps) 256

/-- The longest read request. -/
def State.rdUnit (s : State) : Nat := min (pcieBytes s.hif.mrrs) 256

/-- The capacity of each HIF unit per nominal tick for a trained link (R54) (DEDUCED, DESIGN CHOICE, log entries 36, 53). -/
def hifCapacity (speed width : Nat) : Nat :=
  match speed, width with
  | 4, 4 => 1700 | 4, 2 => 850 | 4, 1 => 425
  | 3, 4 => 850 | 3, 2 => 425 | 3, 1 => 212
  | 2, 4 => 430 | 2, 2 => 215 | 2, 1 => 107
  | 1, 4 => 215 | 1, 2 => 107 | 1, 1 => 53
  | _, _ => Config.hifNoLink

/-- The capacity of a HIF unit in 16ths per nominal tick of the default period (R54, R327). -/
def State.hostCapacity16 (s : State) : Nat :=
  hifCapacity (s.rd R.HIF_LINK_SPEED) (s.rd R.HIF_LINK_WIDTH) * (if s.wrUnit = 128 ∨ s.rdUnit = 128 then 8 else 16)

/-- The budget ceiling of a capacity in 16ths, in a tick of a period (R55). -/
def ceiling16 (cap period : Nat) : Nat := 9 * 63 * cap * 2 ^ period / (10 * 64 * 16 * 4)

/-- Cut bytes into pieces of at most n. -/
def chunks (n : Nat) : Nat → List Byte → List (List Byte)
  | 0, _ => []
  | k + 1, l => if l.isEmpty then [] else l.take n :: chunks n k (l.drop n)

/-- The posted writes of bytes from an address upward, each with its address. -/
def State.cutWrites (s : State) (addr : Nat) (b : List Byte) : List (Nat × List Byte) :=
  (chunks s.wrUnit b.length b).zipIdx.map (fun p => (addr + s.wrUnit * p.2, p.1))

/-- Posted writes of bytes from an address upward. -/
def State.writeBytes (s : State) (fn addr : Nat) (relaxed : Bool) (b : List Byte) : State :=
  (s.cutWrites addr b).foldl (fun s p => s.emit (.write fn relaxed p.1 p.2)) s

/-- Entries of 32 bytes as bytes, dword by dword, least significant byte first. -/
def entryBytes (l : List (List Nat)) : List Byte :=
  (l.map (fun w => (w.map (leBytes 4)).flatten)).flatten

/-! ### Completions (R363 to R374) -/

/-- Statuses of R364. -/
def stOk : Nat := 0x00
def stAccepted : Nat := 0x01
def stRefused : Nat := 0x02
def stFetchError : Nat := 0x03
def stFetchTimeout : Nat := 0x04
def stReturned : Nat := 0x05
def stMalformed : Nat := 0x0E
def stAborted : Nat := 0x0F

/-- DONE in D7. -/
def doneBit : Nat := 2 ^ 31

/-- A completion of a receive descriptor that carries only its status and DONE; it is due two ticks after the tick in which its work
entered HIF (R50, R366). -/
def bareCpl (status due now : Nat) : Cpl := ⟨[status, 0, 0, 0, 0, 0, 0, doneBit], 0, false, due, now, due - 2, none, none⟩

/-- A transmit completion, with the flow and sequence of an accepted frame (R113, R363). -/
def txCpl (status reason : Nat) (tsPend : Bool) (flow : Option Nat) (nexit seq acc cookie due now : Nat) : Cpl :=
  ⟨[status + 2 ^ 8 * reason + (if tsPend then 2 ^ 13 else 0) + (if flow.isSome then 2 ^ 14 else 0) + 2 ^ 16 * nexit,
      flow.getD 0, seq, acc, 0, 0, cookie, doneBit], 12, false, due, now, due - 2, none, none⟩

/-- Two bytes of a frame's metadata record. -/
def Frame.meta2 (f : Frame) (i : Nat) : Nat := beNat (sliceD f.metaRec i 2)

/-- A receive or exception-queue completion of an exit of a frame; `trap` puts TRAP_INFO in D6 (R370 to R374) (DEDUCED, log entry 24). -/
def rxCpl (f : Frame) (x : Exit) (status disp len : Nat) (elv : Bool) (trap : Option Nat) (due now : Nat)
    (exit : Option (Nat × Nat)) : Cpl :=
  let p := (f.metaRec.getD 12 0).toNat
  let (kind, id, _) : Nat × Nat × Nat := match f.src with
    | .port q => (0, q.val, 0)
    | .ring g r => (1, g.val, r.val)
    | .mgc => (1, 16, 0)
  let rm (op i : Nat) : Bool := trap.isNone && op == 1 && p.testBit i
  let sr := rm x.sOp 0
  let cr := rm x.cOp 1
  let rr := rm x.rOp 2
  let t := f.stamp.td0 / (2 ^ 22 * 1000000000) % 2 ^ 40
  let b (c : Bool) (i : Nat) : Nat := if c then 2 ^ i else 0
  ⟨[status + b f.stamp.v0 9 + b elv 10 + b trap.isSome 11 + b sr 12 + b cr 13 + b rr 14 + 2 ^ 16 * disp
        + 2 ^ 20 * kind + 2 ^ 21 * id,
      len + 2 ^ 16 * f.flow, f.seq, t % 2 ^ 32, t / 2 ^ 32 + 2 ^ 16 * (f.accSec % 2 ^ 16), f.accSec / 2 ^ 16 % 2 ^ 32,
      (match trap with
        | some i => i
        | none => (if sr then f.meta2 16 else 0) + 2 ^ 16 * (if cr then f.meta2 18 else 0)),
      (if rr then f.meta2 20 else 0) + doneBit], 8, false, due, now, f.resTick, exit, none⟩

/-- The ring of a function exit (R95, R351). -/
def exitRing (dest sub : Nat) : Option (Nat × Nat) :=
  if 8 ≤ dest ∧ dest ≤ 23 then some (dest - 8, 4 + sub)
  else if dest = 24 then some (16, if sub = 7 then 10 else 4 + sub)
  else none

/-- The reserved descriptor of an exit that takes another disposition than DELIVERED or FLR_ABORT is handed back (R373);
the disposition QUIESCED hands nothing back, since no transfer follows it (R606). -/
def State.returnDesc (s : State) (f : Frame) (h i : Nat) (x : ExitRec) (elv : Bool) (code : Nat) : State :=
  match exitRing x.exit.dest x.exit.sub with
  | none =>
    if x.exit.dest = 25 then
      { s with hif := { s.hif with mgc := s.hif.mgc.filter (fun p => !(p.1 == h && p.2 == i)) } }
    else s
  | some (g, r) =>
    if code = 1 ∨ code = 7 ∨ code = 0xB then s
    else s.readyDesc g r x.desc { rxCpl f x.exit stReturned code 0 elv none (f.accTick + 2) s.now none with frame := some h }

/-! ### Writing completions (R366, R367, R380) -/

/-- An interrupt of a ring after a completion or a record that it writes, with its deadline tick (R50, R461). -/
def State.ringIrq (s : State) (f r due : Nat) : State := s.raiseBy (ringSource f r) due

/-- The ready completions that stand in front of a ring, in ring order. -/
def readyFront : List Desc → List (Desc × Cpl)
  | [] => []
  | d :: t =>
    match d.st with
    | .ready c => (d, c) :: readyFront t
    | _ => []

/-- The Early Look records of a tenant that wait to be written. -/
def State.elRecs (s : State) (n : Nat) : List ElRec := mgetD s.hif.el n []

/-- The CONFIRM record of the frame of a receive completion is still to be written (R390). -/
def State.confirmDue (s : State) (f r : Nat) (c : Cpl) : Bool :=
  decide (4 ≤ r) && c.frame.isSome && (s.elRecs f).any (fun e => e.kind == 0x13 && e.frame == c.frame)

/-- The batch that HIF would write now: consecutive positions, up to 8 entries, 4 with units of 128 bytes, up to the end of
the ring (R380), and none before its frame's CONFIRM (R390). -/
def State.batch (s : State) (f r : Nat) : List (Desc × Cpl) :=
  let l := (readyFront (s.ring f r).descs).takeWhile (fun p => !s.confirmDue f r p.2)
  let room := match l with
    | [] => 0
    | (d, _) :: _ => s.ringSize f r - d.pos % s.ringSize f r
  l.take (min (s.wrUnit / 32) room)

/-- The deadline tick of a completion has less than 4 µs left (R380). -/
def State.nearEnd (s : State) (due : Nat) : Bool :=
  decide (s.tick.num > due) || (s.tick.num == due && decide (s.nextBoundary < s.now + 4000 * unitsPerNs))

/-- Entries that lie ready, each with the instant from which on and its deadline tick, are due to be written (R380) (DEDUCED, log entry 27). -/
def State.wbDue (s : State) (l : List (Nat × Nat)) : Bool :=
  !l.isEmpty && (decide (l.length ≥ s.wrUnit / 32) || s.rd R.WB_COALESCE == 0
    || l.any (fun p => decide (s.now ≥ p.1 + s.rd R.WB_COALESCE * unitsPerNs)) || l.any (fun p => s.nearEnd p.2))

/-- A batch of completions is due to be written (R380). -/
def State.batchDue (s : State) (l : List (Desc × Cpl)) : Bool := s.wbDue (l.map (fun p => (p.2.readyAt, p.2.due)))

/-- Whether the exit that a completion delivers carries LATE in its entry (R367). -/
def State.exitLate (s : State) (e : Option (Nat × Nat)) : Bool :=
  match e with
  | none => false
  | some (h, i) =>
    match mget s.frames h with
    | none => false
    | some f =>
      match f.exits[i]? with
      | none => false
      | some x => ((mget s.led.entries x.entry).map (·.late)).getD false

/-- Some exit entry of a frame carries LATE (R367). -/
def State.frameLate (s : State) (h : Option Nat) : Bool :=
  match h.bind (mget s.frames) with
  | none => false
  | some f => f.exits.any (fun x => x.disp.isNone && ((mget s.led.entries x.entry).map (·.late)).getD false)

/-- The dwords of a completion as written now, with LATE (R77, R367): of a receive completion by its own exit's entry, of a transmit
completion by any of its frame's. -/
def State.cplWords (s : State) (c : Cpl) : List Nat :=
  let late := decide (c.lateBit ≠ 0)
    && (c.late || decide (s.tick.num > c.due) || s.exitLate c.exit || (c.lateBit == 12 && s.frameLate c.frame))
  match c.words with
  | d0 :: t => (d0 + (if late then 2 ^ c.lateBit else 0)) :: t
  | [] => []

/-- The counters and fields that a written completion moves (chapter 12, registers). -/
def State.cplCount (s : State) (f r : Nat) (w : List Nat) : State :=
  let st := w.headD 0 % 256
  if st = stRefused then (s.inc (R.RING_CNT0 f r)).wr (R.RING_STAT_LAST_REASON f r) (w.headD 0 / 256 % 16)
  else if st = stReturned then s.inc (R.RING_CNT0 f r)
  else if st = stMalformed then s.inc (R.RING_CNT2 f r)
  else if st = stFetchError ∨ st = stFetchTimeout then s.inc (R.RING_CNT3 f r)
  else s

/-- HIF writes a batch: one posted write, CPL advances, the ring's source is raised for each completion. -/
def State.writeBatch (s : State) (f r : Nat) (l : List (Desc × Cpl)) : State :=
  match l with
  | [] => s
  | (d, _) :: _ =>
    let ws := l.map (fun p => s.cplWords p.2)
    let ends := l.filterMap (fun p => p.2.exit.map (fun e => (e.1, e.2, true)))
    let tlp := (false, s.entryAddr f r d.pos, entryBytes ws)
    let s := s.emit (.write f false tlp.2.1 tlp.2.2)
    let s := (ws.zip l).foldl (fun s w => (s.cplCount f r w.1).ringIrq f r w.2.2.due) s
    let s := s.wr (R.CPL f r) (s.rd (R.CPL f r) + l.length)
    let s := s.modRing f r (fun x => { x with descs := x.descs.drop l.length })
    { s with hif := { s.hif with posted := s.hif.posted ++ [⟨f, ends, [tlp]⟩] } }

end Sys2Proof.Machine
end

