-- ==== Sys2Proof/Machine/Ledger.lean ====
section
/-! DEFINITION. The acceptance ledger (spec/03_accepted_work.md): flow records, exit entries and their stages, dispositions,
the delivered mark and its retained copy. -/

namespace Sys2Proof.Machine

/-- A flow record at power-on (R92). -/
def FlowRec.reset : FlowRec := ⟨0, 0, 31, false, false, false, 0, 0, 0⟩

/-- The record of a flow (R91). -/
def State.flow (s : State) (x : Nat) : FlowRec := mgetD s.led.flows x FlowRec.reset

/-- Write a flow record. -/
def State.setFlow (s : State) (x : Nat) (v : FlowRec) : State :=
  { s with led := { s.led with flows := if v = FlowRec.reset then mdel s.led.flows x else mput s.led.flows x v } }

/-- Sequence a is newer than sequence b (R90). -/
def newer (a b : Nat) : Bool :=
  let d := (a + 2 ^ 32 - b % 2 ^ 32) % 2 ^ 32
  decide (0 < d ∧ d < 2 ^ 31)

/-- Entries of the entry store (R95). -/
def entryMax : Nat := 65536

/-- ENTRY_FREE: free entries. -/
def State.entryFree (s : State) : Nat := entryMax - s.led.entries.length

/-- ENTRY_LOW follows the number of free entries (R98). -/
def State.entryLow (s : State) : State := s.put R.LED_STAT_ENTRY_LOW (decide (s.entryFree < 1024))

/-- Write an exit entry into a free place of the store (R95). -/
def State.openEntry (s : State) (e : Entry) : Nat × State :=
  let i := (mfree s.led.entries entryMax).getD 0
  let s := { s with led := { s.led with entries := mput s.led.entries i e } }
  let s := if e.mirror then s else
    let f := s.flow e.flow
    s.setFlow e.flow { f with inflight := f.inflight + 1 }
  (i, s.entryLow.spend 3 1)

/-- Change an open entry. -/
def State.modEntry (s : State) (i : Nat) (g : Entry → Entry) : State :=
  match mget s.led.entries i with
  | none => s
  | some e => { s with led := { s.led with entries := mput s.led.entries i (g e) } }

/-- The open non-mirror sequences of a flow. -/
def State.openSeqs (s : State) (x : Nat) : List Nat :=
  (s.led.entries.filter (fun p => p.2.flow == x && !p.2.mirror)).map (fun p => p.2.seq)

/-- The oldest of some sequences (R90). -/
def oldestSeq : List Nat → Option Nat
  | [] => none
  | a :: t =>
    match oldestSeq t with
    | none => some a
    | some b => some (if newer a b then b else a)

/-- LAST_DEL advances as far as no open non-mirror entry holds it back, and is copied to retention (R93, R111). -/
def State.advanceDel (s : State) (x : Nat) : State :=
  let f := s.flow x
  let new := match oldestSeq (s.openSeqs x) with
    | some q => (q + 2 ^ 32 - 1) % 2 ^ 32
    | none => f.lastAcc
  if newer new f.lastDel then
    let s := s.setFlow x { f with lastDel := new }
    { s with led := { s.led with
        retention := if new = 0 then mdel s.led.retention x else mput s.led.retention x new
        retCrc := Nat.xor s.led.retCrc (retPart x (Nat.xor (mgetD s.led.retention x 0) new)) } }
  else s

/-- An event record becomes due to the event ring of a function (R99, R100); the owner's is 16. Its deadline is the end of the next
tick (R50, R378) (DEDUCED, log entries 27, 58). -/
def State.event (s : State) (fn : Nat) (e : EvRec) : State :=
  { s with events := mput s.events fn (mgetD s.events fn [] ++ [{ e with due := s.tick.num + 1, readyAt := s.now }]) }

/-- The codes of R99 whose disposition writes an event record to the flow's function, or (FLR_ABORT) to the owner. -/
def eventCode (c : Nat) : Bool := !(c == 0 || c == 1 || c == 0xA)

/-- A frame is in some lane, in its context or parked. -/
def State.inLane (s : State) (h : Nat) : Bool :=
  s.mas.lanes.any (fun l => l.parked.any (fun x => x.1 == h) || (match l.res with
    | some (g, _) => g == h
    | none => false))

/-- The transmit completion of an accepted host frame becomes ready (R363, R366): TS_PEND where a port exit will be transmitted, LATE
where an entry carried it or the resolution missed its deadline (R50, R77, R367). -/
def State.acceptedCpl (s : State) (h : Nat) (f : Frame) (late : Bool) : State :=
  match f.src, f.desc with
  | .ring g r, some d =>
    let ts := d.ts && f.exits.any (fun x => decide (x.exit.dest < 6) && x.disp.isNone)
    let c := txCpl stAccepted 0 ts (some f.flow) f.exits.length f.seq (f.accTick % 2 ^ 32) d.cookie (f.accTick + 2) s.now
    let late := late || decide (f.accTick + 2 ≤ s.tick.num)
    s.modDesc g r d.idx (fun x =>
      if x.st = .accepted h then { x with st := .ready { c with since := s.tick.num, late := late, frame := some h } } else x)
  | _, _ => s

/-- The frame's last entry has its disposition: its cells are freed and its template reference ends (R194, R202); the frame is
gone, unless a lane holds its resolution, whose outcome then ends it. A frame that is gone unresolved gives back its carry
record, and the completion of a host frame becomes ready (DEDUCED, log entry 43). -/
def State.endFrame (s : State) (h : Nat) (f : Frame) : State :=
  let s := s.freeList f.cells f.mgmt
  let s := s.classCells f.src f.cls (fun n => n - f.cells.length)
  let s := match f.folded with
    | some t => s.setRefs t (s.tplRefs t - 1)
    | none => s
  if f.resolved then { s with frames := mdel s.frames h }
  else if s.inLane h then { s with frames := mput s.frames h { f with cells := [], folded := none } }
  else ({ s with frames := mdel s.frames h }.wr R.CARRY_FREE (s.rd R.CARRY_FREE + 1)).acceptedCpl h f false

/-- Remove an exit of a frame from its egress queue (R277, R278). -/
def State.leaveQueue (s : State) (dest sub h i : Nat) : State :=
  if dest < 6 then
    s.modPort dest (fun p => { p with
      queues := lmod p.queues sub (fun l => l.filter (fun q => !(q.frame == h && q.exit == i)))
      slots := p.slots.map (fun o => match o with
        | some g => if g.frame == h && g.exit == i then none else some g
        | none => none) })
  else s

/-- Record a disposition for exit i of frame h (R99, R100): the entry becomes FREE, its counters rise, the flow's delivered
mark advances (R93), the event record becomes due (of FLR_ABORT: for every function but the owner in its own reset, R343, R346, R347),
and the frame ends with its last entry (DEDUCED, log entry 43). -/
def State.dispose (s : State) (h i code : Nat) : State :=
  match mget s.frames h with
  | none => s
  | some f =>
    match f.exits[i]? with
    | none => s
    | some x =>
      match x.disp, mget s.led.entries x.entry with
      | none, some e =>
        let s := (s.inc (R.DISP_CNT code)).spend 3 1
        let s := { s with led := { s.led with entries := mdel s.led.entries x.entry } }
        let s := s.entryLow
        let r := s.flow e.flow
        let r := if e.mirror then r else { r with inflight := r.inflight - 1 }
        let r := if eventCode code then
            { r with nondel := min (r.nondel + 1) 0xFFFF, lastCode := code } else r
        let s := (s.setFlow e.flow r).advanceDel e.flow
        let abort := decide (8 ≤ e.dest ∧ e.dest ≤ 23) || (e.dest == 24 && !s.bitAt R.HIF_FLR_STAT 16)
        let s := if eventCode code && (if code = 7 then abort else decide (r.fn ≤ 16)) then
            s.event (if code = 7 then 16 else r.fn)
              ⟨1, code, e.late, false, if code = 7 then e.dest - 8 else r.fn, e.flow, e.seq, e.dest, e.sub, 0, 0, 0, none, 0, 0⟩
          else s
        let s := s.leaveQueue e.dest e.sub h i
        let s := s.returnDesc f h i x e.elv code
        let f := { f with exits := lmod f.exits i (fun x => { x with disp := some code }) }
        let s := { s with frames := mput s.frames h f }
        if f.exits.all (fun x => x.disp.isSome) then s.endFrame h f else s
      | _, _ => s

/-- Record one disposition for every exit of a frame that has none yet. -/
def State.disposeAll (s : State) (h code : Nat) : State :=
  match mget s.frames h with
  | none => s
  | some f => (List.range f.exits.length).foldl (fun s i => s.dispose h i code) s

/-- Report a frame whose data cannot be read: a BUF fault (R184, R204). -/
def State.bufFault (s : State) (cell bank : Nat) : State :=
  (((s.wr R.FAULT_CELL cell).wr R.FAULT_BANK bank).log 0x39 cell).raise 226

/-- Unreadable data: every exit of the frame that still needs it takes DATA_FAULT (R184). -/
def State.dataFault (s : State) (h : Nat) (exits : List Nat) (cell bank : Nat) : State :=
  exits.foldl (fun s i => s.dispose h i 8) (s.bufFault cell bank)

end Sys2Proof.Machine
end

