-- ==== Sys2Proof/Machine/Arrive.lean ====
section
/-! DEFINITION. Frames in arrival: where they stand, when their bytes are there, and which exits the address filter leaves
them (spec/04_port_macs.md R139); and the conditions under which a function's receive ring takes an exit
(spec/12_descriptor_rings.md R370). -/

namespace Sys2Proof.Machine

/-- A frame in arrival. -/
def State.arr (s : State) (a : Arr) : Option Arrival :=
  match a with
  | .rx p false => (s.port p).rx
  | .rx p true => (s.port p).rxe
  | .host f r => mget s.hostArr (4 * f.val + r.val)

/-- Change the frame in arrival. -/
def State.setArr (s : State) (a : Arr) (v : Option Arrival) : State :=
  match a with
  | .rx p false => s.modPort p (fun q => { q with rx := v })
  | .rx p true => s.modPort p (fun q => { q with rxe := v })
  | .host f r =>
    { s with hostArr := match v with
      | some v => mput s.hostArr (4 * f.val + r.val) v
      | none => mdel s.hostArr (4 * f.val + r.val) }

/-- Change the frame in arrival, where there is one. -/
def State.modArr (s : State) (a : Arr) (g : Arrival → Arrival) : State := s.setArr a ((s.arr a).map g)

/-- Every place of a frame in arrival. -/
def allArr : List Arr :=
  ((List.finRange 6).map (fun p => [Arr.rx p false, Arr.rx p true])).flatten
    ++ ((List.finRange 17).map (fun f => (List.finRange 4).map (fun r => Arr.host f r))).flatten

/-- The instant at which byte n of a received frame is there: SFD and n byte times (chapter 13, worked case). -/
def State.byteAt (s : State) (p : Nat) (v : Arrival) (n : Nat) : Nat :=
  v.sfd + bitsTime (8 * min n v.bytes.length) (s.rateKb p)

/-- The last byte of a frame in arrival is there. -/
def State.allThere (s : State) (a : Arr) (v : Arrival) : Bool :=
  match a with
  | .rx p _ => decide (s.now ≥ s.byteAt p v v.bytes.length)
  | .host _ _ => true

/-- Admission is closed: in Eclipse, and while a power transition drains the device (R539, R604) (DEDUCED, log entry 44). -/
def State.admissionClosed (s : State) : Bool := s.bit R.FLT_STAT_ECLIPSE || s.bit R.PM_STAT_DRAIN || decide (s.tick.num < s.pm.shut)

/-- HIF moves no data: in the quiesced Eclipse state (R606). -/
def State.dmaOff (s : State) : Bool := s.bit R.FLT_STAT_ECLIPSE && !s.bit R.FLT_STAT_ECL_DRAIN

/-- HOST_STALL is set (R119). -/
def State.stalled (s : State) : Bool := s.bit R.HS_STAT_HOST_STALL

/-- The candidate set leaves an exit in place (R139). -/
def Filter.allows (f : Filter) (x : Exit) : Bool :=
  match f with
  | .pass t o =>
    if 8 ≤ x.dest ∧ x.dest ≤ 23 then t.testBit (x.dest - 8)
    else if x.dest = 24 ∧ x.sub ≤ 3 then o
    else true
  | _ => true

/-- The exit and flow that a trap in classification leaves a frame (R266): the owner's exception queue in TRAP_FLOW. -/
def trapExit : Exit := ⟨24, 7, false, 0, 0, 0, 0, 0, 0⟩

/-- The flow of a frame whose classification has closed (R255, R266). -/
def State.arrFlow (s : State) (c : Ctx) : Option Nat :=
  match c.fin with
  | .trapped _ => some (s.infAt c.epoch R.TRAP_FLOW)
  | _ => c.flow

/-- The exits of a frame whose classification has closed, after removal under R139 (R266). -/
def Arrival.exits (v : Arrival) (c : Ctx) : List Exit :=
  match c.fin with
  | .trapped _ => [trapExit]
  | _ => c.exits.filter v.filter.allows

/-! ### Folding and cells of a frame in arrival (R115, R194, R195, R201, R202) -/

/-- The template that a frame in arrival is folded against. -/
def Arrival.fold (v : Arrival) : Option Nat := v.tpl.join

/-- The whole length L of a frame in arrival. -/
def Arrival.len (v : Arrival) : Nat :=
  match v.desc with
  | some d => d.len + 4
  | none => v.bytes.length

/-- The lowest-indexed template of the source's group that a frame in arrival folds against (R201); the length of a received frame is
judged at its last byte. -/
def State.foldFor (s : State) (v : Arrival) : Option Nat :=
  let g := s.foldGroup v.src
  ((List.range g.2).map (g.1 + ·)).find? (fun t =>
    (s.tpl t).valid && (mget s.buf.tplPend t).isNone && (v.desc.isNone || decide (v.len ≥ (s.tpl t).tl + 4))
      && decide (v.bytes.length ≥ (s.tpl t).tl) && (s.tpl t).fits v.bytes)

/-- At its last byte a received frame that is too short for the template it folds against is to be stored unfolded (R201). -/
def State.checkFold (s : State) (a : Arr) : State :=
  s.modArr a (fun v => match v.fold with
    | some t => if v.refd = false ∧ v.len < (s.tpl t).tl + 4 then { v with tpl := some none } else v
    | none => v)

/-- The fold decision is made, once (R201). -/
def State.decideFold (s : State) (a : Arr) : State :=
  s.modArr a (fun v => if v.tpl.isSome then v else { v with tpl := some (s.foldFor v) })

/-- Free the cells of a frame in arrival, and end its template reference (R194, R202). -/
def State.freeArr (s : State) (v : Arrival) : State :=
  let s := (s.freeList v.cells (v.begun == .management)).classCells v.src v.cls (fun n => n - v.cells.length)
  match v.fold with
  | some t => if v.refd then s.setRefs t (s.tplRefs t - 1) else s
  | none => s

/-- The frame in arrival stops storing, its cells are freed, and what is not classified of it is presented no further (R135). -/
def State.dropCells (s : State) (a : Arr) : State :=
  match s.arr a with
  | none => s
  | some v => (s.freeArr v).setArr a
      (some { v with cells := [], storing := false, refd := false, ctx := v.ctx.filter (fun c => c.fin != .running) })

/-- The frame in arrival is gone: its cells are freed. -/
def State.dropArr (s : State) (a : Arr) : State :=
  match s.arr a with
  | none => s
  | some v => (s.freeArr v).setArr a none

/-- Cells that the stored form of a frame needs. -/
def State.cellsNeeded (s : State) (v : Arrival) : Nat := ceilDiv (s.storedForm v.fold v.bytes).length 128

/-- The bytes of a frame in arrival that must be there for its next cell to be taken (R194). -/
def State.nextCellByte (s : State) (v : Arrival) : Nat :=
  128 * v.cells.length + 1 + (match v.fold with
    | some t => if v.cells.isEmpty then 0 else (s.tpl t).nfix - 2
    | none => 0)

/-- Cells held by the frames in arrival on a port, of its two MACs (R116). -/
def State.rxCells (s : State) (a : Arr) : Nat :=
  match a with
  | .rx p _ => (((s.port p).rx.map (·.cells.length)).getD 0) + (((s.port p).rxe.map (·.cells.length)).getD 0)
  | .host _ _ => 0

/-- The first cell of a folded frame is written: its template counts it, and FOLD_CNT the frame (R202). -/
def State.countRef (s : State) (a : Arr) : State :=
  match s.arr a with
  | none => s
  | some v =>
    match v.fold with
    | some t => if v.refd then s else ((s.setRefs t (s.tplRefs t + 1)).inc R.FOLD_CNT).setArr a (some { v with refd := true })
    | none => s

/-- A frame in arrival takes its next cell, if it still needs one: the cell before it is complete and is written (R179, R194), but of a
received frame below 132 bytes at its last byte (R201); at the management limit, where no cell is free, or where the port's frames
in arrival would hold more than 72 cells (R116), it stops taking cells (R195) (DESIGN CHOICE, log entry 6). -/
def State.nextCell (s : State) (a : Arr) : State :=
  let s := match s.arr a with
    | some v => if v.cells.isEmpty then s else s.decideFold a
    | none => s
  match s.arr a with
  | none => s
  | some v =>
    if v.storing = false ∨ v.noMore ∨ v.cells.length ≥ s.cellsNeeded v then s
    else if (v.begun = .management ∧ s.rd R.MGMT_HELD ≥ 64) ∨ s.rxCells a ≥ 72 then s.setArr a (some { v with noMore := true })
    else
      match s.takeCell (v.begun == .management) with
      | none => s.setArr a (some { v with noMore := true })
      | some (i, s) =>
        let v := { v with cells := v.cells ++ [i] }
        let s := (s.classCells v.src v.cls (· + 1)).setArr a (some v)
        if v.cells.length < 2 ∨ (v.desc.isNone ∧ v.bytes.length < 132) then s
        else (s.writeCell v.cells v.fold.isSome (s.storedForm v.fold v.bytes) (v.cells.length - 2)).countRef a

/-- The remaining cells of a frame whose last byte is there are taken and written (R179). -/
def State.lastCells (s : State) (a : Arr) : State :=
  let s := (s.decideFold a).checkFold a
  match s.arr a with
  | none => s
  | some v =>
    let s := (List.range (s.cellsNeeded v)).foldl (fun s _ => s.nextCell a) s
    match s.arr a with
    | none => s
    | some v =>
      if v.storing ∧ v.noMore = false then
        (s.writeCells v.cells v.fold.isSome (s.storedForm v.fold v.bytes)).countRef a
      else s

/-! ### Receive rings (R103, R368 to R370) -/

/-- A ring takes reservations: enabled, its function up, HIF up, no host stall (R103, R109, R120, R343, R347, R354). -/
def State.rxOpen (s : State) (g r : Nat) : Bool :=
  s.ringOn g r && !s.fnDown g && !s.stalled && s.hifUp && !s.dmaOff

/-- The oldest posted descriptor of a ring that is not reserved (R103). -/
def State.oldestHeld (s : State) (g r : Nat) : Option Nat :=
  ((s.ring g r).descs.find? (fun d => d.st == .held)).map (·.pos)

/-- The descriptor that a ring reserves for an exit, if it takes one (R103, R370): `taken` lists those that this frame has
reserved already. -/
def State.rxTake (s : State) (g r len : Nat) (taken : List Nat) : Option Nat :=
  if s.rxOpen g r ∧ len ≤ s.rd (R.RING_CFG_BUF_SIZE g r) then
    ((s.ring g r).descs.find? (fun d => d.st == .held && !taken.contains d.pos)).map (·.pos)
  else none

/-- An exit fails only for its size (R370). -/
def State.rxTooLong (s : State) (g r len : Nat) (taken : List Nat) : Bool :=
  s.rxOpen g r && decide (len > s.rd (R.RING_CFG_BUF_SIZE g r))
    && (s.ring g r).descs.any (fun d => d.st == .held && !taken.contains d.pos)

end Sys2Proof.Machine
end

