-- ==== Sys2Proof/Machine/EarlyLook.lean ====
section
/-! DEFINITION. Early Look (spec/13_early_look.md): when a provisional record is issued, how its outcome settles, and the
writing of the records on a tenant's ELR. -/

namespace Sys2Proof.Machine

/-- Replace them. -/
def State.setElRecs (s : State) (n : Nat) (l : List ElRec) : State :=
  { s with hif := { s.hif with el := if l.isEmpty then mdel s.hif.el n else mput s.hif.el n l } }

/-- Free entries of a record ring (R356). -/
def State.recFree (s : State) (f r : Nat) : Nat :=
  s.ringSize f r - (s.rd (R.HEAD f r) + 2 ^ 16 - s.rd (R.DOORBELL f r)) % 2 ^ 16

/-- Entries of the ELR that neither stand in it nor belong to a provisional record that waits to be written (R384) (DEDUCED, log entry 26). -/
def State.elRoom (s : State) (n : Nat) : Nat :=
  s.recFree n 8 - ((s.elRecs n).filter (fun e => e.kind == 0x11)).length * 5

/-- The dwords of bytes, least significant byte first, n of them. -/
def dwords (n : Nat) (b : List Byte) : List Nat := (List.range n).map (fun k => leNat (sliceD b (4 * k) 4))

/-- The five entries of a provisional record, without PHASE (R384 to R387) (DEDUCED, log entry 26). -/
def provisional (p id flow pseq : Nat) (b : List Byte) : List (List Nat) :=
  let head := [0x11 + 2 ^ 8 * p + 2 ^ 11 + 2 ^ 16 * id, flow, pseq] ++ dwords 4 b ++ [0]
  let cont (c : Nat) : List Nat := dwords 7 (b.drop (16 + 28 * (c - 1))) ++ [0x12 + 2 ^ 8 * c + 2 ^ 11 * id]
  [head, cont 1, cont 2, cont 3, cont 4]

/-- The exits of a frame to receive rings of a tenant that are no mirror exits (R384). -/
def exitsTo (n : Nat) (l : List Exit) : List Exit := l.filter (fun x => x.dest == 8 + n && decide (x.sub ≤ 3))

/-- Early Look is in effect for a flow's tenant: conditions 2 and 4 of R384. -/
def State.elOn (s : State) (x : FlowRec) : Bool :=
  decide (x.fn < 16) && x.elEn && decide (x.fn < s.hif.numVfs) && s.inf (R.QUOTA_EL_PERMIT x.fn) == 1
    && !s.fnDown x.fn && !s.stalled && s.ringOn x.fn 8

/-- Classification of a received frame has closed: a provisional record is issued where every condition of R384 holds (DEDUCED, log entry 26). -/
def State.elProvisional (s : State) (a : Arr) : State :=
  match a, s.arr a with
  | .rx p _, some v =>
    match v.ctx with
    | none => s
    | some c =>
      match c.fin, c.flow with
      | .closed, some x =>
        let n := (s.flow x).fn
        if s.allThere a v ∨ s.elOn (s.flow x) = false
            ∨ (exitsTo n (v.exits c)).all (·.mirror) = true ∨ v.el.isSome ∨ v.elSkip.isSome then s
        else if s.rd (R.EL_STAT_OUTSTANDING n) ≥ 64 then s.setArr a (some { v with elSkip := some (n, true) })
        else if s.elRoom n < 6 + s.rd (R.EL_STAT_OUTSTANDING n) then s.setArr a (some { v with elSkip := some (n, false) })
        else
          let id := s.rd (R.EL_NEXT_ID n)
          let rec_ : ElRec := ⟨0x11, provisional p id x (((s.flow x).lastAcc + 1) % 2 ^ 32) v.bytes, none, none⟩
          let s := (s.wr (R.EL_NEXT_ID n) (id + 1)).wr (R.EL_STAT_OUTSTANDING n) (s.rd (R.EL_STAT_OUTSTANDING n) + 1)
          (s.setElRecs n (s.elRecs n ++ [rec_])).setArr a (some { v with el := some (n, id, true) })
      | _, _ => s
  | _, _ => s

/-- A record that was held back is counted when the frame is accepted, refused or discarded (R384). -/
def State.elSkipped (s : State) (v : Arrival) : State :=
  match v.elSkip with
  | some (n, true) => s.inc (R.EL_SKIP_LIMIT n)
  | some (n, false) => s.inc (R.EL_SKIP_ROOM n)
  | none => s

/-- An outcome becomes ready; it is in time for one period from now (R388). -/
def State.elOutcome (s : State) (n kind : Nat) (w : List Nat) (frame : Option Nat) : State :=
  s.setElRecs n (s.elRecs n ++ [⟨kind, [w], some (s.now + s.period), frame⟩])

/-- RETRACT with a reason, for a frame that is refused or discarded (R388) (DEDUCED, log entry 25). -/
def State.elRetract (s : State) (v : Arrival) (reason : Nat) : State :=
  let s := s.elSkipped v
  match v.el with
  | some (n, id, true) =>
    s.elOutcome n 0x14 [0x14 + 2 ^ 8 * reason + 2 ^ 16 * id, ((v.ctx.bind (·.flow)).getD 0), 0, 0, 0, 0, 0, 0] none
  | _ => s

/-- CONFIRM for an accepted frame: the first exit that is a receive ring of the tenant, with the position of its descriptor
(R388) (DEDUCED, log entry 26). -/
def State.elConfirm (s : State) (h : Nat) (v : Arrival) (flow seq : Nat) (l : List (Exit × Nat)) : State :=
  let s := s.elSkipped v
  match v.el with
  | some (n, id, true) =>
    let mine := l.filter (fun x => x.1.dest == 8 + n && decide (x.1.sub ≤ 3))
    match mine with
    | (x, pos) :: t =>
      s.elOutcome n 0x13 [0x13 + 2 ^ 16 * id,
        flow + 2 ^ 16 * x.sub + (if t.isEmpty then 0 else 2 ^ 18), seq, pos % 2 ^ 16, 0, 0, 0, 0] (some h)
    | [] => s
  | _ => s

/-- The records of a tenant close without outcome (R394): those not written are dropped and counted. -/
def State.elClose (s : State) (n : Nat) : State :=
  let s := (s.add (R.RING_CNT1 n 8) (s.elRecs n).length).setElRecs n []
  let s := s.wr (R.EL_STAT_OUTSTANDING n) 0
  allArr.foldl (fun s a =>
    match s.arr a with
    | none => s
    | some v =>
      match v.el with
      | some (m, id, _) => if m = n then s.setArr a (some { v with el := some (m, id, false) }) else s
      | none => s) s

/-- PHASE of the entry at a producer position (R358). -/
def State.phase (s : State) (f r pos : Nat) : Nat :=
  if pos.testBit (s.rd (R.RING_CFG_LOG2_SIZE f r)) then 0 else 1

/-- Put PHASE in the last dword of an entry. -/
def withPhase (ph : Nat) (w : List Nat) : List Nat := lmod w 7 (· + 2 ^ 31 * ph)

/-- The posted writes of a record's entries from a producer position (R391): one, or two split at the end of the ring, or
after the fourth entry; the second is not charged. A reset of HIF writes them again until they are acknowledged (R381, R394). -/
def State.writeRecord (s : State) (f r pos : Nat) (entries : List (List Nat)) : State :=
  let w := entries.zipIdx.map (fun e => withPhase (s.phase f r ((pos + e.2) % 2 ^ 16)) e.1)
  let left := s.ringSize f r - pos % s.ringSize f r
  let cut := if w.length > left then left else if 32 * w.length ≤ s.wrUnit then w.length else 4
  let one := (false, s.entryAddr f r pos, entryBytes (w.take cut))
  let two := if w.length > cut then [(false, s.entryAddr f r (pos + cut), entryBytes (w.drop cut))] else []
  let s := s.emit (.write f false one.2.1 one.2.2)
  let s : State := { s with sent := two.map (fun t => Sent.write f false t.2.1 t.2.2) ++ s.sent }
  { s with hif := { s.hif with posted := s.hif.posted ++ [⟨f, [], one :: two⟩] } }

/-- EL_RECORD_WRITE (R387 to R391): the oldest record of a tenant is written as soon as HIF can write for it. -/
def execElRecordWrite (n : Tenant) (s : State) : Host.Outcome State Fault Refusal :=
  match s.elRecs n with
  | [] => .next s
  | e :: t =>
    if s.ringOn n 8 = false ∨ s.fnDown n ∨ s.hifUp = false ∨ s.dmaOff then .next s
    else
      let late := match e.due with
        | some d => decide (s.now > d)
        | none => false
      let entries := if late then e.entries.map (fun w => lmod w 0 (· + 2 ^ 12)) else e.entries
      let pos := s.rd (R.HEAD n 8)
      let s := (s.writeRecord n 8 pos entries).wr (R.HEAD n 8) (pos + entries.length)
      let s := ((s.setElRecs n t).inc (R.RING_CNT0 n 8)).ringIrq n 8 (s.tick.num + 1)
      let s := if late then s.inc (R.EL_LATE n) else s
      if e.kind = 0x11 then .next s
      else
        let s := s.wr (R.EL_STAT_OUTSTANDING n) (s.rd (R.EL_STAT_OUTSTANDING n) - 1)
        .next (s.inc (if e.kind = 0x13 then R.EL_CONFIRM n else R.EL_RETRACT n))

end Sys2Proof.Machine
end

