-- ==== Sys2Proof/Machine/Edit.lean ====
section
/-! DEFINITION. Tags and their edits (spec/04_port_macs.md, R141 to R146), classes (R58), and receive and transmit stamps
(R147, R148, R414). -/

namespace Sys2Proof.Machine

/-! ### Tags (R141) -/

/-- The tags of a frame, recognised in order with a given S-tag TPID (R141). -/
def parseTags (tpid : Nat) (b : List Byte) : Tags :=
  let at_ (o : Nat) : Nat := beNat (sliceD b o 2)
  let s := if at_ 12 = tpid then some (tpid, at_ 14) else none
  let o1 := if s.isSome then 16 else 12
  let c := if at_ o1 = 0x8100 then some (at_ (o1 + 2)) else none
  let o2 := if c.isSome then o1 + 4 else o1
  let r := if at_ o2 = 0xF1C1 then some (at_ (o2 + 2), at_ (o2 + 4)) else none
  let o3 := if r.isSome then o2 + 6 else o2
  ⟨s, c, r, o3, at_ o3⟩

/-- PARSE of R212: which tags are present. -/
def Tags.parse (t : Tags) : Nat :=
  (if t.sTag.isSome then 1 else 0) + (if t.cTag.isSome then 2 else 0) + (if t.rTag.isSome then 4 else 0)

/-- The class of a frame: the priority code point of its outermost VLAN tag, else the default class (R58). -/
def Tags.cls (t : Tags) (dflt : Nat) : Nat :=
  match t.sTag, t.cTag with
  | some (_, tci), _ => tci / 2 ^ 13
  | none, some tci => tci / 2 ^ 13
  | none, none => dflt

/-- The S-tag TPID that a source's frames are parsed with: TAG_CFG.S_TPID of the port; 0x88A8 for a host frame (DEDUCED, log entry 18). -/
def State.tpidOf (s : State) (src : Source) : Nat :=
  match src with
  | .port p => s.inf (R.TAG_CFG_S_TPID p)
  | _ => 0x88A8

/-- The class of a frame from a source (R58); an untagged host frame takes class 0 (DEDUCED, log entry 18). -/
def State.classOf (s : State) (src : Source) (b : List Byte) : Nat :=
  (parseTags (s.tpidOf src) b).cls (match src with
    | .port p => s.inf (R.ENV_CTRL_DEFCLASS p)
    | _ => 0)

/-! ### Edits (R142, R143, R146) -/

/-- One tag after an operation, and whether the operation acted (R143, R146): `old` is the tag as it stands, `new` the bytes
that insert or set write. -/
def editTag (op : Nat) (old : Option (List Byte)) (new : List Byte) : List Byte × Bool :=
  match op, old with
  | 0, o => (o.getD [], false)
  | 1, o => ([], o.isSome)
  | 2, _ => (new, true)
  | _, some _ => (new, true)
  | _, none => ([], false)

/-- A frame after an exit's edit (R143), without FCS: `parse` is its PARSE, `tpid` the TPID that insert and set write, `rseq`
the drawn number. The second part says whether an operation acted (R146). -/
def editFrame (parse tpid : Nat) (x : Exit) (rseq : Nat) (b : List Byte) : List Byte × Bool :=
  let ns := if parse.testBit 0 then 4 else 0
  let nc := if parse.testBit 1 then 4 else 0
  let nr := if parse.testBit 2 then 6 else 0
  let old (o n : Nat) : Option (List Byte) := if n = 0 then none else some (sliceD b o n)
  let st := editTag x.sOp (old 12 ns) (beBytes 2 tpid ++ beBytes 2 x.sTci)
  let ct := editTag x.cOp (old (12 + ns) nc) (beBytes 2 0x8100 ++ beBytes 2 x.cTci)
  let rt := editTag x.rOp (old (12 + ns + nc) nr) (beBytes 2 0xF1C1 ++ [0, 0] ++ beBytes 2 rseq)
  (b.take 12 ++ st.1 ++ ct.1 ++ rt.1 ++ b.drop (12 + ns + nc + nr), st.2 || ct.2 || rt.2)

/-- A frame with its patch applied (R258). -/
def patchFrame (p : Option (Nat × List Byte)) (b : List Byte) : List Byte :=
  match p with
  | some (o, v) => overwrite b o v
  | none => b

/-- Zero padding up to L = 64 with the FCS (R146). -/
def padFrame (b : List Byte) : List Byte := b ++ List.replicate (60 - b.length) 0

/-- The TPID that insert and set write at an exit (R143, R223). -/
def State.exitTpid (s : State) (epoch dest : Nat) : Nat :=
  if dest < 6 then s.infAt epoch (R.TAG_CFG_S_TPID dest) else 0x88A8

/-- The drawn number of an exit (R313, R314). -/
def Frame.rseq (f : Frame) (x : Exit) : Nat := ((f.drawnBy.find? (fun p => p.1 == x.rgen)).map (·.2)).getD 0

/-- PARSE of an accepted frame, from its presentation (R212). -/
def Frame.parse (f : Frame) : Nat := (f.metaRec.getD 12 0).toNat

/-- An accepted frame as it leaves at an exit, without FCS: patched (R258), then edited (R143); and whether it is modified
before any padding (R146). -/
def State.exitBytes (s : State) (f : Frame) (x : Exit) (orig : List Byte) : List Byte × Bool :=
  let b := patchFrame f.patch (orig.take (orig.length - 4))
  let (e, acted) := editFrame f.parse (s.exitTpid f.epoch x.dest) x (f.rseq x) b
  (e, acted || f.patch.isSome)

/-! ### Stamps (R147, R148, R414) -/

/-- Internal receive and transmit path latencies of a mode and a rate, in units of 1/1280 ns (R148). A rate that a mode does
not reach takes the latency of the mode's lowest row. -/
def pathLatency (if_ rate : Nat) : Nat × Nat :=
  if if_ = 1 then
    match rate with
    | 5 => (49152, 40960)
    | 4 => (57344, 49152)
    | 3 => (73728, 65536)
    | 2 => (122880, 114688)
    | 1 => (942080, 934400)
    | _ => (9134080, 9126400)
  else if if_ = 4 then (36864, 32768)
  else
    match rate with
    | 0 => (9093120, 9082880)
    | 1 => (901120, 890880)
    | _ => (81920, 71680)

/-- The receive stamp of an SFD detected now: an instant of the local time base in units of 2^-8 ns (R147, R414). -/
def State.rxStamp (s : State) (p : Nat) : Int :=
  let l := (pathLatency (s.inf (R.PORT_CFG_IF p)) (s.rd (R.PORT_STAT_RATE p))).1
  ((s.now : Int) * 20 - l - 5 * toSigned 24 (s.inf (R.LAT_RX p))) / 5

/-- The transmit stamp of an SFD launched at an instant (R147, R414). -/
def State.txStamp (s : State) (p at_ : Nat) : Int :=
  let l := (pathLatency (s.inf (R.PORT_CFG_IF p)) (s.rd (R.PORT_STAT_RATE p))).2
  ((at_ : Int) * 20 + l + 5 * toSigned 24 (s.inf (R.LAT_TX p))) / 5

/-- No reset of TU is in progress (R414). -/
def State.tuUp (s : State) : Bool := !s.bitAt R.ENG_RST_STAT 9

/-- How a domain runs now. -/
def State.segNow (s : State) (d : Nat) (t : TDom) : TSeg := ⟨t.at_, t.val, t.rate, t.adj, s.rd (R.SLEW_PPB d), s.tdValid d && s.tuUp⟩

/-- How a domain ran at an instant of the local time base in units of 2^-8 ns (R414). -/
def State.segAt (s : State) (d : Nat) (x : Int) : TSeg :=
  match s.td[d]? with
  | none => ⟨0, 0, 0, 0, 0, false⟩
  | some t =>
    let l := s.segNow d t :: t.past
    (l.find? (fun g => decide (4 * (g.at_ : Int) ≤ x))).getD (l.getLast?.getD (s.segNow d t))

/-- The time of a domain at an instant, in units of 1/(2^22 * 10^9) ns (R398, R414). -/
def TSeg.time (g : TSeg) (x : Int) : Nat :=
  let e := x - 4 * (g.at_ : Int)
  let slewMax : Nat := e.toNat * g.slew * 16384
  let slew : Int := if g.adj < 0 then -(min (g.adj.natAbs) slewMax : Nat) else (min (g.adj.natAbs) slewMax : Nat)
  ((g.val : Int) + e * (65536000000000 + g.rate) / 4 + slew).toNat

/-- The stamp of an instant of the local time base, with the value that each domain held then (R414). -/
def State.stampAt (s : State) (x : Int) : Stamp :=
  ⟨(s.segAt 0 x).time x, (s.segAt 1 x).time x, (s.segAt 0 x).valid, (s.segAt 1 x).valid⟩

/-- The short time at which an SFD that a port launches now crosses the reference plane (R147, R300). -/
def State.planeShort (s : State) (p : Nat) : Nat := (s.stampAt (s.txStamp p s.now)).td0 / tdUnit % 2 ^ 40

/-- The stamp of this instant, for a host frame's first data byte (R212). -/
def State.stampNow (s : State) : Stamp := s.stampAt (4 * s.now)

/-- TS40 of a stamp: TD0 short time, truncated to whole nanoseconds (R414). -/
def Stamp.ts40 (x : Stamp) : Nat := x.td0 / tdUnit % 2 ^ 40

end Sys2Proof.Machine
end

