-- ==== Sys2Proof/Machine/Tables.lean ====
section
/-! DEFINITION. Lookup tables, overlay banks, policers, counters, hit bits and the telemetry sketch
(spec/07_match_action_tables.md). -/

namespace Sys2Proof.Machine

/-! ### Overlay banks and what an epoch sees (R231, R232) -/

/-- An entry that is not valid (R238). -/
def ExactEntry.empty : ExactEntry := ⟨List.replicate 16 0, 0, false, List.replicate 12 0⟩

/-- A ternary entry that is not valid (R238). -/
def TernEntry.empty : TernEntry := ⟨List.replicate 40 0, List.replicate 40 0, 0, false, List.replicate 16 0⟩

/-- A policer configuration of zeros (R238). -/
def PolCfg.zero : PolCfg := ⟨0, 0, 0, 0, false, false⟩

/-- The banks that a frame of an epoch sees, the newest first (R232). -/
def State.banksFor (s : State) (epoch : Nat) : List Overlay :=
  let seen := s.mas.banks.filter (fun b => (b.state == .active || b.state == .copying) && decide (b.epoch ≤ epoch))
  match seen with
  | [a, b] => if a.epoch < b.epoch then [b, a] else [a, b]
  | l => l

/-- The first entry with an index that a list of maps holds. -/
def firstIn {α : Type} (l : List (SMap α)) (i : Nat) : Option α := l.findSome? (fun m => mget m i)

/-- The exact-match entry that an epoch sees (R232). -/
def State.exactAt (s : State) (e i : Nat) : ExactEntry :=
  (firstIn ((s.banksFor e).map (·.exact)) i).getD (mgetD s.mas.exact i .empty)

/-- The ternary entry that an epoch sees (R232). -/
def State.ternAt (s : State) (e i : Nat) : TernEntry :=
  (firstIn ((s.banksFor e).map (·.tern)) i).getD (mgetD s.mas.tern i .empty)

/-- The policer configuration that an epoch sees (R232). -/
def State.polAt (s : State) (e i : Nat) : PolCfg :=
  (firstIn ((s.banksFor e).map (·.pol)) i).getD (mgetD s.mas.polCfg i .zero)

/-! ### Table words and their check bits (R219) -/

/-- Words of the exact-match table: four an entry, in the order of its bytes. -/
def exactWords : Nat := 4 * 32768

/-- Words of both tables that the scrub visits: a ternary entry has KEY (5), MASK (5), RESULT (2) and the attribute word (DEDUCED, log entry 9). -/
def tableWords : Nat := exactWords + 13 * 1024

/-- The table (0 exact-match, 1 ternary), the entry and the word in it of a scrubbed word. -/
def wordPlace (w : Nat) : Nat × Nat × Nat :=
  if w < exactWords then (0, w / 4, w % 4) else (1, (w - exactWords) / 13, (w - exactWords) % 13)

/-- Report an uncorrectable table word (R219). -/
def State.tableFault (s : State) (table idx : Nat) : State :=
  ((s.inc R.TBL_ECC_UNC).wr R.TBL_FAULT_IDX (idx + 2 ^ 16 * table)).raise 228

/-- Drop the marks of the words of one entry: its words are written anew. -/
def State.freshEntry (s : State) (table idx : Nat) : State :=
  { s with mas := { s.mas with words := s.mas.words.filter (fun p =>
      !((wordPlace p.1).1 == table && (wordPlace p.1).2.1 == idx)) } }

/-- What a lookup answers: the entry it hit with its RESULT, the entry of an uncorrectable word that it met, and the number
of corrected words that it met. -/
structure Lookup where
  hit : Option Nat
  result : List Byte
  bad : Option Nat
  corr : Nat
  deriving DecidableEq, Repr

/-- The slots that an exact-match lookup compares, in order (R216). -/
def exactSlots (space : Nat) (key : List Byte) : List Nat :=
  let c := crc32c (BitVec.ofNat 8 space :: key)
  let a := c % 8192
  let b := c / 65536 % 8192
  [4 * a, 4 * a + 1, 4 * a + 2, 4 * a + 3] ++ (if a = b then [] else [4 * b, 4 * b + 1, 4 * b + 2, 4 * b + 3])

/-- The entries of a list up to and including the first that satisfies p. -/
def upToFirst (p : Nat → Bool) : List Nat → List Nat
  | [] => []
  | a :: t => if p a then [a] else a :: upToFirst p t

/-- LKX: the exact-match lookup of a key in a space by a frame of an epoch (R216, R219). A word that an overlay bank holds is
no table word. -/
def State.lookupExact (s : State) (e space : Nat) (key : List Byte) : Lookup :=
  let fits (i : Nat) : Bool :=
    let x := s.exactAt e i
    x.valid && x.space == space && x.key == key
  let slots := exactSlots space key
  let hit := slots.find? fits
  let read := (upToFirst fits slots).filter (fun i => (firstIn ((s.banksFor e).map (·.exact)) i).isNone)
  let met := s.mas.words.filter (fun p =>
    let (t, i, k) := wordPlace p.1
    t == 0 && read.contains i && (decide (k ≤ 2) || hit == some i))
  let bad (i : Nat) : Bool := met.any (fun p => p.2 == .uncorrectable && (wordPlace p.1).2.1 == i)
  { hit := hit
    result := match hit with
      | some i => (s.exactAt e i).result
      | none => []
    bad := read.find? bad
    corr := (met.filter (fun p => p.2 == .corrected)).length }

/-- A ternary entry matches a key in a space (R218). -/
def TernEntry.fits (x : TernEntry) (space : Nat) (key : List Byte) : Bool :=
  x.valid && x.space == space &&
    (List.range 40).all (fun j => (key.getD j 0 ^^^ x.key.getD j 0) &&& x.mask.getD j 0 == 0)

/-- LKT: the ternary lookup (R218, R219). -/
def State.lookupTern (s : State) (e space : Nat) (key : List Byte) : Lookup :=
  let hit := (List.range 1024).find? (fun i => (s.ternAt e i).fits space key)
  let met := s.mas.words.filter (fun p =>
    let (t, i, k) := wordPlace p.1
    t == 1 && (firstIn ((s.banksFor e).map (·.tern)) i).isNone &&
      (match hit with
        | some h => decide (i < h) && !(k == 10 || k == 11) || i == h
        | none => !(k == 10 || k == 11)))
  { hit := hit
    result := match hit with
      | some i => (s.ternAt e i).result
      | none => []
    bad := (met.find? (fun p => p.2 == .uncorrectable)).map (fun p => (wordPlace p.1).2.1)
    corr := (met.filter (fun p => p.2 == .corrected)).length }

/-- Errors arise in table words; one with an uncorrectable word keeps it (R219). -/
def State.strike (s : State) (l : List (Nat × WordState)) : State :=
  { s with mas := { s.mas with words := l.foldl (fun w x =>
      if x.1 ≥ tableWords ∨ x.2 = .clean ∨ mget w x.1 = some .uncorrectable then w else mput w x.1 x.2) s.mas.words } }

/-- TABLE_SCRUB (R219): one word is read; `w` is what the read met, beside what the word is known to hold; `struck` lists words in which
errors have arisen since, which a lookup or the scrub then meets. -/
def execTableScrub (w : WordState) (struck : List (Nat × WordState)) (s : State) : Host.Outcome State Fault Refusal :=
  let s := s.strike struck
  let at_ := s.mas.scrubAt
  let s := { s with mas := { s.mas with scrubAt := (at_ + 1) % tableWords } }
  let state := match w, mget s.mas.words at_ with
    | .uncorrectable, _ => WordState.uncorrectable
    | _, some .uncorrectable => .uncorrectable
    | .corrected, _ => .corrected
    | _, some .corrected => .corrected
    | _, _ => .clean
  match state with
  | .clean => .next s
  | .corrected => .next ({ s with mas := { s.mas with words := mdel s.mas.words at_ } }.inc R.TBL_ECC_CORR)
  | .uncorrectable =>
    let s := { s with mas := { s.mas with words := mput s.mas.words at_ .uncorrectable } }
    if s.mas.reported.contains at_ then .next s
    else
      let s := { s with mas := { s.mas with reported := at_ :: s.mas.reported } }
      .next (s.tableFault (wordPlace at_).1 (wordPlace at_).2.1)

/-! ### Hit bits (R220) -/

/-- Set the hit bits of entries. -/
def State.setHits (s : State) (l : List Nat) : State :=
  { s with mas := { s.mas with hits := l.foldl (fun h i =>
      mput h (i / 32) (setBitAt (mgetD h (i / 32) 0) (i % 32) true)) s.mas.hits } }

/-- A read of HIT_WORD returns 32 hit bits and clears them (R220). -/
def State.hitWord (s : State) : Nat × State :=
  let i := s.rd R.HIT_SEL
  (mgetD s.mas.hits i 0, { s with mas := { s.mas with hits := mdel s.mas.hits i } })

/-- HIT_WORD_READ (R220). -/
def execHitWordRead (rd : Reader) (s : State) : Host.Outcome State Fault Refusal :=
  .next (s.ownerAnswer rd R.HIT_WORD.off s.hitWord)

/-! ### Table staging (R226, R231 to R233) -/

/-- The bytes of consecutive staging words from word w (byte 4k + i in bits [8i+7:8i] of word k). -/
def State.stgBytes (s : State) (w n : Nat) : List Byte :=
  ((List.range n).map (fun k => leBytes 4 (s.rd (R.TBL_STG_DATA (w + k))))).flatten

/-- A policer configuration from its four words (R226). -/
def polOfWords (w0 w1 w2 w3 : Nat) : PolCfg :=
  ⟨w0 % 2 ^ 18, w1 % 2 ^ 18, w2 % 2 ^ 20, w3 % 2 ^ 20, w3.testBit 24, w3.testBit 25⟩

/-- The staged exact-match entry, and whether its words carry a reserved value (R215, R233). -/
def State.stgExact (s : State) : ExactEntry × Bool :=
  let b := s.stgBytes 0 8
  let a := (b.getD 16 0).toNat
  (⟨b.take 16, a % 32, a.testBit 5, sliceD b 20 12⟩,
    decide (a % 32 ≥ 17) || decide (a ≥ 64) || (sliceD b 17 3).any (· != 0))

/-- The staged ternary entry, and whether its attribute word carries a reserved value (R218, R233). -/
def State.stgTern (s : State) : TernEntry × Bool :=
  let a := s.rd (R.TBL_STG_DATA 24)
  (⟨s.stgBytes 0 10, s.stgBytes 10 10, a % 32, a.testBit 5, s.stgBytes 20 4⟩,
    decide (a % 32 ≥ 17) || decide (a ≥ 64))

/-- The staged policer configuration, and whether its words carry a reserved value (R226, R233). -/
def State.stgPol (s : State) : PolCfg × Bool :=
  let w (k : Nat) : Nat := s.rd (R.TBL_STG_DATA k)
  let c := polOfWords (w 0) (w 1) (w 2) (w 3)
  (c, decide (c.cir > 156250) || decide (c.eir > 156250) || decide (w 0 ≥ 2 ^ 18) || decide (w 1 ≥ 2 ^ 18)
    || decide (w 2 ≥ 2 ^ 20) || decide (w 3 / 2 ^ 20 % 16 ≠ 0) || decide (w 3 ≥ 2 ^ 26))

/-- The bank that takes a staged table write: the one in STAGING, else a FREE one (R233). -/
def State.stgBank (s : State) : Option Nat :=
  (s.mas.banks.findIdx? (·.state == .staging)) <|> (s.mas.banks.findIdx? (·.state == .free))

/-- Entries beyond which a table has none (R233). -/
def tableSize (sel : Nat) : Nat := if sel = 0 then 32768 else if sel = 1 then 1024 else 512

/-- Change an overlay bank. -/
def State.modBank (s : State) (b : Nat) (g : Overlay → Overlay) : State :=
  { s with mas := { s.mas with banks := lmod s.mas.banks b g } }

/-- A write of 1 to TBL_STG_CTRL.GO (R233): causes of rejection in the order of R624 (DEDUCED, log entry 17). -/
def State.tblStgGo (s : State) : State :=
  let off := R.TBL_STG_CTRL_GO.off
  let sel := s.rd R.TBL_STG_SEL
  let idx := s.rd R.TBL_STG_IDX
  let resv := decide (idx ≥ tableSize sel) ||
    (if sel = 0 then s.stgExact.2 else if sel = 1 then s.stgTern.2 else s.stgPol.2)
  if s.bit R.FLT_STAT_ECLIPSE then s.reject off 5
  else if s.tick.commitAt.isSome then (s.reject off 2).put R.BCHK_STATUS_LOCKED true
  else if s.now < s.mas.stgGo then s.put R.TBL_STG_STAT_GO_IGNORED true
  else
    match s.stgBank with
    | none => s.reject off 8
    | some b =>
      if resv then s.reject off 1
      else
        let o := s.mas.banks.getD b Overlay.reset
        let full := if sel = 0 then (mget o.exact idx).isNone && decide (o.exact.length ≥ 512)
          else if sel = 1 then (mget o.tern idx).isNone && decide (o.tern.length ≥ 64)
          else (mget o.pol idx).isNone && decide (o.pol.length ≥ 64)
        let s := { s with mas := { s.mas with stgGo := s.now + s.cycle } }
        if full then s.put R.TBL_STG_STAT_FULL true
        else
          let s := s.modBank b (fun o =>
            if sel = 0 then { o with state := .staging, exact := mput o.exact idx s.stgExact.1 }
            else if sel = 1 then { o with state := .staging, tern := mput o.tern idx s.stgTern.1 }
            else { o with state := .staging, pol := mput o.pol idx s.stgPol.1 })
          if sel ≤ 1 then
            { s with mas := { s.mas with reported := s.mas.reported.filter (fun w =>
                !((wordPlace w).1 == sel && (wordPlace w).2.1 == idx)) } }
          else s

/-- The words of an exact-match entry in the layout of R215. -/
def exactEntryWords (x : ExactEntry) : List Nat :=
  let b := x.key ++ [BitVec.ofNat 8 (x.space + (if x.valid then 32 else 0)), 0, 0, 0] ++ x.result
  (List.range 8).map (fun k => leNat (sliceD b (4 * k) 4))

/-- The words of a ternary entry in the layout of TBL_STG_DATA_w. -/
def ternEntryWords (x : TernEntry) : List Nat :=
  let b := x.key ++ x.mask ++ x.result
  (List.range 24).map (fun k => leNat (sliceD b (4 * k) 4)) ++ [x.space + (if x.valid then 32 else 0)]

/-- The words of a policer configuration (R226). -/
def polCfgWords (c : PolCfg) : List Nat :=
  [c.cir, c.eir, c.cbs, c.ebs + (if c.cm then 2 ^ 24 else 0) + (if c.cf then 2 ^ 25 else 0)]

/-- A policer's levels (R226). -/
def State.polLvl (s : State) (i : Nat) : PolLvl := mgetD s.mas.polLvl i ⟨0, 0, 0⟩

/-- The words that a write of TBL_RD_IDX latches: what the newest epoch sees (R232). -/
def State.tblRdWords (s : State) (sel idx : Nat) : List Nat :=
  let e := s.tick.epoch
  if idx ≥ tableSize (min sel 2) then []
  else match sel with
    | 0 => exactEntryWords (s.exactAt e idx)
    | 1 => ternEntryWords (s.ternAt e idx)
    | 2 => polCfgWords (s.polAt e idx)
    | _ =>
      let l := s.polLvl idx
      [l.c, l.e, l.stamp % 2 ^ 32, l.stamp / 2 ^ 32]

/-- A write of TBL_RD_IDX latches the entry into TBL_RD_DATA (chapter 7, registers) (DEDUCED, log entry 17). -/
def State.tblRdIdx (s : State) (v : Nat) : State :=
  let s := s.wr R.TBL_RD_IDX v
  let w := s.tblRdWords (s.rd R.TBL_RD_SEL) (s.rd R.TBL_RD_IDX)
  (List.range 25).foldl (fun s k => s.wr (R.TBL_RD_DATA k) (w.getD k 0)) s

/-- TBL_RD_IDX_WRITE. -/
def execTblRdIdxWrite (v : BitVec 15) (s : State) : Host.Outcome State Fault Refusal :=
  .next (s.unlessReset 6 R.TBL_RD_IDX (s.tblRdIdx v.toNat))

/-- The oldest epoch of which a frame is unresolved, or the present one (R231) (DEDUCED, log entry 48). -/
def State.oldestEpoch (s : State) : Nat :=
  let open_ := (s.frames.filter (fun p => !p.2.resolved)).map (·.2.epoch)
  let arr := (s.ports.map (fun p => [p.rx, p.rxe])).flatten ++ s.hostArr.map (fun p => some p.2)
  let cls := arr.filterMap (fun a => a.bind (fun a => a.ctx.map (·.epoch)))
  (open_ ++ cls).foldl min s.tick.epoch

/-- OVERLAY_COPY_START (R231, R232): an ACTIVE bank with no older-epoch frame unresolved, not behind an older ACTIVE bank,
and not while the other bank copies. -/
def execOverlayCopyStart (b : Bank) (s : State) : Host.Outcome State Fault Refusal :=
  let o := s.mas.banks.getD b Overlay.reset
  let other := s.mas.banks.getD (1 - b.val) Overlay.reset
  if o.state = .active ∧ s.oldestEpoch ≥ o.epoch ∧ other.state ≠ .copying
      ∧ ¬(other.state = .active ∧ other.epoch < o.epoch) then
    .next (s.modBank b (fun o => { o with state := .copying }))
  else .next s

/-- The entries of one map written over another's; an entry equal to what an unlisted one reads as is not listed. -/
def writeOver {α : Type} [DecidableEq α] (d : α) (m o : SMap α) : SMap α :=
  o.foldl (fun t (p : Nat × α) => if p.2 = d then mdel t p.1 else mput t p.1 p.2) m

/-- OVERLAY_COPY_DONE (R231): every entry of the bank is in the table and the bank is FREE. -/
def execOverlayCopyDone (b : Bank) (s : State) : Host.Outcome State Fault Refusal :=
  let o := s.mas.banks.getD b Overlay.reset
  if o.state ≠ .copying then .next s
  else
    let s := o.exact.foldl (fun s p => s.freshEntry 0 p.1) s
    let s := o.tern.foldl (fun s p => s.freshEntry 1 p.1) s
    let m := s.mas
    .next ({ s with mas := { m with
      exact := writeOver ExactEntry.empty m.exact o.exact
      tern := writeOver TernEntry.empty m.tern o.tern
      polCfg := writeOver PolCfg.zero m.polCfg o.pol } }.modBank b
      (fun _ => Overlay.reset))

/-! ### Policers (R226 to R229) -/

/-- The refill of a policer up to an instant of the 1.25 ns time base (R228). -/
def polRefill (c : PolCfg) (l : PolLvl) (t : Nat) : PolLvl :=
  let d := t - l.stamp
  let cFull := c.cbs * 4096
  let c1 := l.c + c.cir * d * 4096 / 100000
  let spill := if c.cf then c1 - cFull else 0
  let e1 := l.e + spill + c.eir * d * 4096 / 100000
  ⟨min c1 cFull, min e1 (c.ebs * 4096), max t l.stamp⟩

/-- The charged length of a frame in units of 2^-12 byte (R227). -/
def polCharge (len : Nat) : Nat := 8 * ceilDiv len 8 * 4096

/-- The colour of an application on refilled levels: 0 green, 1 yellow, 2 red (R228). -/
def polColour (c : PolCfg) (l : PolLvl) (len input : Nat) : Nat :=
  let inp := if c.cm then min input 2 else 0
  if l.c ≥ polCharge len ∧ inp = 0 then 0 else if l.e ≥ polCharge len ∧ inp ≠ 2 then 1 else 2

/-- What a colour takes from the levels, not below 0 (R228). -/
def polTake (l : PolLvl) (len colour : Nat) : PolLvl :=
  match colour with
  | 0 => { l with c := l.c - polCharge len }
  | 1 => { l with e := l.e - polCharge len }
  | _ => l

/-- Write a policer's levels. -/
def State.setPolLvl (s : State) (i : Nat) (l : PolLvl) : State :=
  { s with mas := { s.mas with polLvl := if l = ⟨0, 0, 0⟩ then mdel s.mas.polLvl i else mput s.mas.polLvl i l } }

/-- POLICER_SWEEP (R228): a zero-length update at the policer's next instant of the fixed time base. -/
def execPolicerSweep (i : Policer) (s : State) : Host.Outcome State Fault Refusal :=
  let t := s.base125
  let first := i.val * 2 ^ 21
  let t := if t ≤ first then first else first + ceilDiv (t - first) (2 ^ 30) * 2 ^ 30
  let s := s.upTo (s.base0 + t * 80)
  .next (s.setPolLvl i (polRefill (s.polAt s.tick.epoch i) (s.polLvl i) s.base125))

/-- A commit's policers: the levels of a changed configuration are full at the boundary (R229). -/
def State.fillPolicers (s : State) (o : Overlay) (oldEpoch : Nat) : State :=
  o.pol.foldl (fun s p =>
    if p.2 = s.polAt oldEpoch p.1 then s
    else s.setPolLvl p.1 ⟨p.2.cbs * 4096, p.2.ebs * 4096, s.base125⟩) s

/-! ### Counters (R230) -/

/-- A counter's frame and byte counts. -/
def State.counter (s : State) (i : Nat) : Nat × Nat := mgetD s.mas.counters i (0, 0)

/-- Count a frame of L bytes (R230). -/
def State.count (s : State) (i len : Nat) : State :=
  let c := s.counter i
  { s with mas := { s.mas with counters := mput s.mas.counters i ((c.1 + 1) % 2 ^ 64, (c.2 + len) % 2 ^ 64) } }

/-- CNT_CLR (R230). -/
def State.cntClr (s : State) (i : Nat) : State := { s with mas := { s.mas with counters := mdel s.mas.counters i } }

/-- CNT_CLR (R230). -/
def execCntClr (c : Counter) (s : State) : Host.Outcome State Fault Refusal := .next (s.unlessReset 6 R.CNT_CLR (s.cntClr c))

/-- The number of a reader: the tenants 0 to 15, the owner 16, MGC 17 (R617). -/
def readerNum : Reader → Nat
  | .tenant n => n
  | .owner => 16
  | .mgc => 17

/-- A reader's latch of a register (R617); the register is named by its key in the register file (DESIGN CHOICE, log entry 4). -/
def State.latch (s : State) (rd : Reader) (f : Fld) : Nat := mgetD s.latches (f.off * 32 + readerNum rd) f.rst

/-- Write a reader's latch (R617). -/
def State.setLatch (s : State) (rd : Reader) (f : Fld) (v : Nat) : State :=
  { s with latches := if v = f.rst then mdel s.latches (f.off * 32 + readerNum rd) else mput s.latches (f.off * 32 + readerNum rd) v }

/-- A read of CNT_PKT_LO: its value, and the snapshot of the other three words (R230, R617). -/
def State.cntPktLo (s : State) (rd : Reader) : Nat × State :=
  let c := s.counter (s.rd R.CNT_SEL)
  (c.1 % 2 ^ 32, ((s.setLatch rd R.CNT_PKT_HI (c.1 / 2 ^ 32)).setLatch rd R.CNT_BYTE_LO (c.2 % 2 ^ 32)).setLatch rd
    R.CNT_BYTE_HI (c.2 / 2 ^ 32))

/-- CNT_PKT_LO_READ (R230). -/
def execCntPktLoRead (rd : Reader) (s : State) : Host.Outcome State Fault Refusal :=
  .next (s.ownerAnswer rd R.CNT_PKT_LO.off (s.cntPktLo rd))

/-- A cross-tenant attempt is recorded (R338): TEN_VIOL of the tenant and its source (DEDUCED, log entry 72). -/
def State.tenViol (s : State) (n : Nat) : State := (s.inc (R.TEN_VIOL n)).raise 237

/-- A read of TCNT_PKT_LO by a tenant (R614). -/
def State.tcntPktLo (s : State) (n : Nat) (rd : Reader) : Nat × State :=
  let sel := s.rd (R.TCNT_SEL n)
  let inRange := decide (sel < s.inf (R.PART_CNT_CNT_NUM n))
  let c := if inRange then s.counter (s.inf (R.PART_CNT_CNT_BASE n) + sel) else (0, 0)
  let s := if inRange then s else s.tenViol n
  (c.1 % 2 ^ 32, ((s.setLatch rd (R.TCNT_PKT_HI n) (c.1 / 2 ^ 32)).setLatch rd (R.TCNT_BYTE_LO n)
    (c.2 % 2 ^ 32)).setLatch rd (R.TCNT_BYTE_HI n) (c.2 / 2 ^ 32))

/-- TCNT_PKT_LO_READ (R614). -/
def execTcntPktLoRead (n : Tenant) (s : State) : Host.Outcome State Fault Refusal :=
  .next (s.answer (.tenant n) (R.TCNT_PKT_LO n).off (s.tcntPktLo n (.tenant n)))

/-! ### Sketch (R234 to R237) -/

/-- The hash constants A_r of R234. -/
def sketchHash (r : Nat) : Nat :=
  match r with
  | 0 => 0x9E3779B1
  | 1 => 0x85EBCA77
  | 2 => 0xC2B2AE3D
  | _ => 0x27D4EB2F

/-- The row index of telemetry flow x in row r (R234). -/
def sketchIdx (r x : Nat) : Nat := sketchHash r * x % 2 ^ 32 / 2 ^ 19

/-- A clear in progress has reached the indices up to this instant (R236). -/
def State.sketchSync (s : State) : State :=
  match s.mas.sketchClear with
  | none => s
  | some (from_, done) =>
    let reach := min 8192 ((s.now - from_) / s.cycle + 1)
    { s with mas := { s.mas with
        sketch := s.mas.sketch.filter (fun p => !(decide (done ≤ p.1 % 8192) && decide (p.1 % 8192 < reach)))
        sketchClear := some (from_, max done reach) } }

/-- Counter h_r(x) of the sketch. -/
def State.sketchAt (s : State) (r x : Nat) : Nat := mgetD s.mas.sketch (8192 * r + sketchIdx r x) 0

/-- A frame's amount is added to its four counters (R234). -/
def State.sketchAdd (s : State) (x len : Nat) : State :=
  if s.rd R.SKETCH_CFG_EN = 0 then s
  else
    let s := s.sketchSync
    let n := if s.rd R.SKETCH_CFG_UNIT = 0 then 1 else len
    (List.range 4).foldl (fun s r =>
      let v := s.sketchAt r x + n
      let s := { s with mas := { s.mas with
        sketch := mput s.mas.sketch (8192 * r + sketchIdx r x) (min v 0xFFFFFFFF) } }
      if v ≥ 0xFFFFFFFF then s.put R.SKETCH_STAT_SAT true else s) s

/-- A write of 1 to SKETCH_CTRL.CLEAR; ignored while CLEARING (R236). -/
def State.sketchClear (s : State) : State :=
  if s.bit R.SKETCH_STAT_CLEARING then s
  else { s with mas := { s.mas with sketchClear := some (s.now, 0) } }.put R.SKETCH_STAT_CLEARING true

/-- SKETCH_CLEAR (R236). -/
def execSketchClear (s : State) : Host.Outcome State Fault Refusal :=
  .next (s.unlessReset 6 R.SKETCH_CTRL_CLEAR s.sketchClear)

/-- SKETCH_CLEAR_DONE (R236): after 8 192 cycles. -/
def execSketchClearDone (s : State) : Host.Outcome State Fault Refusal :=
  match s.mas.sketchClear with
  | none => .next s
  | some (from_, _) =>
    let s := (s.upTo (from_ + 8192 * s.cycle)).sketchSync
    .next ({ s with mas := { s.mas with sketchClear := none } }.put R.SKETCH_STAT_CLEARING false)

/-- A write of SKETCH_QRY latches the four counters and their minimum (R237). -/
def State.sketchQry (s : State) (x : Nat) : State :=
  let s := (s.wr R.SKETCH_QRY x).sketchSync
  let v (r : Nat) : Nat := s.sketchAt r (x % 65536)
  let s := (List.range 4).foldl (fun s r => s.wr (R.SKETCH_ROW r) (v r)) s
  s.wr R.SKETCH_EST (min (min (v 0) (v 1)) (min (v 2) (v 3)))

/-- SKETCH_QRY (R237). -/
def execSketchQry (x : BitVec 16) (s : State) : Host.Outcome State Fault Refusal :=
  .next (s.unlessReset 6 R.SKETCH_QRY (s.sketchQry x.toNat))

/-! ### Lane faults (R210) -/

/-- Whether a lane is in service. -/
def State.laneUp (s : State) (l : Nat) : Bool := !s.bitAt R.MAS_STAT_LANE_FAIL l

/-- The lane that serves the classification contexts of a home lane: itself, or the next in service (R210). -/
def State.servingLane (s : State) (l : Nat) : Nat :=
  ((List.range 4).map (fun k => (l + k) % 4)).find? s.laneUp |>.getD l

/-- The lane of a source (R207, R210). -/
def State.laneOf (s : State) (src : Source) : Nat :=
  s.servingLane (match src with
    | .port p => p.val % 4
    | _ => 2)

end Sys2Proof.Machine
end

