-- ==== Sys2Proof/Machine/Operands.lean ====
section
/-! DEFINITION. HAC instructions as words, the operands they name (registers, byte spaces, the operand v of R244), the checks of
their fields, and traps (spec/08_henabin_action_code.md, R239 to R244, R249, R250, R265 to R269). -/

namespace Sys2Proof.Machine

/-- The fields of an instruction word (R242). -/
structure Ins where
  op : Nat
  f1 : Nat
  f2 : Nat
  f3 : Nat
  f4 : Nat
  imm : Nat
  deriving DecidableEq, Repr

/-- The instruction of a store word (R242). -/
def insOf (w : Qword) : Ins :=
  let n := w.toNat
  ⟨n / 2 ^ 56, n / 2 ^ 52 % 16, n / 2 ^ 48 % 16, n / 2 ^ 40 % 256, n / 2 ^ 32 % 256, n % 2 ^ 32⟩

/-- A word of the HAC store; a word that nothing has written reads 0 (chapter 8, registers). -/
def State.hacWord (s : State) (w : Nat) : Qword := mgetD s.mas.store w 0

/-! ### Traps (R265 to R268) -/

def trapUndefOp : Nat := 0x01
def trapBadField : Nat := 0x02
def trapBadPhase : Nat := 0x03
def trapBadSpace : Nat := 0x04
def trapPartViol : Nat := 0x05
def trapExitOvf : Nat := 0x06
def trapBadExit : Nat := 0x07
def trapTblEcc : Nat := 0x08
def trapUnitFault : Nat := 0x09
def trapRange : Nat := 0x0A
def trapInsnLimit : Nat := 0x0B
def trapNoFlow : Nat := 0x0C

/-- SRC_KIND, SRC_ID and RING of a source (R212). -/
def srcIds (src : Source) : Nat × Nat × Nat :=
  match src with
  | .port p => (0, p, 0)
  | .ring f r => (1, f, r)
  | .mgc => (1, 16, 0)

/-- The tenant whose ring a frame comes from, if it does. -/
def srcTenant (src : Source) : Option Nat :=
  match src with
  | .ring f _ => if f.val < 16 then some f.val else none
  | _ => none

/-- A trap (R268): TRAP_INFO is formed, counted and stored, HAC_TRAP is raised, and the phase ends (DEDUCED, log entry 32). -/
def hacTrap (s : State) (c : Ctx) (code : Nat) : State × Ctx :=
  let info := code % 256 + 2 ^ 8 * (c.pc % 2 ^ 14) + (if c.resolving then 2 ^ 22 else 0) + 2 ^ 23 * (c.lane % 4)
  let (kind, id, ring) := srcIds c.src
  let s := if code = trapPartViol then s.inc R.PART_VIOL_CNT else s
  let s := (s.inc R.TRAP_CNT).wr R.TRAP_LAST info
  let s := s.wr R.TRAP_LAST_SRC (kind + 2 * id + 64 * ring + 2 ^ 16 * (s.tick.num % 2 ^ 16))
  (s.raise 229, { c with fin := .trapped info })

/-! ### Registers -/

/-- The value of G0 to G7 (R239). -/
def Ctx.reg (c : Ctx) (i : Nat) : Qword := c.g.getD i 0

/-- Write G0 to G7. -/
def Ctx.setReg (c : Ctx) (i : Nat) (v : Qword) : Ctx := { c with g := lmod c.g i (fun _ => v) }

/-! ### Byte spaces (R240, R241) -/

/-- The size of a byte space; codes 8 to 15 are reserved and have none (R240). -/
def spaceSize (code : Nat) : Nat :=
  match code with
  | 0 => 128
  | 1 => 64
  | 2 => 64
  | 3 => 56
  | 4 => 16
  | 5 => 16
  | 6 => 64
  | 7 => 32
  | _ => 0

/-- The content of a byte space (R240). -/
def Ctx.space_ (c : Ctx) (code : Nat) : List Byte :=
  match code with
  | 0 => c.w
  | 1 => c.v
  | 2 => c.m
  | 3 => c.k
  | 4 => c.x
  | 5 => c.t
  | 6 => c.d
  | _ => c.p

/-- Bytes of a space. -/
def Ctx.bytes (c : Ctx) (code off n : Nat) : List Byte := sliceD (c.space_ code) off n

/-- Write bytes of K or P, the writable spaces (R240). -/
def Ctx.setBytes (c : Ctx) (code off : Nat) (b : List Byte) : Ctx :=
  if code = 3 then { c with k := overwrite c.k off b } else { c with p := overwrite c.p off b }

/-- An access lies within its space (R241). -/
def inSpace (code off n : Nat) : Bool := decide (code ≤ 7 ∧ off + n ≤ spaceSize code)

/-- A space can be written (R240). -/
def writable (code : Nat) : Bool := code == 3 || code == 7

/-- V and D exist only at resolution (R240). -/
def resolutionSpace (code : Nat) : Bool := code == 1 || code == 6

/-! ### Opcodes, phases and costs (R251) -/

/-- The phases an opcode is permitted in. -/
inductive Phase where
  | both | cls | res
  deriving DecidableEq, Repr

/-- The phase and the lane cycles of a defined opcode (R251). -/
def opInfo (op : Nat) : Option (Phase × Nat) :=
  match op with
  | 0x01 => some (.both, 1)
  | 0x02 => some (.cls, 1)
  | 0x03 => some (.both, 1)
  | 0x04 => some (.both, 1)
  | 0x10 => some (.both, 1)
  | 0x11 => some (.both, 1)
  | 0x12 => some (.both, 1)
  | 0x13 => some (.both, 1)
  | 0x14 => some (.both, 2)
  | 0x15 => some (.both, 2)
  | 0x20 => some (.both, 1)
  | 0x21 => some (.both, 1)
  | 0x22 => some (.both, 1)
  | 0x23 => some (.both, 1)
  | 0x24 => some (.both, 1)
  | 0x25 => some (.both, 1)
  | 0x26 => some (.both, 1)
  | 0x27 => some (.both, 1)
  | 0x28 => some (.both, 1)
  | 0x30 => some (.both, 2)
  | 0x31 => some (.both, 2)
  | 0x32 => some (.both, 1)
  | 0x40 => some (.cls, 1)
  | 0x41 => some (.cls, 1)
  | 0x42 => some (.cls, 1)
  | 0x43 => some (.both, 1)
  | 0x44 => some (.res, 1)
  | 0x45 => some (.res, 1)
  | 0x46 => some (.res, 1)
  | 0x47 => some (.res, 2)
  | 0x50 => some (.res, 2)
  | 0x51 => some (.res, 1)
  | 0x60 => some (.res, 2)
  | 0x61 => some (.res, 2)
  | 0x62 => some (.res, 2)
  | _ => none

/-- The opcode is used outside its phase, or V or D in classification (R241, R250). -/
def badPhase (i : Ins) (resolving : Bool) : Bool :=
  match opInfo i.op with
  | some (.cls, _) => resolving
  | some (.res, _) => !resolving
  | some (.both, _) =>
    !resolving && ((decide (0x12 ≤ i.op ∧ i.op ≤ 0x13) && resolutionSpace i.f2)
      || (decide (0x14 ≤ i.op ∧ i.op ≤ 0x15) && (resolutionSpace i.f1 || resolutionSpace i.f2)))
  | none => false

/-- The operand of ADD, SUB, AND, OR, XOR, SHL, SHR, CMP and MOV is well formed (R244): F3 carries only I; with I = 1, F4 is
0; with I = 0, F4 names a register and IMM is 0. -/
def okOperand4 (i : Ins) : Bool :=
  if i.f3 = 1 then i.f4 == 0 else i.f3 == 0 && decide (i.f4 < 8) && i.imm == 0

/-- The operand of SPC, FLOW and TELE is well formed (R244): F2 names the register, and IMM has at most `lim`. -/
def okOperand2 (i : Ins) (lim : Nat) : Bool :=
  i.f4 == 0 && (if i.f3 = 1 then i.f2 == 0 && decide (i.imm ≤ lim) else i.f3 == 0 && decide (i.f2 < 8) && i.imm == 0)

/-- The operand v (R244), from IMM or the register in F4. -/
def Ctx.operand4 (c : Ctx) (i : Ins) : Qword := if i.f3 = 1 then BitVec.ofNat 64 i.imm else c.reg i.f4

/-- The operand v (R244), from IMM or the register in F2. -/
def Ctx.operand2 (c : Ctx) (i : Ins) : Qword := if i.f3 = 1 then BitVec.ofNat 64 i.imm else c.reg i.f2

/-- The fields of an instruction are well formed (R241, R243, R244, R251): no unused field is non-zero, every register is G0
to G7, no field holds a reserved value, and every access lies in its space. Values that come from a register are judged
by the instruction's effect. -/
def fieldsOk (i : Ins) : Bool :=
  match i.op with
  | 0x03 => i.f1 == 0 && i.f2 == 0 && i.f4 == 0 && i.imm == 0 && decide (i.f3 ≥ 0x80)
  | 0x04 => i.f2 == 0 && i.f3 == 0 && i.f4 == 0 && decide (i.f1 ≤ 6) && decide (i.imm < 2 ^ 14)
  | 0x10 => i.f2 == 0 && i.f3 == 0 && i.f4 == 0 && decide (i.f1 < 8)
  | 0x11 => i.f2 == 0 && i.f3 == 0 && i.f4 == 0 && decide (i.f1 < 8)
  | 0x12 => i.imm == 0 && decide (i.f1 < 8) && decide (1 ≤ i.f4 ∧ i.f4 ≤ 8) && inSpace i.f2 i.f3 i.f4
  | 0x13 => i.imm == 0 && decide (i.f1 < 8) && decide (1 ≤ i.f4 ∧ i.f4 ≤ 8) && inSpace i.f2 i.f3 i.f4 && writable i.f2
  | 0x14 => decide (i.imm < 256) && decide (1 ≤ i.f4 ∧ i.f4 ≤ 32) && inSpace i.f1 i.f3 i.f4 && inSpace i.f2 i.imm i.f4
      && writable i.f2
  | 0x15 => decide (i.imm < 256) && decide (1 ≤ i.f4 ∧ i.f4 ≤ 32) && inSpace i.f1 i.f3 i.f4 && inSpace i.f2 i.imm i.f4
  | 0x20 | 0x21 | 0x22 | 0x23 | 0x24 => decide (i.f1 < 8) && decide (i.f2 < 8) && okOperand4 i
  | 0x25 | 0x26 => decide (i.f1 < 8) && decide (i.f2 < 8) && okOperand4 i && (i.f3 == 0 || decide (i.imm ≤ 63))
  | 0x27 => i.f1 == 0 && decide (i.f2 < 8) && okOperand4 i
  | 0x28 => i.f2 == 0 && decide (i.f1 < 8) && okOperand4 i
  | 0x30 | 0x31 => i.f2 == 0 && i.f3 == 0 && i.f4 == 0 && i.imm == 0 && decide (i.f1 < 8)
  | 0x32 => i.f1 == 0 && okOperand2 i 31
  | 0x40 => i.f1 == 0 && okOperand2 i 4095
  | 0x41 => i.f1 == 0 && i.f3 == 0 && i.f4 == 0 && i.imm == 0 && decide (i.f2 < 8)
  | 0x43 => i.f1 == 0 && okOperand2 i 0xFFFF
  | 0x44 => i.f1 == 0 && i.f4 == 0 && i.imm == 0 && decide (i.f2 < 8) && decide (i.f3 ≤ 7)
  | 0x45 => i.f1 == 0 && i.f2 == 0 && i.imm == 0 && (decide (i.f3 ≤ 7) || i.f3 == 0xFF) && decide (2 ≤ i.f4 ∧ i.f4 ≤ 5)
  | 0x46 => i.f1 == 0 && i.f3 == 0 && i.imm == 0 && decide (i.f2 < 8) && decide (1 ≤ i.f4 ∧ i.f4 ≤ 32)
  | 0x47 => i.f1 == 0 && i.f2 == 0 && i.f3 == 0 && i.f4 == 0 && decide (i.imm < 128)
  | 0x50 => i.f3 == 0 && i.f4 == 0 && decide (i.f1 < 8) && decide (i.f2 < 8) && decide (i.imm < 512)
  | 0x51 => i.f1 == 0 && i.f2 == 0 && i.f3 == 0 && i.f4 == 0 && decide (i.imm < 1024)
  | 0x60 => decide (i.f1 ≤ 3) && decide (i.f2 < 8) && decide (i.f3 ≤ 8) && decide (i.f4 < 8) && decide (i.imm < 8)
  | 0x61 => decide (i.f1 ≤ 4) && decide (i.f2 < 8) && decide (i.f3 ≤ 1) && i.imm == 0
      && (if i.f3 = 1 then decide (i.f4 ≤ 63) else i.f4 == 0)
  | _ => i.f1 == 0 && i.f2 == 0 && i.f3 == 0 && i.f4 == 0 && i.imm == 0

/-! ### Exits (R223) -/

/-- The fields of an exit word (R223) (DEDUCED, log entry 9). -/
def exitOf (w : Qword) : Exit :=
  let n := w.toNat
  ⟨n % 32, n / 2 ^ 5 % 8, n.testBit 8, n / 2 ^ 9 % 4, n / 2 ^ 11 % 4, n / 2 ^ 13 % 4, n / 2 ^ 16 % 2 ^ 16, n / 2 ^ 32 % 2 ^ 16,
    n / 2 ^ 48 % 2 ^ 8⟩

/-- A reserved bit of an exit word is set (R223). -/
def exitReserved (w : Qword) : Bool := w.toNat.testBit 15 || decide (w.toNat / 2 ^ 56 ≠ 0)

/-- DEST and SUB hold defined values (R95). -/
def destOk (d sub : Nat) : Bool :=
  decide (d ≤ 5) || (decide (8 ≤ d ∧ d ≤ 23) && decide (sub ≤ 3)) || (d == 24 && (decide (sub ≤ 3) || sub == 7)) || d == 25

/-- The R-tag operation draws a number (R312). -/
def Exit.draws (e : Exit) : Bool := decide (e.rOp ≥ 2)

end Sys2Proof.Machine
end

