-- ==== Sys2Proof/Machine/Flags.lean ====
section
/-! DEFINITION. The flags of a lane context (R239, R251, R252): Z is zero or equal, LT is unsigned less than, H is a lookup hit.
An opcode whose effect names no flag changes none. -/

namespace Sys2Proof.Machine

/-- Z after an arithmetic or logical result (R251). -/
def Ctx.flagZ (c : Ctx) (r : Qword) : Ctx := { c with z := r == 0 }

/-- LT after SUB: the first source is less than the operand, unsigned (R251). -/
def Ctx.flagLt (c : Ctx) (a v : Qword) : Ctx := { c with lt := decide (a.toNat < v.toNat) }

/-- Z and LT after CMP (R251). -/
def Ctx.flagCmp (c : Ctx) (a v : Qword) : Ctx := { c with z := a == v, lt := decide (a.toNat < v.toNat) }

/-- Z after CMPB: the byte ranges are equal (R251). -/
def Ctx.flagEq (c : Ctx) (a b : List Byte) : Ctx := { c with z := a == b }

/-- Z after REC: the function discards the frame (R259). -/
def Ctx.flagRec (c : Ctx) (discards : Bool) : Ctx := { c with z := discards }

/-- H after a lookup (R253). -/
def Ctx.flagHit (c : Ctx) (hit : Bool) : Ctx := { c with h := hit }

/-- The condition of BR (R251). -/
def Ctx.condition (c : Ctx) (cond : Nat) : Bool :=
  match cond with
  | 0 => true
  | 1 => c.z
  | 2 => !c.z
  | 3 => c.h
  | 4 => !c.h
  | 5 => c.lt
  | _ => !c.lt

end Sys2Proof.Machine
end

