-- ==== Sys2Proof/Machine/Sched.lean ====
section
/-! DEFINITION. How DGE and the CRUs choose their next block (spec/15_digest_and_check_units.md R434 to R438, R444, R455). Blocks start
without a command: what has started by an instant is worked out when something depends on it. -/

namespace Sys2Proof.Machine

/-! ### Frame jobs -/

/-- Change every resolution context of the lanes, in place or parked. -/
def State.modCtxs (s : State) (g : Nat → Ctx → Ctx) : State :=
  { s with mas := { s.mas with lanes := s.mas.lanes.map (fun l =>
      { l with res := l.res.map (fun x => (x.1, g x.1 x.2)), parked := l.parked.map (fun x => (x.1, g x.1 x.2)) }) } }

/-- The resolution context of a frame. -/
def State.ctxOf (s : State) (h : Nat) : Option Ctx :=
  (s.mas.lanes.findSome? (fun l => (l.res.toList ++ l.parked).find? (fun x => x.1 == h))).map (·.2)

/-- A frame job with blocks to start: its frame, its place in the order of R437 (the tick in which it entered, then its lane), its
algorithm, and the instant from which on its next block may start. -/
structure OpenJob where
  frame : Nat
  order : Nat
  alg : Nat
  at_ : Nat
  deriving DecidableEq, Repr

/-- The frame jobs of a unit (none: DGE) with blocks to start (DEDUCED, log entry 20). -/
def State.openJobs (s : State) (u : Option Nat) : List OpenJob :=
  s.mas.lanes.zipIdx.flatMap (fun l => (l.1.res.toList ++ l.1.parked).flatMap (fun x => x.2.jobs.filterMap (fun j =>
    if j.unit = u ∧ j.done = false ∧ j.left ≠ 0 then some ⟨x.1, 4 * j.tick + l.2, j.alg, j.at_⟩ else none)))

/-- The oldest of some frame jobs (R437, R455). -/
def oldestJob : List OpenJob → Option OpenJob
  | [] => none
  | a :: t =>
    match oldestJob t with
    | none => some a
    | some b => some (if b.order < a.order then b else a)

/-- A block of a frame's job on a unit starts, and ends at an instant. -/
def startJob (u : Option Nat) (done : Nat) : List Job → List Job
  | [] => []
  | j :: t =>
    if j.unit = u ∧ j.done = false ∧ j.left ≠ 0 then { j with left := j.left - 1, at_ := done } :: t
    else j :: startJob u done t

/-- The earliest of some instants. -/
def earliest : List Nat → Option Nat
  | [] => none
  | a :: t => some (t.foldl min a)

/-! ### DGE (R434 to R438) -/

/-- Core cycles of one block of an algorithm (R434). -/
def blockCycles (alg : Nat) : Nat := if shaWide alg then 160 else 80

/-- Digest units of one block of an algorithm (R434). -/
def blockUnits (alg : Nat) : Nat := if shaWide alg then 2 else 1

/-- A context has a block to start: a full one while OPEN, one of those left while FINISHING. -/
def Stream.blockReady (x : Stream) : Bool :=
  (x.state == 1 && decide (x.part.length + x.buf.length ≥ shaBlock x.alg)) || (x.state == 2 && decide (x.left ≠ 0))

/-- The instant from which on a context's next block may start: the block before it has ended and its bytes are there. -/
def Stream.readyAt (x : Stream) : Nat := max x.busyUntil x.lastAt

/-- A block of a context starts, and ends at an instant (R436). -/
def Stream.startBlock (x : Stream) (done : Nat) : Stream :=
  if x.state = 2 then { x with left := x.left - 1, busyUntil := done }
  else
    let need := shaBlock x.alg - x.part.length
    { x with
      chain := shaCompress x.alg x.chain (x.part ++ x.buf.take need), part := [], buf := x.buf.drop need
      count := x.count + need, busyUntil := done }

/-- Bytes that make no full block go from the input buffer to the partial block while no block of the context runs (R436) (DEDUCED, log entry 47). -/
def Stream.fill (t : Nat) (x : Stream) : Stream :=
  if x.state = 1 ∧ x.busyUntil ≤ t ∧ x.blockReady = false then
    { x with part := x.part ++ x.buf, buf := [], count := x.count + x.buf.length }
  else x

/-- The block of the context whose turn it is starts on a pipeline (R437) (DEDUCED, log entry 20). -/
def State.startCtx (s : State) (k t : Nat) : State :=
  let d := s.dge
  let l := d.ctxs.zipIdx.filter (fun x => x.1.blockReady && decide (x.1.readyAt ≤ t))
  match (l.find? (fun x => decide (x.2 ≥ d.turn))) <|> l.head? with
  | none => s
  | some (x, c) =>
    let done := t + blockCycles x.alg * s.cycle
    { s with dge := { d with
        ctxs := lmod d.ctxs c (fun x => x.startBlock done), pipes := lmod d.pipes k (fun _ => done), since := 0
        turn := (c + 1) % 17, units := (d.units.1, d.units.2 + blockUnits x.alg) } }

/-- A stream block of DGE that is ready at an instant starts: of a key load first, else of the contexts in round-robin order (R437,
R444). -/
def State.startStream (s : State) (k t : Nat) : State :=
  let d := s.dge
  match d.load with
  | some (n + 1, cyc, at_) =>
    if at_ ≤ t then
      { s with dge := { d with
          load := some (n, cyc, t + cyc * s.cycle), pipes := lmod d.pipes k (fun _ => t + cyc * s.cycle), since := 0
          units := (d.units.1, d.units.2 + cyc / 80) } }
    else s.startCtx k t
  | _ => s.startCtx k t

/-- The block of the oldest frame job starts on a pipeline (R437) (DEDUCED, log entry 20). -/
def State.startFrame (s : State) (k t : Nat) (j : OpenJob) : State :=
  let done := t + blockCycles j.alg * s.cycle
  let s := s.modCtxs (fun h c => if h = j.frame then { c with jobs := startJob none done c.jobs } else c)
  { s with dge := { s.dge with
      pipes := lmod s.dge.pipes k (fun _ => done), since := s.dge.since + 1
      units := (s.dge.units.1 + blockUnits j.alg, s.dge.units.2) } }

/-- The next block that DGE starts by an instant, if one does (R437) (DEDUCED, log entry 20). -/
def State.dgeStep (s : State) (lim : Nat) : Option State :=
  let d := s.dge
  let jobs := s.openJobs none
  let ctxs := d.ctxs.filter Stream.blockReady
  let load := match d.load with
    | some (_ + 1, _, t) => [t]
    | _ => []
  match earliest (jobs.map (·.at_) ++ ctxs.map Stream.readyAt ++ load), earliest d.pipes with
  | some first, some free =>
    let t := max first free
    if t > lim then none
    else
      let k := (d.pipes.findIdx? (· == free)).getD 0
      let stream := ctxs.any (fun x => decide (x.readyAt ≤ t)) || load.any (fun a => decide (a ≤ t))
      match oldestJob (jobs.filter (fun j => decide (j.at_ ≤ t))) with
      | some j => some (if stream && decide (d.since ≥ 10) then s.startStream k t else s.startFrame k t j)
      | none => some (s.startStream k t)
  | _, _ => none

/-- The blocks that DGE starts by an instant, at most n. -/
def State.dgeRun (lim : Nat) : Nat → State → State
  | 0, s => s
  | n + 1, s =>
    match s.dgeStep lim with
    | some s => State.dgeRun lim n s
    | none => s

/-- Blocks that are still to start in DGE: an upper bound. -/
def State.dgeLeft (s : State) : Nat :=
  (s.mas.lanes.map (fun l => ((l.res.toList ++ l.parked).map (fun x => (x.2.jobs.map (·.left)).sum)).sum)).sum
    + (s.dge.ctxs.map (fun x => x.left + 4)).sum + (match s.dge.load with
      | some (n, _, _) => n
      | none => 0)

/-- DGE as it stands at an instant: it starts no block during a reset or a clear (R449, R451). -/
def State.dgeTo (s : State) (lim : Nat) : State :=
  if s.bitAt R.ENG_RST_STAT 10 ∨ s.dge.clearing.isSome then s
  else
    let s := State.dgeRun lim s.dgeLeft s
    { s with dge := { s.dge with ctxs := s.dge.ctxs.map (Stream.fill lim) } }

/-- DGE as it stands now. -/
def State.dgeSync (s : State) : State := s.dgeTo s.now

/-- No block can have started before now (R449, R451). -/
def State.dgeFree (s : State) : State := { s with dge := { s.dge with pipes := List.replicate 4 s.now } }

/-- A context as it stands now. -/
def State.stream (s : State) (c : Nat) : Stream := s.dgeSync.dge.ctxs.getD c Stream.reset

/-- Put a context. -/
def State.setStream (s : State) (c : Nat) (x : Stream) : State :=
  let s := s.dgeSync
  { s with dge := { s.dge with ctxs := lmod s.dge.ctxs c (fun _ => x) } }

/-! ### The CRUs (R455) -/

/-- A CRU. -/
def State.cru (s : State) (u : Nat) : Cru := s.crus.getD u Cru.reset

/-- Change a CRU. -/
def State.modCru (s : State) (u : Nat) (g : Cru → Cru) : State := { s with crus := lmod s.crus u g }

/-- A job port has a block to start: 8 bytes, or at its end those that are left. -/
def CruPort.blockReady (x : CruPort) : Bool :=
  (x.state == 1 && decide (x.part.length + x.buf.length ≥ 8)) || (x.state == 2 && decide (x.part.length + x.buf.length ≠ 0))

/-- The instant from which on a job port's next block may start. -/
def CruPort.readyAt (x : CruPort) : Nat := max x.busy x.lastAt

/-- A block of a job port starts, and ends at an instant: first the bytes of the fold word, then those of the input buffer. -/
def CruPort.startBlock (x : CruPort) (done : Nat) : CruPort :=
  { x with
    reg := crcFeed x.width x.poly x.refin x.reg ((x.part ++ x.buf).take 8), part := x.part.drop 8
    buf := x.buf.drop (8 - x.part.length), busy := done }

/-- The next block that a unit starts by an instant, if one does (R455) (DEDUCED, log entry 20). -/
def State.cruStep (s : State) (u lim : Nat) : Option State :=
  let c := s.cru u
  let jobs := s.openJobs (some u)
  match earliest (jobs.map (·.at_) ++ (c.ports.filter CruPort.blockReady).map CruPort.readyAt) with
  | none => none
  | some first =>
    let t := max first c.free
    let done := t + s.cycle
    let ports := c.ports.zipIdx.filter (fun x => x.1.blockReady && decide (x.1.readyAt ≤ t))
    let port : Option (CruPort × Nat) := (ports.find? (fun x => decide (x.2 ≥ c.turn))) <|> ports.head?
    if t > lim then none
    else
      let frame (j : OpenJob) : State :=
        (s.modCtxs (fun h x => if h = j.frame then { x with jobs := startJob (some u) done x.jobs } else x)).modCru u
          (fun c => { c with free := done, since := c.since + 1, blocks := (c.blocks.1 + 1, c.blocks.2) })
      let own (j : Nat) : State := s.modCru u (fun c => { c with
        ports := lmod c.ports j (fun x => x.startBlock done), free := done, since := 0, turn := (j + 1) % 2
        blocks := (c.blocks.1, c.blocks.2 + 1) })
      match oldestJob (jobs.filter (fun j => decide (j.at_ ≤ t))), port with
      | some j, some p => some (if c.since ≥ 10 then own p.2 else frame j)
      | some j, none => some (frame j)
      | none, some p => some (own p.2)
      | none, none => none

/-- The blocks that a unit starts by an instant, at most n. -/
def State.cruRun (u lim : Nat) : Nat → State → State
  | 0, s => s
  | n + 1, s =>
    match s.cruStep u lim with
    | some s => State.cruRun u lim n s
    | none => s

/-- A unit as it stands at an instant; it starts no block during its reset (R457). -/
def State.cruTo (s : State) (u lim : Nat) : State :=
  if s.bitAt R.ENG_RST_STAT (11 + u) then s else State.cruRun u lim (s.dgeLeft + 40) s

/-- A unit as it stands now. -/
def State.cruSync (s : State) (u : Nat) : State := s.cruTo u s.now

/-- DGE and the CRUs as they stand at an instant: called before their jobs or their speed change. -/
def State.unitsTo (s : State) (lim : Nat) : State :=
  ([0, 1, 2, 3] : List Nat).foldl (fun s u => s.cruTo u lim) (s.dgeTo lim)

/-- DGE and the CRUs as they stand now. -/
def State.unitsSync (s : State) : State := s.unitsTo s.now

/-- A job port as it stands now. -/
def State.cruPort (s : State) (u j : Nat) : CruPort := ((s.cruSync u).cru u).ports.getD j CruPort.reset

/-- Put a job port. -/
def State.setCruPort (s : State) (u j : Nat) (x : CruPort) : State :=
  (s.cruSync u).modCru u (fun c => { c with ports := lmod c.ports j (fun _ => x) })

/-! ### When jobs end -/

/-- An instant after everything that is in hand has ended. -/
def State.farAhead (s : State) : Nat := s.now + 2 ^ 64

/-- The instant at which the last block of a frame's oldest open job on a unit ends, with what is in hand now (R434, R437, R455). -/
def State.jobEnd (s : State) (u : Option Nat) (h : Nat) : Nat :=
  let t := match u with
    | none => s.dgeTo s.farAhead
    | some u => s.cruTo u s.farAhead
  (((t.ctxOf h).bind (fun c => c.jobs.find? (fun j => j.unit == u && !j.done))).map (·.at_)).getD s.now

end Sys2Proof.Machine
end

