-- ==== Sys2Proof/Machine/Hac.lean ====
section
/-! DEFINITION. What each HAC opcode does in its lane context (spec/08_henabin_action_code.md, R245 to R264, with R221, R223,
R312 to R314, R316 to R320, R446 and R447). Fields and phase have been checked (Operands.lean); the program counter has moved
past the instruction by `advance`, so a trap's PC is put back by `trapAt`. -/

namespace Sys2Proof.Machine

/-- The result of an instruction: the state with what took effect at once, and the context. -/
abbrev HacRes := State × Ctx

/-- The context moves on to the next word. -/
def advance (c : Ctx) : Ctx := { c with pc := c.pc + 1 }

/-- An instruction's effect in the context, and the move to the next word. -/
def plain (s : State) (c : Ctx) : HacRes := (s, advance c)

/-- A trap at the instruction (R268). -/
def trapAt (s : State) (c : Ctx) (code : Nat) : HacRes := hacTrap s c code

/-! ### Closing and ending (R245, R255, R266, R312) -/

/-- The generation functions that a list of exits names (R312). -/
def genNamed (l : List Exit) : List Nat := ((l.filter Exit.draws).map (·.rgen)).eraseDups

/-- Every named generation function is enabled for the frame's flow in its epoch (R312). -/
def State.genOk (s : State) (epoch flow : Nat) (l : List Exit) : Bool :=
  (genNamed l).all (fun g => s.infAt epoch (R.GEN_CFG_EN g) == 1 && s.infAt epoch (R.GEN_CFG_FLOW g) == flow)

/-- Classification closes (R245, R255, R312); resolution will resume at `resume`. A closing with no exit counts in CLS_NOEXIT
(R224). -/
def closeAt (s : State) (c : Ctx) (resume : Nat) : HacRes :=
  if c.exits.isEmpty then (s.inc R.CLS_NOEXIT, { c with pc := resume, fin := .closed })
  else
    match c.flow with
    | none => trapAt s c trapNoFlow
    | some x =>
      if s.genOk c.epoch x c.exits then (s, { c with pc := resume, fin := .closed })
      else trapAt s c trapBadExit

/-- RESUME_PC after END in classification (R247). -/
def noResume : Nat := 0x3FFF

def opEnd (s : State) (c : Ctx) (_ : Ins) : HacRes :=
  if c.resolving then (s, { c with fin := .ended }) else closeAt s c noResume

def opClose (s : State) (c : Ctx) (_ : Ins) : HacRes := closeAt s c (c.pc + 1)

def opTrap (s : State) (c : Ctx) (i : Ins) : HacRes := trapAt s c i.f3

/-- BR goes forward only (R246). -/
def opBr (s : State) (c : Ctx) (i : Ins) : HacRes :=
  if c.condition i.f1 then (s, { c with pc := c.pc + 1 + i.imm % 2 ^ 14 }) else plain s c

/-! ### Registers and bytes -/

def opLdi (s : State) (c : Ctx) (i : Ins) : HacRes := plain s (c.setReg i.f1 (BitVec.ofNat 64 i.imm))

def opLdih (s : State) (c : Ctx) (i : Ins) : HacRes :=
  plain s (c.setReg i.f1 (BitVec.ofNat 64 (i.imm * 2 ^ 32 + (c.reg i.f1).toNat % 2 ^ 32)))

def opLdb (s : State) (c : Ctx) (i : Ins) : HacRes :=
  plain s (c.setReg i.f1 (BitVec.ofNat 64 (beNat (c.bytes i.f2 i.f3 i.f4))))

def opStb (s : State) (c : Ctx) (i : Ins) : HacRes :=
  plain s (c.setBytes i.f2 i.f3 (beBytes i.f4 (c.reg i.f1).toNat))

/-- MOVB copies as if through a buffer (R251). -/
def opMovb (s : State) (c : Ctx) (i : Ins) : HacRes := plain s (c.setBytes i.f2 i.imm (c.bytes i.f1 i.f3 i.f4))

def opCmpb (s : State) (c : Ctx) (i : Ins) : HacRes :=
  plain s (c.flagEq (c.bytes i.f1 i.f3 i.f4) (c.bytes i.f2 i.imm i.f4))

/-! ### Arithmetic and logic -/

/-- An opcode of the ADD group: Gd takes a function of Gs and v, and Z follows (R251). -/
def aluOp (f : Qword → Qword → Qword) (s : State) (c : Ctx) (i : Ins) : HacRes :=
  let r := f (c.reg i.f2) (c.operand4 i)
  plain s ((c.setReg i.f1 r).flagZ r)

def opAdd : State → Ctx → Ins → HacRes := aluOp (· + ·)

/-- SUB also sets LT from its sources (R251). -/
def opSub (s : State) (c : Ctx) (i : Ins) : HacRes :=
  let a := c.reg i.f2
  let v := c.operand4 i
  plain s (((c.setReg i.f1 (a - v)).flagZ (a - v)).flagLt a v)

def opAnd : State → Ctx → Ins → HacRes := aluOp (· &&& ·)
def opOr : State → Ctx → Ins → HacRes := aluOp (· ||| ·)
def opXor : State → Ctx → Ins → HacRes := aluOp (· ^^^ ·)
def opShl : State → Ctx → Ins → HacRes := aluOp (fun a v => a <<< (v.toNat % 64))
def opShr : State → Ctx → Ins → HacRes := aluOp (fun a v => a >>> (v.toNat % 64))

def opCmp (s : State) (c : Ctx) (i : Ins) : HacRes := plain s (c.flagCmp (c.reg i.f2) (c.operand4 i))

def opMov (s : State) (c : Ctx) (i : Ins) : HacRes := plain s (c.setReg i.f1 (c.operand4 i))

/-! ### Lookups (R214, R216, R218, R219, R253) -/

/-- Account for the table words that a lookup met (R219). -/
def State.metWords (s : State) (l : Lookup) (table : Nat) : State :=
  let s := s.add R.TBL_ECC_CORR l.corr
  match l.bad with
  | some i => s.tableFault table i
  | none => s

def opLkx (s : State) (c : Ctx) (i : Ins) : HacRes :=
  let l := s.lookupExact c.epoch c.space (c.k.take 16)
  let s := s.metWords l 0
  if l.bad.isSome then trapAt s c trapTblEcc
  else
    match l.hit with
    | some n => plain s (({ c with x := l.result ++ beBytes 2 n ++ [1, 0], hits := c.hits ++ [n] }.setReg i.f1
        (BitVec.ofNat 64 n)).flagHit true)
    | none => plain s (({ c with x := List.replicate 16 0 }.setReg i.f1 (BitVec.allOnes 64)).flagHit false)

def opLkt (s : State) (c : Ctx) (i : Ins) : HacRes :=
  let l := s.lookupTern c.epoch c.space (c.k.drop 16)
  let s := s.metWords l 1
  if l.bad.isSome then trapAt s c trapTblEcc
  else
    match l.hit with
    | some n => plain s (({ c with t := l.result }.setReg i.f1 (BitVec.ofNat 64 n)).flagHit true)
    | none => plain s (({ c with t := List.replicate 16 0 }.setReg i.f1 (BitVec.allOnes 64)).flagHit false)

/-- SPC: a tenant's ring keeps the tenant's own space (R214) (DEDUCED, log entry 9). -/
def opSpc (s : State) (c : Ctx) (i : Ins) : HacRes :=
  let v := (c.operand2 i).toNat
  if v > 31 then trapAt s c trapBadField
  else if v ≥ 17 then trapAt s c trapBadSpace
  else if (srcTenant c.src).isSome then plain s c
  else plain s { c with space := v }

/-! ### Flow, exits and telemetry (R221, R223, R254, R312) -/

/-- Set the flow; a tenant's ring may name only flows with FN its own (R221). -/
def setFlowOf (s : State) (c : Ctx) (x : Nat) : HacRes :=
  match srcTenant c.src with
  | some n => if (s.flow x).fn = n then plain s { c with flow := some x } else trapAt s c trapPartViol
  | none => plain s { c with flow := some x }

def opFlow (s : State) (c : Ctx) (i : Ins) : HacRes :=
  let v := (c.operand2 i).toNat
  if v > 4095 then trapAt s c trapBadField else setFlowOf s c v

/-- Add an exit: the trap code, or the state and the exit list (R223, R312) (DEDUCED, log entry 9). -/
def addExit (s : State) (l : List Exit) (w : Qword) : Nat ⊕ (State × List Exit) :=
  let e := exitOf w
  if exitReserved w || !destOk e.dest e.sub || (e.draws && decide (e.rgen ≥ 64)) then .inl trapBadExit
  else if l.any (fun x => x.dest == e.dest && x.sub == e.sub) then .inr (s.inc R.EXIT_DUP, l)
  else if l.length ≥ 8 then .inl trapExitOvf
  else .inr (s, l ++ [e])

def opExit (s : State) (c : Ctx) (i : Ins) : HacRes :=
  match addExit s c.exits (c.reg i.f2) with
  | .inl t => trapAt s c t
  | .inr (s, l) => plain s { c with exits := l }

/-- FWDX (R254). -/
def opFwdx (s : State) (c : Ctx) (_ : Ins) : HacRes :=
  let fl := beNat (c.bytes 4 8 2)
  if (c.bytes 4 14 1).headD 0 &&& 1 = 0 then trapAt s c trapBadExit
  else if fl ≥ 4096 then trapAt s c trapBadField
  else
    match addExit s c.exits (BitVec.ofNat 64 (beNat (c.bytes 4 0 8))) with
    | .inl t => trapAt s c t
    | .inr (s, l) => setFlowOf s { c with exits := l } fl

def opTele (s : State) (c : Ctx) (i : Ins) : HacRes :=
  let v := (c.operand2 i).toNat
  if v > 0xFFFF then trapAt s c trapBadField else plain s { c with tele := some v }

/-! ### Resolution: exits, patch, recovery, policers, counters -/

/-- EXED (R256, R314) (DEDUCED, log entry 9). -/
def opExed (s : State) (c : Ctx) (i : Ins) : HacRes :=
  let w := c.reg i.f2
  let e := exitOf w
  match c.exits[i.f3]? with
  | none => trapAt s c trapBadExit
  | some x =>
    if exitReserved w || e.dest != x.dest || e.sub != x.sub || e.mirror != x.mirror
        || (e.draws && !(c.drawn.any (fun p => p.1 == e.rgen))) then trapAt s c trapBadExit
    else plain s { c with exits := lmod c.exits i.f3 (fun _ => e) }

/-- Give an exit a disposition; a later DISP replaces an earlier one (R256). -/
def Ctx.disp (c : Ctx) (i code : Nat) : Ctx := { c with disps := lmod c.disps i (fun _ => some code) }

def opDisp (s : State) (c : Ctx) (i : Ins) : HacRes :=
  if i.f3 = 0xFF then plain s { c with disps := c.disps.map (fun _ => some i.f4) }
  else if i.f3 ≥ c.exits.length then trapAt s c trapBadExit
  else plain s (c.disp i.f3 i.f4)

/-- PATCH (R258). -/
def opPatch (s : State) (c : Ctx) (i : Ins) : HacRes :=
  let v := (c.reg i.f2).toNat
  if v ≥ 2 ^ 16 ∨ v + i.f4 > c.len - 4 then trapAt s c trapRange else plain s { c with patch := some (v, i.f4) }

/-- The R-tag sequence of the presented frame, if it carries an R-tag (R212). -/
def Ctx.rSeq (c : Ctx) : Option Nat :=
  if ((c.m.getD 12 0).toNat).testBit 2 then some (beNat (sliceD c.m 20 2)) else none

/-- The state of a recovery function (R316): RECOV_SEQ, HISTORY and TAKE_ANY. -/
structure RecSt where
  seq : Nat
  hist : Nat
  any : Bool
  deriving DecidableEq, Repr

/-- What vector recovery decides (R317): pass or discard, the new state, and the row of the table that applied, with the
numbers lost. -/
structure RecOut where
  discard : Bool
  st : RecSt
  row : Nat
  lost : Nat
  deriving DecidableEq, Repr

/-- Vector recovery of sequence q with a history of n bits (R317). -/
def recover (n : Nat) (r : RecSt) (q : Nat) : RecOut :=
  let ones := 2 ^ n - 1
  let d := toSigned 16 ((q + 2 ^ 16 - r.seq) % 2 ^ 16)
  if r.any then ⟨false, ⟨q, ones, false⟩, 1, 0⟩
  else if d ≥ n ∨ d ≤ -(n : Int) then ⟨true, r, 2, 0⟩
  else if d ≤ 0 then
    let k := (-d).toNat
    if r.hist.testBit k then ⟨true, r, 3, 0⟩ else ⟨false, { r with hist := setBitAt r.hist k true }, 4, 0⟩
  else
    let k := d.toNat
    let lost := ((List.range k).filter (fun j => !r.hist.testBit (n - 1 - j))).length
    ⟨false, ⟨q, r.hist * 2 ^ k % 2 ^ n + 1, false⟩, 5, lost⟩

/-- The recorded state of a recovery function. -/
def State.recSt (s : State) (f : Nat) : RecSt :=
  ⟨s.rd (R.REC_STAT_RECOV_SEQ f), s.rd (R.REC_HISTORY f), s.bit (R.REC_STAT_TAKE_ANY f)⟩

/-- One recovery as a resolution of an epoch sees or records it; none where the function is off or the frame has no R-tag
(R317, R320) (DEDUCED, log entry 8). -/
def State.recStep (s : State) (epoch f : Nat) (q : Option Nat) (r : RecSt) : Option RecOut :=
  if s.infAt epoch (R.REC_CFG_EN f) = 0 then none
  else q.map (recover (s.infAt epoch (R.REC_CFG_HIST_LEN f)) r)

/-- The state of a function after the recoveries that this resolution has applied already (R319). -/
def State.recSeen (s : State) (c : Ctx) (f : Nat) : RecSt :=
  (c.recs.filter (·.1 == f)).foldl (fun r _ =>
    match s.recStep c.epoch f c.rSeq r with
    | some o => o.st
    | none => r) (s.recSt f)

/-- REC (R259, R317, R320): a discarded frame's exits all take ELIMINATED (DEDUCED, log entry 8). -/
def opRec (s : State) (c : Ctx) (i : Ins) : HacRes :=
  if (srcTenant c.src).isSome then trapAt s c trapPartViol
  else
    let f := i.imm
    let out := s.recStep c.epoch f c.rSeq (s.recSeen c f)
    let discard := match out with
      | some o => o.discard
      | none => false
    let c := { c with recs := c.recs ++ [(f, discard)] }
    plain s ((if discard then { c with disps := c.disps.map (fun _ => some 0xA) } else c).flagRec discard)

/-- The absolute index behind a program's policer or counter index (R221). -/
def State.partIndex (s : State) (c : Ctx) (base num : Nat → Fld) (i : Nat) : Option Nat :=
  match srcTenant c.src with
  | some n => if i < s.infAt c.epoch (num n) then some (s.infAt c.epoch (base n) + i) else none
  | none => some i

/-- The levels of a policer after the applications that this resolution has made already (R257) (DEDUCED, log entry 8). -/
def State.polSeen (s : State) (c : Ctx) (p : Nat) : PolLvl :=
  (c.pols.filter (fun a => a.1 == p)).foldl (fun l a =>
    polTake (polRefill (s.polAt c.epoch p) l a.2.1) c.len a.2.2.2) (s.polLvl p)

/-- What the recoveries and policers of a resolution gave it is what the order of outcomes gives it now (R229, R319): no outcome
recorded since they issued has changed a result (DEDUCED, log entry 8). -/
def State.inOrder (s : State) (c : Ctx) : Bool :=
  (List.range c.recs.length).all (fun k =>
      match c.recs[k]? with
      | some (f, d) =>
        ((s.recStep c.epoch f c.rSeq (s.recSeen { c with recs := c.recs.take k } f)).map (·.discard)).getD false == d
      | none => true)
    && (List.range c.pols.length).all (fun k =>
      match c.pols[k]? with
      | some (p, t, inp, col) =>
        let cfg := s.polAt c.epoch p
        polColour cfg (polRefill cfg (s.polSeen { c with pols := c.pols.take k } p) t) c.len inp == col
      | none => true)

/-- POL (R228, R257) (DEDUCED, log entry 8). -/
def opPol (s : State) (c : Ctx) (i : Ins) : HacRes :=
  match s.partIndex c R.PART_POL_POL_BASE R.PART_POL_POL_NUM i.imm with
  | none => trapAt s c trapPartViol
  | some p =>
    let cfg := s.polAt c.epoch p
    let l := polRefill cfg (s.polSeen c p) s.base125
    let inp := (c.reg i.f2).toNat % 4
    let col := polColour cfg l c.len inp
    plain s ({ c with pols := c.pols ++ [(p, s.base125, inp, col)] }.setReg i.f1 (BitVec.ofNat 64 col))

/-- CNT (R230, R257). -/
def opCnt (s : State) (c : Ctx) (i : Ins) : HacRes :=
  match s.partIndex c R.PART_CNT_CNT_BASE R.PART_CNT_CNT_NUM i.imm with
  | none => trapAt s c trapPartViol
  | some k => plain s { c with cnts := c.cnts ++ [k] }

/-! ### Unit jobs (R260 to R264, R446, R447) -/

/-- The range of a job: offset and length; none where R260 makes it trap. -/
def jobRange (v : Qword) (len : Nat) : Option (Nat × Nat) :=
  let n := v.toNat
  let off := n % 2 ^ 16
  let l := n / 2 ^ 16 % 2 ^ 16
  if n ≥ 2 ^ 32 then none
  else if l = 0 then (if off + 5 > len then none else some (off, len - 4 - off))
  else if off + l > len then none else some (off, l)

/-- The frame bytes of a job's range. -/
def jobData (bytes : List Byte) (r : Nat × Nat) : List Byte := sliceD bytes r.1 r.2

/-- A frame gets a further job: one that ends at once in a unit fault has the frame's other jobs abandoned, and after it none starts
(R264). -/
def Ctx.addJob (c : Ctx) (j : Job) : Ctx :=
  if c.jobs.any (·.bad) then c else if j.bad then { c with jobs := [j] } else { c with jobs := c.jobs ++ [j] }

/-- CRC (R260, R261, R455). -/
def opCrc (bytes : List Byte) (s : State) (c : Ctx) (i : Ins) : HacRes :=
  match jobRange (c.reg i.f4) c.len with
  | none => trapAt s c trapRange
  | some r =>
    let fold := beBytes i.f3 (c.reg i.f2).toNat
    let j : Job := ⟨some i.f1, i.imm, fold, jobData bytes r, 0, none, false, false, [], ceilDiv (fold.length + r.2) 8, s.now, s.tick.num⟩
    plain s (c.addJob j)

/-- A key slot. -/
def State.keySlot (s : State) (k : Nat) : KeySlot := mgetD s.dge.slots k KeySlot.reset

/-- The bank of a key slot that was in force for an epoch (R445). -/
def State.keyBankAt (s : State) (k epoch : Nat) : KeyBank :=
  let x := s.keySlot k
  match x.retiring with
  | some e => if epoch < e then x.other else x.force
  | none => x.force

/-- A tenant's program may use a key slot (R262, R446). -/
def State.keySlotAllowed (s : State) (c : Ctx) (k : Nat) : Bool :=
  match srcTenant c.src with
  | some n =>
    let b := s.infAt c.epoch (R.KEY_PART_BASE n)
    decide (b ≤ k ∧ k < b + s.infAt c.epoch (R.KEY_PART_COUNT n))
  | none => true

/-- DIG (R262, R447): a job whose slot bank is not valid, is for another algorithm or is a console key ends in a unit fault
at once, as does one that issues during a clear (R450). -/
def opDig (bytes : List Byte) (s : State) (c : Ctx) (i : Ins) : HacRes :=
  match jobRange (c.reg i.f2) c.len with
  | none => trapAt s c trapRange
  | some r =>
    if i.f3 = 1 ∧ s.keySlotAllowed c i.f4 = false then trapAt s c trapPartViol
    else
      let key := if i.f3 = 1 then some i.f4 else none
      let b := s.keyBankAt i.f4 c.epoch
      let badKey := i.f3 == 1 && (!b.valid || b.alg != i.f1 || b.con)
      let bad := badKey || s.dge.clearing.isSome
      let s := if badKey && s.dge.clearing.isNone then s.inc R.DGE_KEY_FAULT else s
      let n := digestUnits i.f1 r.2 (i.f3 == 1) / (if shaWide i.f1 then 2 else 1)
      let j : Job := ⟨none, 0, [], jobData bytes r, i.f1, key, bad, bad, [], if bad then 0 else n, s.now, s.tick.num⟩
      plain s (c.addJob j)

/-- The results of the jobs that a WAIT awaited are written (R261 to R263). -/
def Ctx.takeResults (c : Ctx) : Ctx :=
  let c' := c.jobs.foldl (fun (c : Ctx) (j : Job) =>
    match j.unit with
    | some _ => c.setReg j.gd (BitVec.ofNat 64 (beNat j.result))
    | none => { c with d := sliceD j.result 0 64 }) c
  { c' with jobs := [] }

/-- Every pending job of a context has completed, or one has ended in a unit fault (R263, R264). -/
def Ctx.jobsReady (c : Ctx) : Bool := c.jobs.all (·.done) || c.jobs.any (fun j => j.done && j.bad)

/-- WAIT: once the jobs are complete it writes their results, or traps where one ended in a unit fault; until then the
resolution waits (R263, R264). -/
def opWait (s : State) (c : Ctx) (_ : Ins) : HacRes :=
  if !c.jobsReady then (s, { c with fin := .waiting })
  else if c.jobs.any (·.bad) then trapAt s { c with jobs := [] } trapUnitFault
  else plain s c.takeResults

end Sys2Proof.Machine
end

