-- ==== Sys2Proof/Machine/HacRun.lean ====
section
/-! DEFINITION. Running a HAC program: presentation and keys (spec/07_match_action_tables.md R211 to R214), the start of each
phase (R239, R245, R247), and the issue of one instruction (R249, R250). -/

namespace Sys2Proof.Machine

/-! ### Presentation (R211 to R213) -/

/-- The index of the lowest template of a source's group that a frame's first bytes match, whatever the frame's length (R201,
R212). -/
def State.foldMatch (s : State) (src : Source) (bytes : List Byte) : Option Nat :=
  let g := s.foldGroup src
  ((List.range g.2).map (g.1 + ·)).find? (fun t =>
    (s.tpl t).valid && (mget s.buf.tplPend t).isNone && decide (bytes.length ≥ (s.tpl t).tl) && (s.tpl t).fits bytes)

/-- The metadata record of a frame (R212): its class, candidate map and owner flag, the template matched, L where it is
known, the stamp, and the tick of presentation (DEDUCED, log entry 9). -/
def metaOf (src : Source) (tg : Tags) (bytes : List Byte) (cls cand : Nat) (owner : Bool) (tpl len : Option Nat)
    (ts tick : Nat) : List Byte :=
  let (kind, id, ring) := srcIds src
  let b1 (n : Nat) : List Byte := [BitVec.ofNat 8 n]
  let bc := bytes.take 6 == List.replicate 6 0xFF
  let mc := !bc && ((bytes.headD 0).toNat).testBit 0
  let fl := (if owner then 1 else 0) + (if bc then 2 else 0) + (if mc then 4 else 0) + (if len.isSome then 8 else 0)
    + (if tpl.isSome then 16 else 0)
  b1 kind ++ b1 id ++ b1 ring ++ b1 cls ++ beBytes 2 cand ++ b1 fl ++ b1 0 ++ beBytes 2 (tpl.getD 0)
    ++ beBytes 2 (len.getD 0) ++ b1 tg.parse ++ b1 tg.etypeOff ++ beBytes 2 tg.etype
    ++ beBytes 2 ((tg.sTag.map (·.2)).getD 0) ++ beBytes 2 (tg.cTag.getD 0) ++ beBytes 2 ((tg.rTag.map (·.2)).getD 0)
    ++ [0, 0] ++ beBytes 5 ts ++ b1 0 ++ beBytes 2 tick ++ List.replicate 32 0

/-- The metadata record at resolution: L is known (R212). -/
def metaWithLen (m : List Byte) (len : Nat) : List Byte :=
  overwrite (overwrite m 10 (beBytes 2 len)) 6 [(m.getD 6 0) ||| 8]

/-- The window W of a frame (R211). -/
def windowOf (bytes : List Byte) : List Byte := sliceD bytes 0 128

/-- The space V of a frame of L bytes: byte j is frame byte L - 68 + j (R240, R241). -/
def tailOf (bytes : List Byte) : List Byte :=
  (List.range 64).map (fun j => if bytes.length + j < 68 then 0 else bytes.getD (bytes.length + j - 68) 0)

/-- Selector j of a key profile in force for an epoch (R213). -/
def State.selector (s : State) (epoch p j : Nat) : Nat :=
  let w := j / 4
  s.infAt epoch (match j % 4 with
    | 0 => R.PROFILE_B0 p w
    | 1 => R.PROFILE_B1 p w
    | 2 => R.PROFILE_B2 p w
    | _ => R.PROFILE_B3 p w)

/-- The key buffer that a profile builds (R213). -/
def State.keysOf (s : State) (epoch p : Nat) (w m : List Byte) : List Byte :=
  (List.range 56).map (fun j =>
    let v := s.selector epoch p j
    if v < 128 then w.getD v 0 else if v < 192 then m.getD (v - 128) 0 else 0)

/-- PROF and SPACE of a source (R213, R214). -/
def State.profSel (s : State) (epoch : Nat) (src : Source) : Nat × Nat :=
  match src with
  | .port p => (s.infAt epoch (R.PROF_SEL_P_PROF p), s.infAt epoch (R.PROF_SEL_P_SPACE p))
  | .ring f r =>
    (s.infAt epoch (R.PROF_SEL_F_PROF f r), if f.val < 16 then f.val else s.infAt epoch (R.PROF_SEL_F_SPACE f r))
  | .mgc => (0, 0)

/-- ENTRY and EN of a source's binding (R271). -/
def State.binding (s : State) (epoch : Nat) (src : Source) : Nat × Bool :=
  match src with
  | .port p => (s.infAt epoch (R.PROG_P_ENTRY p), s.infAt epoch (R.PROG_P_EN p) == 1)
  | .ring f r => (s.infAt epoch (R.PROG_F_ENTRY f r), s.infAt epoch (R.PROG_F_EN f r) == 1)
  | .mgc => (0, false)

/-- The context at the start of classification (R239) (DEDUCED, log entry 18). -/
def State.clsCtx (s : State) (src : Source) (bytes m : List Byte) (len : Nat) : Ctx :=
  let e := s.tick.epoch
  let (prof, space) := s.profSel e src
  let w := windowOf bytes
  { resolving := false, src := src, epoch := e, len := len, g := List.replicate 8 0, z := false, lt := false, h := false
    pc := (s.binding e src).1, icount := 0, space := space, w := w, v := List.replicate 64 0, m := m
    k := s.keysOf e prof w m, x := List.replicate 16 0, t := List.replicate 16 0, d := List.replicate 64 0
    p := List.replicate 32 0, exits := [], flow := none, tele := none, patch := none, jobs := [], hits := []
    disps := [], pols := [], cnts := [], recs := [], drawn := [], lane := s.laneOf src
    fin := if (s.binding e src).2 then .running else .closed }

/-- The context at the start of resolution, from the carry record (R239, R247, R248). -/
def State.resCtx (s : State) (f : Frame) (bytes : List Byte) (lane : Nat) : Ctx :=
  let (prof, space) := s.profSel f.epoch f.src
  let w := windowOf bytes
  let m := metaWithLen f.metaRec f.len
  let ended := f.resume = noResume ∨ f.trapInfo.isSome = true
  { resolving := true, src := f.src, epoch := f.epoch, len := f.len, g := f.g0 :: List.replicate 7 0, z := false
    lt := false, h := false, pc := f.resume, icount := f.icount, space := space, w := w, v := tailOf bytes, m := m
    k := s.keysOf f.epoch prof w m, x := List.replicate 16 0, t := List.replicate 16 0, d := List.replicate 64 0
    p := List.replicate 32 0, exits := f.exits.map (·.exit), flow := some f.flow, tele := f.tele, patch := none
    jobs := [], hits := [], disps := f.exits.map (fun _ => none), pols := [], cnts := [], recs := []
    drawn := f.drawnBy, lane := lane, fin := if ended then .ended else .running }

/-! ### Issue (R249, R250) -/

/-- The effect of an opcode; the frame's bytes are those that a job reads. -/
def effectOf (bytes : List Byte) (op : Nat) : State → Ctx → Ins → HacRes :=
  match op with
  | 0x01 => opEnd
  | 0x02 => opClose
  | 0x03 => opTrap
  | 0x04 => opBr
  | 0x10 => opLdi
  | 0x11 => opLdih
  | 0x12 => opLdb
  | 0x13 => opStb
  | 0x14 => opMovb
  | 0x15 => opCmpb
  | 0x20 => opAdd
  | 0x21 => opSub
  | 0x22 => opAnd
  | 0x23 => opOr
  | 0x24 => opXor
  | 0x25 => opShl
  | 0x26 => opShr
  | 0x27 => opCmp
  | 0x28 => opMov
  | 0x30 => opLkx
  | 0x31 => opLkt
  | 0x32 => opSpc
  | 0x40 => opFlow
  | 0x41 => opExit
  | 0x42 => opFwdx
  | 0x43 => opTele
  | 0x44 => opExed
  | 0x45 => opDisp
  | 0x46 => opPatch
  | 0x47 => opRec
  | 0x50 => opPol
  | 0x51 => opCnt
  | 0x60 => opCrc bytes
  | 0x61 => opDig bytes
  | 0x62 => opWait
  | _ => fun s c _ => trapAt s c trapUndefOp

/-- One instruction issues in a context that runs (R249, R250, R269): it counts and costs its units, the causes of a trap are taken in their order, and
otherwise `eff` acts. -/
def issue (eff : State → Ctx → Ins → HacRes) (s : State) (c : Ctx) (i : Ins) : HacRes :=
  if c.icount ≥ 64 then trapAt s c trapInsnLimit
  else
    let c := { c with icount := c.icount + 1 }
    let s := s.spend 0 (((opInfo i.op).map (·.2)).getD 1)
    if (opInfo i.op).isNone then trapAt s c trapUndefOp
    else if badPhase i c.resolving then trapAt s c trapBadPhase
    else if !fieldsOk i then trapAt s c trapBadField
    else eff (if i.op = 0x30 then s.spend 1 1 else if i.op = 0x31 then s.spend 2 1 else s) c i

/-- The instruction at a context's program counter issues. -/
def issueNext (bytes : List Byte) (s : State) (c : Ctx) : HacRes :=
  let i := insOf (s.hacWord c.pc)
  issue (effectOf bytes i.op) s c i

/-- Run a context for at most n instructions, until its phase ends or waits. -/
def runCtx (bytes : List Byte) : Nat → State → Ctx → HacRes
  | 0, s, c => (s, c)
  | n + 1, s, c =>
    if c.fin = .running then
      let (s, c) := issueNext bytes s c
      runCtx bytes n s c
    else (s, c)

/-! ### Where contexts stand -/

/-- A MAS lane. -/
def State.lane (s : State) (l : Nat) : LaneState := s.mas.lanes.getD l ⟨none, [], none⟩

/-- Change a MAS lane. -/
def State.modLane (s : State) (l : Nat) (g : LaneState → LaneState) : State :=
  { s with mas := { s.mas with lanes := lmod s.mas.lanes l g } }

/-- The running context of a place, with the frame's bytes that its jobs read. -/
def State.ctxAt (s : State) (a : HacAt) : Option (Ctx × List Byte) :=
  match a with
  | .cls a => (s.arr a).bind (fun v => v.ctx.map (fun c => (c, v.bytes)))
  | .res l =>
    (s.lane l).res.bind (fun (h, c) => (mget s.frames h).map (fun f => (c, s.frameBytes f)))

/-- The source whose classification context a frame in arrival runs in: its port, or HIF (R207). -/
def arrGroup : Arr → Nat
  | .rx p _ => p.val
  | .host _ _ => 6

/-- The frames in arrival whose classification contexts of a lane are ready (R207). -/
def State.readyCls (s : State) (l : Nat) : List Arr :=
  allArr.filter (fun a => match (s.arr a).bind (·.ctx) with
    | some c => c.fin == .running && c.lane == l
    | none => false)

/-- The other frame of a source whose classification holds the source's context (R207). -/
def State.occupant (s : State) (a : Arr) : Option Arr :=
  allArr.find? (fun b => b != a && arrGroup b == arrGroup a && (match (s.arr b).bind (·.ctx) with
    | some c => c.fin == .running
    | none => false))

/-- The context of a place is the one from which its lane issues: of two ready classification contexts the one that did not issue last,
and a resolution only while neither is ready (R207). -/
def State.issues (s : State) (a : HacAt) : Bool :=
  match a with
  | .cls b =>
    match (s.arr b).bind (·.ctx) with
    | some c => (s.lane c.lane).turn != some b || (s.readyCls c.lane).all (· == b)
    | none => false
  | .res l => (s.readyCls l).isEmpty

/-- Write back the context of a place; where classification closes with it, Early Look may show the frame (R384). -/
def State.setCtx (s : State) (a : HacAt) (c : Ctx) : State :=
  match a with
  | .cls b => ((s.modLane c.lane (fun x => { x with turn := some b })).modArr b (fun v => { v with ctx := some c })).elProvisional b
  | .res l => s.modLane l (fun x => { x with res := x.res.map (fun (h, _) => (h, c)) })

/-- The 64-bit word of an instruction (R242) (DESIGN CHOICE, log entries 7, 90). -/
def hacEncode (op : Nat) (f1 f2 : BitVec 4) (f3 f4 : BitVec 8) (imm : BitVec 32) : Qword :=
  BitVec.ofNat 8 op ++ f1 ++ f2 ++ f3 ++ f4 ++ imm

end Sys2Proof.Machine
end

