-- ==== Sys2Proof/Machine/Shaper.lean ====
section
/-! DEFINITION. What decides whether a queue of a port may send now (spec/09_egress_scheduling.md): pause holds (R159), the
gate control list in force (R291 to R294), and the credit-based shaper (R302, R303). -/

namespace Sys2Proof.Machine

/-- The index that governs a queue under FC_PRIO_MAP (R159). -/
def State.prioOf (s : State) (p q : Nat) : Nat := s.inf (R.FC_PRIO_MAP p) / 8 ^ q % 8

/-- An index is held now (R159): by RX_HELD, and by a load that has come into effect since. -/
def State.heldIdx (s : State) (p i : Nat) : Bool :=
  match ((s.port p).loads.filter (fun x => x.2.1 == i && decide (x.1 ≤ s.now))).getLast? with
  | some x => x.2.2.isSome
  | none => s.bitAt (R.FC_STAT_RX_HELD p) i

/-- A queue is held: it is not eligible and takes no new exit (R159 to R161, R308) (DEDUCED, log entry 15). -/
def State.queueHeld (s : State) (p q : Nat) : Bool := s.heldIdx p 8 || s.heldIdx p (s.prioOf p q)

/-- The start of the second core cycle after the one that runs now (R159) (DEDUCED, log entry 15). -/
def State.secondCycle (s : State) : Nat := (s.now / s.cycle + 2) * s.cycle

/-! ### Gate control lists (R291 to R294) -/

/-- GATES, OP and INTERVAL of an entry (R291). -/
def gclGates (w : Nat) : Nat := w % 256
def gclOp (w : Nat) : Nat := w / 256 % 4
def gclInterval (w : Nat) : Nat := w / 1024 % 2 ^ 18

/-- An offset in ns as a number of State.now units on the fixed time base of 1.25 ns: the first instant of that base at or
after it (R292) (DEDUCED, log entry 21). -/
def gateOffset (ns : Nat) : Nat := ceilDiv (ns * unitsPerNs) 80 * 80

/-- The entries of a list with the offsets at which they begin and end in a tick of a length (R292). -/
def gateSpans (len : Nat) : List Nat → Nat → List (Nat × Nat × Nat)
  | [], _ => []
  | [w], at_ => [(min (gateOffset at_) len, len, w)]
  | w :: t, at_ => (min (gateOffset at_) len, min (gateOffset (at_ + gclInterval w)) len, w) :: gateSpans len t (at_ + gclInterval w)

/-- GATE_EN in force (R294). -/
def State.gateEn (s : State) (p : Nat) : Bool := s.inf (R.QPORT_CFG_GATE_EN p) == 1

/-- The word of the entry in force. -/
def State.gateWord (s : State) (p : Nat) : Nat := (s.port p).oper.getD (s.port p).operEntry 0xFF

/-- A queue's gate is open now (R291, R294). -/
def State.gateOpen (s : State) (p q : Nat) : Bool := !s.gateEn p || (gclGates (s.gateWord p)).testBit q

/-- Preemption is active on a port (R304). -/
def State.preemptOn (s : State) (p : Nat) : Bool := s.bit (R.QPORT_STAT_PREEMPT_ACTIVE p)

/-- A change in whether preemption is active reruns the check against the configuration in force (R304); a hold ends with it (R306). -/
def State.setPreempt (s : State) (p : Nat) (b : Bool) : State :=
  if s.preemptOn p = b then s
  else
    let s := { s with tick := { s.tick with rerun := true } }.put (R.QPORT_STAT_PREEMPT_ACTIVE p) b
    if b then s else s.put (R.QPORT_STAT_HOLD p) false

/-- A queue sends through the express MAC (R304). -/
def State.isExpress (s : State) (p q : Nat) : Bool := s.preemptOn p && s.inf (R.Q_CFG_EXPRESS p q) == 1

/-! ### Credit (R302, R303) -/

/-- Units of credit in one bit: a slope in kb/s adds itself in one unit of State.now (DESIGN CHOICE, log entry 12). -/
def creditBit : Nat := 64000000

/-- The frames of a queue that have not started. -/
def State.waiting (s : State) (p q : Nat) : List QItem := ((s.port p).queues.getD q []).filter (fun x => !x.started)

/-- The open entry of a queued frame. -/
def State.itemEntry (s : State) (x : QItem) : Option Entry :=
  (mget s.frames x.frame).bind (fun f => f.exits[x.exit]?.bind (fun e => mget s.led.entries e.entry))

/-- A queued frame has been enqueued by its resolution (R277). -/
def State.enqueued (s : State) (x : QItem) : Bool := ((s.itemEntry x).map (fun e => decide (e.stage ≥ 2))).getD false

/-- A frame of queue q is being transmitted. -/
def State.sending (s : State) (p q : Nat) : Bool :=
  match (s.port p).tx with
  | some t =>
    match t.item with
    | some (h, i) => ((s.port p).queues.getD q []).any (fun x => x.frame == h && x.exit == i)
    | none => false
  | none => false

/-- A queue runs the shaper. -/
def State.shaped (s : State) (p q : Nat) : Bool := s.inf (R.Q_CFG_SHAPER_EN p q) == 1

/-- The wire bytes that bound a queue's credit (R302). -/
def State.maxWire (s : State) (p : Nat) : Nat := s.inf (R.MAXLEN p) + 8 + s.inf (R.PORT_CFG_TX_IPG p)

/-- The credit of a queue after the time since its last change, in units of 1/creditBit bit (R302). -/
def State.creditNow (s : State) (p q : Nat) : Int :=
  let (c, at_) := (s.port p).credits.getD q (0, 0)
  let dt : Nat := s.now - at_
  let slope : Nat := s.inf (R.Q_IDLE_SLOPE p q)
  let r : Nat := s.rateKb p
  let span : Nat := s.maxWire p * 8 * creditBit
  let lo : Int := -((span * (r - slope) / r : Nat) : Int)
  let hi : Int := ((span * slope / r : Nat) : Int)
  if !s.shaped p q then 0
  else if s.sending p q then max lo (c + (dt : Int) * ((slope : Int) - r))
  else if !s.gateOpen p q || s.bitAt (R.FC_STAT_RX_HELD p) 8 || s.bitAt (R.FC_STAT_RX_HELD p) (s.prioOf p q) then c
  else if (s.waiting p q).any s.enqueued then min hi (c + (dt * slope : Nat))
  else if c ≥ 0 then 0
  else min 0 (c + (dt * slope : Nat))

/-- Every credit of a port is brought to this instant, what holds its queues as it stands. -/
def State.syncCredit (s : State) (p : Nat) : State :=
  let l := (List.range 8).map (fun q => (s.creditNow p q, s.now))
  s.modPort p (fun x => { x with credits := l })

/-- An index is held or released: its timer, and its bit of RX_HELD (R158, R159); `now` says whether in the running tick. -/
def State.setHeld (s : State) (p i : Nat) (t : Option Nat) (now : Bool) : State :=
  let s := s.modPort p (fun q => { q with
    timers := lmod q.timers i (fun _ => t)
    heldTick := if t.isSome && now then lmod q.heldTick i (fun _ => true) else q.heldTick })
  s.putAt (R.FC_STAT_RX_HELD p) i t.isSome

/-- The loads whose instant has come take effect, each at its instant (R159). -/
def State.settleLoads (s : State) (p : Nat) : State :=
  let due := (s.port p).loads.filter (fun x => decide (x.1 ≤ s.now))
  let t := due.foldl (fun (a : State) (x : Nat × Nat × Option Nat) =>
    (({ a with now := x.1 } : State).syncCredit p).setHeld p x.2.1 x.2.2 (decide (x.1 < s.nextBoundary))) s
  ({ t with now := s.now } : State).modPort p (fun q => { q with loads := q.loads.filter (fun x => decide (s.now < x.1)) })

/-- The held indices and every credit of a port are brought to this instant. -/
def State.syncPort (s : State) (p : Nat) : State := (s.settleLoads p).syncCredit p

/-- Every credit of the device is brought to this instant; called before anything that R302 depends on changes. -/
def State.syncCredits (s : State) : State := (List.range 6).foldl State.syncPort s

end Sys2Proof.Machine
end

