-- ==== Sys2Proof/Machine/Port.lean ====
section
/-! DEFINITION. Links, port resets and serdes settings (spec/04_port_macs.md), and what they do to pause, queues and
verification (spec/05_pause_and_watchdog.md R163, R177; spec/09_egress_scheduling.md R305, R310). -/

namespace Sys2Proof.Machine

/-- Put a port in a link state (R127). -/
def State.linkState (s : State) (p st : Nat) : State := s.wr (R.PORT_STAT_STATE p) st

/-- Set LINK_UP_EV or LINK_LOST_EV; source LINK_p asserts while either is set (R129, R460). -/
def State.linkEvent (s : State) (p : Nat) (f : Fld) : State :=
  s.setLevel f (187 + p) (s.bit (R.LINK_CHG_LINK_UP_EV p) || s.bit (R.LINK_CHG_LINK_LOST_EV p))

/-- No index of a port is held, every count and hold is 0, STRICT_LOCK is clear, every class is out of XOFF (R163, R177). -/
def State.pauseReset (s : State) (p : Nat) : State :=
  let s := (s.syncPort p).modPort p (fun q => { q with
    timers := List.replicate 9 none, loads := [], wdCount := List.replicate 9 0, wdHold := List.replicate 9 0
    xoffTicks := List.replicate 8 0, capped := List.replicate 8 false, pauseOut := [] })
  (((s.wr (R.FC_STAT_RX_HELD p) 0).put (R.FC_STAT_STRICT_LOCK p) false).wr (R.FC_STAT_TX_XOFF p) 0).wr
    (R.PAUSE_WD_STAT_HOLDING p) 0

/-- Verification begins on a port that is UP with PREEMPT_EN = 1 (R305): INITIAL, and at once VERIFYING with a verify
mPacket unless VERIFY_DIS = 1 (DEDUCED, log entry 22). -/
def State.verifyStart (s : State) (p : Nat) : State :=
  if s.inf (R.QPORT_CFG_PREEMPT_EN p) = 1 ∧ isUp s p then
    if s.inf (R.QPORT_CFG_VERIFY_DIS p) = 1 then
      (s.wr (R.QPORT_STAT_VERIFY_STATE p) 1).setPreempt p true
    else
      let s := ((s.wr (R.QPORT_STAT_VERIFY_STATE p) 2).setPreempt p false).sendOut p (.mpacket p false)
      s.modPort p (fun q => { q with verifyCount := 1, verifyAt := s.now })
  else
    ((s.wr (R.QPORT_STAT_VERIFY_STATE p) 0).setPreempt p false).put (R.QPORT_STAT_HOLD p) false

/-- The highest rate code a port may run at: RATE_MAX in force, or 5 Gb/s while derated (R5, R124); in Twilight the rate of TW_CFG
(R542). -/
def State.rateLimit (s : State) (p : Nat) : Nat :=
  let m := s.inf (R.PORT_CFG_RATE_MAX p)
  if s.rd R.PM_STAT_STATE = 2 then s.rd R.TW_CFG_RATE + 1
  else if s.bit R.THERM_STAT_DERATE then min m 4 else m

/-- The highest rate code that a resolved rate may have: RATE_MAX in force, in Twilight the rate of TW_CFG (R127, R542). -/
def State.rateCap (s : State) (p : Nat) : Nat :=
  if s.rd R.PM_STAT_STATE = 2 then s.rateLimit p else s.inf (R.PORT_CFG_RATE_MAX p)

/-- A port enters UP at a rate (R129, R177, R305); a rate that changes reruns the check (R75) (DEDUCED, log entry 15). -/
def State.enterUp (s : State) (p rate : Nat) : State :=
  let s : State := if s.rd (R.PORT_STAT_RATE p) = rate then s else { s with tick := { s.tick with rerun := true } }
  let s := (s.linkState p 3).wr (R.PORT_STAT_RATE p) rate
  let s := s.modPort p (fun q => { q with causes := [], debounceSince := none, ready := none })
  ((s.linkEvent p (R.LINK_CHG_LINK_UP_EV p)).pauseReset p).verifyStart p

/-- A local or remote fault is signalled on a port (R127). -/
def State.faulty (s : State) (p : Nat) : Bool := (s.port p).causes.any (fun c => c == .localFault || c == .remoteFault)

/-- A port has resolved a rate: it enters UP, once no fault is signalled (R127); in loopback the partner signals none (R133). -/
def State.tryUp (s : State) (p rate : Nat) : State :=
  if s.faulty p ∧ s.rd (R.SX_CFG_LPBK p) = 0 then s.modPort p (fun q => { q with ready := some rate }) else s.enterUp p rate

/-- A port enters ACQUIRE: the result of the last exchange clears; a fault that is still signalled stays (R127) (DEDUCED, log entry 15). -/
def State.enterAcquire (s : State) (p : Nat) : State :=
  let s := s.linkState p 1
  let s := s.modPort p (fun q => { q with
    causes := q.causes.filter (fun c => c == .localFault || c == .remoteFault), debounceSince := none, ready := none })
  ((((s.put (R.PORT_STAT_AN_DONE p) false).put (R.PORT_STAT_DUPLEX_FAULT p) false).put
    (R.PORT_STAT_RATE_FAULT p) false).put (R.PORT_STAT_SX_LOCK p) false).put (R.PORT_STAT_PCS_SYNC p) false

/-- The exits of open frames whose entry is QUEUED or STAGED for a port. -/
def State.portExits (s : State) (p : Nat) : List (Nat × Nat) :=
  (s.led.entries.filter (fun e => e.2.dest == p && (e.2.stage == 2 || e.2.stage == 3))).map
    (fun e => (e.2.frame, e.2.exit))

/-- The link of a port is lost (R129, R163, R310): the event and its count, LINK_DOWN for every queued or staged entry, no
index held, credits 0, verification DISABLED. -/
def State.linkLost (s : State) (p : Nat) : State :=
  let s := (s.linkEvent p (R.LINK_CHG_LINK_LOST_EV p)).inc (R.LINK_LOST_CNT p)
  let s := (s.portExits p).foldl (fun s e => s.dispose e.1 e.2 6) s
  let s := s.modPort p (fun q => { q with
    slots := List.replicate 3 none, tx := none, preempted := none, credits := List.replicate 8 (0, s.now) })
  let s := (s.pauseReset p).wr (R.QPORT_STAT_VERIFY_STATE p) 0
  let s := (s.setPreempt p false).put (R.QPORT_STAT_HOLD p) false
  s.log 0x4A p

/-- The frames in arrival on a port end here with a bad FCS (R130). -/
def State.spoilRx (s : State) (p : Nat) : State :=
  let cut (a : Arrival) : Arrival :=
    let n := (s.now - a.sfd) * s.rateKb p / (8 * creditBit)
    { a with bad := a.bad || decide (n < a.bytes.length), bytes := a.bytes.take n }
  s.modPort p (fun q => { q with rx := q.rx.map cut, rxe := q.rxe.map cut })

/-- Pause is negotiated: 1000BASE-X with autonegotiation (R164). -/
def State.negotiates (s : State) (p : Nat) : Bool := s.inf (R.PORT_CFG_IF p) == 3 && s.inf (R.PORT_CFG_AN_EN p) == 1

/-- Where pause is not negotiated both enables read 1 (R164). -/
def State.plainPause (s : State) (p : Nat) : State :=
  if s.negotiates p then s else (s.put (R.FC_STAT_AN_RX_EN p) true).put (R.FC_STAT_AN_TX_EN p) true

/-- LINK_ACQUIRED (R127, R128, R133, R164): 1000BASE-X sends its base page. -/
def execLinkAcquired (p : Port) (s : State) : Host.Outcome State Fault Refusal :=
  if s.rd (R.PORT_STAT_STATE p) ≠ 1 ∨ s.rd (R.SX_CFG_LPBK p) = 3 then .next s
  else
    let s := (s.put (R.PORT_STAT_SX_LOCK p) true).put (R.PORT_STAT_PCS_SYNC p) true
    if s.inf (R.PORT_CFG_AN_EN p) = 1 ∧ s.rd (R.SX_CFG_LPBK p) = 0 then
      let s := s.linkState p 2
      .next (if s.negotiates p then s.emit (.basePage p (s.inf (R.FC_CFG_ADV_PAUSE p) == 1) (s.inf (R.FC_CFG_ADV_ASM p) == 1)) else s)
    else .next ((s.plainPause p).tryUp p (s.rateLimit p))

/-- Pause resolution of IEEE 802.3 Annex 28B: receive and transmit enable from the own and the partner's PAUSE and ASM_DIR
bits (R164) (PRESUMED, log entry 13). -/
def pauseResolve (op oa pp pa : Bool) : Bool × Bool :=
  if op && pp then (true, true)
  else if oa && pa then (op && !pp, !op && pp)
  else (false, false)

/-- A cause is among those that keep a port from UP. -/
def State.addCause (s : State) (p : Nat) (c : LinkCause) : State :=
  let s := s.modPort p (fun q => { q with causes := if q.causes.contains c then q.causes else c :: q.causes })
  match c with
  | .lock => s.put (R.PORT_STAT_SX_LOCK p) false
  | .sync => s.put (R.PORT_STAT_PCS_SYNC p) false
  | .status => s
  | .localFault => s.put (R.PORT_STAT_LOCAL_FAULT p) true
  | .remoteFault => s.put (R.PORT_STAT_REMOTE_FAULT p) true

/-- The highest rate code that a control word defines in a mode (R123, R128). -/
def rateCodes (if_ : Nat) : Nat := if if_ = 2 then 2 else 5

/-- AN_COMPLETE (R126 to R128, R164): a control word without link, or with a rate code that is not defined, holds the port in AN. A
result that is half duplex and above RATE_MAX sets DUPLEX_FAULT alone, where the spec gives no order (DESIGN CHOICE, log entry 93). -/
def execAnComplete (p : Port) (r : AnResult) (s : State) : Host.Outcome State Fault Refusal :=
  if s.rd (R.PORT_STAT_STATE p) ≠ 2 then .next s
  else
    let kx := s.inf (R.PORT_CFG_IF p) == 3
    let rate := if kx then 2 else r.rate.val
    if kx = false ∧ (r.link = false ∨ rate > rateCodes (s.inf (R.PORT_CFG_IF p))) then .next s
    else
      let s := s.put (R.PORT_STAT_AN_DONE p) true
      let en := if kx then pauseResolve (s.inf (R.FC_CFG_ADV_PAUSE p) == 1) (s.inf (R.FC_CFG_ADV_ASM p) == 1)
        r.pause r.asmDir else (true, true)
      let s := (s.put (R.FC_STAT_AN_RX_EN p) en.1).put (R.FC_STAT_AN_TX_EN p) en.2
      let s := if kx ∧ r.fault ≠ 0 then s.addCause p .remoteFault else s
      if !r.fullDuplex then .next ((s.linkState p 4).put (R.PORT_STAT_DUPLEX_FAULT p) true)
      else if rate > s.rateCap p then
        .next ((s.linkState p 4).put (R.PORT_STAT_RATE_FAULT p) true)
      else .next (s.tryUp p (min rate (s.rateLimit p)))

/-- LINK_CAUSE_LOST (R127, R130): from UP to DEBOUNCE, or with LINK_DEBOUNCE = 0 to the loss of the link at once; before UP a fault
keeps the port from it (DEDUCED, log entries 15, 22). -/
def execLinkCauseLost (p : Port) (c : LinkCause) (s : State) : Host.Outcome State Fault Refusal :=
  let st := s.rd (R.PORT_STAT_STATE p)
  if st = 0 then .next s
  else if st ≠ 3 ∧ st ≠ 5 then .next (s.addCause p c)
  else
    let s := if c == .lock || c == .sync then s.spoilRx p else s
    let s := (s.addCause p c).modPort p (fun q => { q with debounceSince := q.debounceSince <|> some s.now })
    if s.inf (R.LINK_CFG_LINK_DEBOUNCE p) = 0 then .next (((s.linkLost p).spoilRx p).enterAcquire p)
    else .next ((s.linkState p 5).verifyStart p)

/-- LINK_CAUSE_CLEARED (R127, R131): every cause has cleared; from DEBOUNCE in time the port is UP again, and one that has resolved its
rate enters UP. -/
def execLinkCauseCleared (p : Port) (s : State) : Host.Outcome State Fault Refusal :=
  let st := s.rd (R.PORT_STAT_STATE p)
  if st = 0 ∨ st = 3 then .next s
  else
    let s := (s.put (R.PORT_STAT_LOCAL_FAULT p) false).put (R.PORT_STAT_REMOTE_FAULT p) false
    let s := s.modPort p (fun q => { q with causes := [] })
    if st = 5 then
      .next (((s.put (R.PORT_STAT_SX_LOCK p) true).put (R.PORT_STAT_PCS_SYNC p) true).enterUp p (s.rd (R.PORT_STAT_RATE p)))
    else
      match (s.port p).ready with
      | some r => .next (s.enterUp p r)
      | none => .next s

/-- LINK_DEBOUNCE_EXPIRE (R129): the event falls LINK_DEBOUNCE µs after the cause. -/
def execLinkDebounceExpire (p : Port) (s : State) : Host.Outcome State Fault Refusal :=
  if s.rd (R.PORT_STAT_STATE p) ≠ 5 then .next s
  else
    let s := s.upTo (((s.port p).debounceSince.getD s.now) + s.inf (R.LINK_CFG_LINK_DEBOUNCE p) * 64000)
    .next (((s.linkLost p).spoilRx p).enterAcquire p)

/-- PARTNER_PAGE_CHANGE (R127). -/
def execPartnerPageChange (p : Port) (s : State) : Host.Outcome State Fault Refusal :=
  if s.rd (R.PORT_STAT_STATE p) ≠ 4 then .next s else .next (s.enterAcquire p)

/-- A return of the link to ACQUIRE by PCS_RST or AN_RESTART: a link loss from UP and DEBOUNCE (R129, R155). -/
def State.relink (s : State) (p : Nat) : State :=
  let st := s.rd (R.PORT_STAT_STATE p)
  ((if st = 3 ∨ st = 5 then (s.linkLost p).spoilRx p else s)).enterAcquire p

/-- A write of 1 to PCS_RST: no effect in DISABLED (R155). -/
def State.pcsRst (s : State) (p : Nat) : State :=
  if s.rd (R.PORT_STAT_STATE p) = 0 then s else s.relink p

/-- A write of 1 to AN_RESTART: no effect in DISABLED and in ACQUIRE (R155). -/
def State.anRestart (s : State) (p : Nat) : State :=
  if s.rd (R.PORT_STAT_STATE p) ≤ 1 then s else s.relink p

/-- PCS_RST (R155). -/
def execPcsRst (p : Port) (s : State) : Host.Outcome State Fault Refusal := .next (s.pcsRst p)

/-- AN_RESTART (R155). -/
def execAnRestart (p : Port) (s : State) : Host.Outcome State Fault Refusal := .next (s.anRestart p)

/-- INVALID_CODE_GROUP (R591): counted in PCS_ERR while the port is UP. -/
def execInvalidCodeGroup (p : Port) (s : State) : Host.Outcome State Fault Refusal :=
  if isUp s p then .next (s.inc (R.PCS_ERR p)) else .next s

/-- A write of SX_CFG: a change of any field but the equaliser cursors takes the port through PCS_RST (R132). -/
def State.sxCfg (s : State) (p n : Nat) : State :=
  let old := (s.rd (R.SX_CFG_TX_POL p), s.rd (R.SX_CFG_RX_POL p), s.rd (R.SX_CFG_LPBK p))
  let s := ((s.wr (R.SX_CFG_TX_POL p) n).wr (R.SX_CFG_RX_POL p) (n / 2)).wr (R.SX_CFG_LPBK p) (n / 4)
  let s := ((s.wr (R.SX_CFG_TX_PRE p) (n / 16)).wr (R.SX_CFG_TX_MAIN p) (n / 256)).wr (R.SX_CFG_TX_POST p) (n / 65536)
  let new := (s.rd (R.SX_CFG_TX_POL p), s.rd (R.SX_CFG_RX_POL p), s.rd (R.SX_CFG_LPBK p))
  if new = old then s else s.pcsRst p

/-- SX_CFG_WRITE (R132). -/
def execSxCfgWrite (p : Port) (v : Dword) (s : State) : Host.Outcome State Fault Refusal :=
  .next (s.unlessReset p (R.SX_CFG_TX_POL p) (s.sxCfg p v.toNat))

end Sys2Proof.Machine
end

