-- ==== Sys2Proof/Machine/Pause.lean ====
section
/-! DEFINITION. Received and generated pause and the pause watchdog (spec/05_pause_and_watchdog.md). -/

namespace Sys2Proof.Machine

/-- The address of MAC control frames that act, 01-80-C2-00-00-01 (R157). -/
def pauseDa : List Byte := [0x01, 0x80, 0xC2, 0x00, 0x00, 0x01]

/-- An index is released (R158, R159): its timer, and its bit of RX_HELD. -/
def State.releaseIndex (s : State) (p i : Nat) : State := (s.syncPort p).setHeld p i none true

/-- Load a held index with a time in quanta of 512 bit times; 0 releases it (R158); it acts from the second core cycle on (R159). -/
def State.loadIndex (s : State) (p i v : Nat) : State :=
  let t := if v = 0 then none else some (s.now + bitsTime (512 * v) (s.rateKb p))
  s.modPort p (fun q => { q with loads := q.loads ++ [(s.secondCycle, i, t)] })

/-- The indices and times that a pause frame loads (R158): the opcode, then the frame's bytes. -/
def pauseLoads (opcode : Nat) (bytes : List Byte) : List (Nat × Nat) :=
  if opcode = 1 then [(8, beNat (sliceD bytes 16 2))]
  else ((List.range 8).filter (fun i => (beNat (sliceD bytes 16 2)).testBit i)).map
    (fun i => (i, beNat (sliceD bytes (18 + 2 * i) 2)))

/-- A watchdog breaks the pause of an index (R165, R166): it is held no more in the tick that begins. -/
def State.wdBreak (s : State) (p i : Nat) : State :=
  let lvl := s.rd (R.PAUSE_WD_STAT_BROKEN p) != 0
  let s := (s.releaseIndex p i).modPort p (fun q => { q with
    heldTick := lmod q.heldTick i (fun _ => false), loads := q.loads.filter (fun x => x.2.1 != i)
    broke := if q.broke.1 = s.now then (s.now, i :: q.broke.2) else (s.now, [i]) })
  let s := s.inc (R.PAUSE_BROKEN p)
  let b := setBitAt (s.rd (R.PAUSE_WD_STAT_BROKEN p)) i true
  let s := s.wr (R.PAUSE_WD_STAT_BROKEN p) b
  let s := if lvl then s else s.arrive (193 + p) false
  let s := s.log 0x48 (p + 16 * i)
  if s.inf (R.FC_CFG_WD_MODE p) = 0 then
    let s := s.modPort p (fun q => { q with
      wdCount := lmod q.wdCount i (fun _ => 0)
      wdHold := lmod q.wdHold i (fun _ => s.tick.num + s.inf (R.FC_WD_PAUSE_WD_HOLD p)) })
    s.putAt (R.PAUSE_WD_STAT_HOLDING p) i true
  else
    ((s.modPort p (fun q => { q with timers := List.replicate 9 none, heldTick := List.replicate 9 false, loads := [] })).wr
      (R.FC_STAT_RX_HELD p) 0).put (R.FC_STAT_STRICT_LOCK p) true

/-- The indices of a port whose count has reached PAUSE_WD_LIMIT (R165). -/
def State.dueBreaks (s : State) (p : Nat) : List Nat :=
  if s.bit (R.FC_STAT_STRICT_LOCK p) then []
  else (List.range 9).filter (fun i => decide ((s.port p).wdCount.getD i 0 ≥ s.inf (R.FC_WD_PAUSE_WD_LIMIT p)))

/-- Every break that is due on a port comes first (R167). -/
def State.breakDue (s : State) (p : Nat) : State := (s.dueBreaks p).foldl (fun s i => s.wdBreak p i) s

/-- PAUSE_WD_BREAK (R165, R166): the index's count has reached PAUSE_WD_LIMIT; in STRICT mode every index that is due breaks at once. -/
def execPauseWdBreak (p : Port) (i : HeldIndex) (s : State) : Host.Outcome State Fault Refusal :=
  if (s.dueBreaks p).contains i then
    .next (if s.inf (R.FC_CFG_WD_MODE p) = 0 then s.wdBreak p i else s.breakDue p)
  else .next s

/-- A received PAUSE or priority pause frame acts, or is counted as ignored (R157 to R159, R164, R166, R167). Under a
STRICT lock a frame that also fails mode, DA, link state or negotiation counts in RX_PAUSE_IGN, as R157 counts it, not in PAUSE_IGN_WD, as
the table of R166 does (DEDUCED, DESIGN CHOICE, log entries 15, 93). -/
def State.pauseFrame (s : State) (p opcode : Nat) (bytes : List Byte) : State :=
  let s := s.breakDue p
  let mode := s.inf (R.FC_CFG_RX_MODE p)
  let match_ := (opcode == 1 && mode == 1 && s.bit (R.FC_STAT_AN_RX_EN p)) || (opcode == 0x101 && mode == 2)
  if !(match_ && bytes.take 6 == pauseDa && isUp s p) then s.inc (R.RX_PAUSE_IGN p)
  else if s.bit (R.FC_STAT_STRICT_LOCK p) then s.inc (R.PAUSE_IGN_WD p)
  else
    let loads := pauseLoads opcode bytes
    let free := loads.filter (fun l => !s.bitAt (R.PAUSE_WD_STAT_HOLDING p) l.1)
    let s := if free.length < loads.length then s.inc (R.PAUSE_IGN_WD p) else s
    let s := if free.isEmpty && !loads.isEmpty then s else s.inc (R.RX_PAUSE_ACT p)
    free.foldl (fun s l => s.loadIndex p l.1 l.2) s

/-- PAUSE_TIMER_EXPIRE (R158, R159): the event falls when the index's timer reaches 0, unless a new load has replaced it. -/
def execPauseTimerExpire (p : Port) (i : HeldIndex) (s : State) : Host.Outcome State Fault Refusal :=
  match (s.port p).timers.getD i none with
  | none => .next s
  | some t =>
    let s := (s.upTo t).settleLoads p
    .next (if (s.port p).timers.getD i none = some t then s.releaseIndex p i else s)

/-- PAUSE_WD_HOLD_END (R166): the index's hold has run its ticks. -/
def execPauseWdHoldEnd (p : Port) (i : HeldIndex) (s : State) : Host.Outcome State Fault Refusal :=
  if s.bitAt (R.PAUSE_WD_STAT_HOLDING p) i = true ∧ s.tick.num ≥ (s.port p).wdHold.getD i 0 then
    .next (s.putAt (R.PAUSE_WD_STAT_HOLDING p) i false)
  else .next s

/-! ### Generated pause (R172 to R175) -/

/-- The station address of FC_SA, most significant byte of the frame first (R173). -/
def State.fcSa (s : State) (p : Nat) : List Byte :=
  leBytes 4 (s.inf (R.FC_SA_LO p)) ++ leBytes 2 (s.inf (R.FC_SA_HI p))

/-- A PAUSE or priority pause frame with given classes and times, padded to 64 bytes with its FCS (R173). -/
def State.pauseBytes (s : State) (p : Nat) (en : List Bool) (times : List Nat) : List Byte :=
  let head := pauseDa ++ s.fcSa p ++ beBytes 2 0x8808
  let body := if s.inf (R.FC_CFG_TX_MODE p) = 1 then beBytes 2 1 ++ beBytes 2 (times.headD 0)
    else beBytes 2 0x101 ++ beBytes 2 (ofBits en.reverse) ++ (times.map (beBytes 2)).flatten
  withFcs (sliceD (head ++ body) 0 60)

/-- A port queues a pause frame that tells its partner the state of its classes; `leaving` lists classes that carry time 0
now (R173, R174). A class under the cap of R175 is not told XOFF. -/
def State.sendPause (s : State) (p : Nat) (leaving : List Nat) : State :=
  let x := s.rd (R.FC_STAT_TX_XOFF p)
  let cap := (s.port p).capped
  let on (c : Nat) : Bool := x.testBit c && !cap.getD c false
  let quanta := s.inf (R.FC_TX_QUANTA p)
  let mode := s.inf (R.FC_CFG_TX_MODE p)
  if s.bit R.FLT_STAT_ECLIPSE ∨ isUp s p = false ∨ mode = 0 ∨ (mode = 1 ∧ s.bit (R.FC_STAT_AN_TX_EN p) = false) then s
  else
    let b := if mode = 1 then s.pauseBytes p [] [if (List.range 8).any on then quanta else 0]
      else s.pauseBytes p ((List.range 8).map (fun c => x.testBit c || leaving.contains c))
        ((List.range 8).map (fun c => if on c then quanta else 0))
    s.modPort p (fun q => { q with pauseOut := q.pauseOut ++ [b], refreshAt := s.now })

/-- The condition under which a class enters XOFF (R172). -/
def State.xoffEnters (s : State) (p c : Nat) : Bool :=
  let x := s.inf (R.FC_THR_XOFF p c)
  (x != 0 && decide ((s.port p).classCells.getD c 0 > x)) || decide (s.freeCells < s.inf R.FC_GLOBAL_XOFF_FREE)

/-- The condition under which a class leaves XOFF (R172). -/
def State.xoffLeaves (s : State) (p c : Nat) : Bool :=
  (s.inf (R.FC_THR_XOFF p c) == 0 || decide ((s.port p).classCells.getD c 0 < s.inf (R.FC_THR_XON p c)))
    && decide (s.freeCells ≥ s.inf R.FC_GLOBAL_XON_FREE)

/-- XOFF_CHANGE (R172, R173): in PAUSE mode a frame is sent only where the port's own state changes. Classes that change in one cycle are
told one by one, a frame for each in priority mode (DESIGN CHOICE, log entry 93). -/
def execXoffChange (p : Port) (c : FrameClass) (s : State) : Host.Outcome State Fault Refusal :=
  let f := R.FC_STAT_TX_XOFF p
  let was := s.rd f != 0
  if s.bitAt f c = false ∧ s.inf (R.FC_CFG_TX_MODE p) ≠ 0 ∧ s.xoffEnters p c = true then
    let s := s.putAt f c true
    .next (if s.inf (R.FC_CFG_TX_MODE p) = 1 ∧ was = true then s else s.sendPause p [])
  else if s.bitAt f c = true ∧ s.xoffLeaves p c = true then
    let s := (s.putAt f c false).modPort p (fun q => { q with
      xoffTicks := lmod q.xoffTicks c (fun _ => 0), capped := lmod q.capped c (fun _ => false) })
    .next (if s.inf (R.FC_CFG_TX_MODE p) = 1 ∧ s.rd f ≠ 0 then s else s.sendPause p [c])
  else .next s

/-- FC_REFRESH (R173): FC_REFRESH µs after the last pause frame, while a class stays in XOFF. -/
def execFcRefresh (p : Port) (s : State) : Host.Outcome State Fault Refusal :=
  if s.rd (R.FC_STAT_TX_XOFF p) = 0 then .next s
  else .next ((s.upTo ((s.port p).refreshAt + s.inf (R.FC_REFRESH p) * 64000)).sendPause p [])

/-- XOFF_CAP (R175). -/
def execXoffCap (p : Port) (c : FrameClass) (s : State) : Host.Outcome State Fault Refusal :=
  if s.bitAt (R.FC_STAT_TX_XOFF p) c = true ∧ (s.port p).capped.getD c false = false
      ∧ (s.port p).xoffTicks.getD c 0 ≥ s.inf (R.FC_XOFF_MAX p) then
    let s := s.modPort p (fun q => { q with capped := lmod q.capped c (fun _ => true) })
    .next ((s.inc (R.TX_XOFF_CAP p)).sendPause p [c])
  else .next s

end Sys2Proof.Machine
end

