-- ==== Sys2Proof/Machine/Queue.lean ====
section
/-! DEFINITION. Egress queues (spec/09_egress_scheduling.md): the residence-cap test that reserves a queue slot (R277 to R285,
R299, R301), gate lists at a tick boundary and at a switch (R292, R296), and missed caps (R290). -/

namespace Sys2Proof.Machine

/-! ### Usable time (R281) -/

/-- Intervals of a list of spans in which a queue's gate is open. -/
def openSpans (q : Nat) (l : List (Nat × Nat × Nat)) : List (Nat × Nat) :=
  (l.filter (fun e => (gclGates e.2.2).testBit q && decide (e.1 < e.2.1))).map (fun e => (e.1, e.2.1))

/-- The common part of two lists of intervals. -/
def interSpans (a b : List (Nat × Nat)) : List (Nat × Nat) :=
  (a.map (fun x => (b.map (fun y => (max x.1 y.1, min x.2 y.2))).filter (fun z => decide (z.1 < z.2)))).flatten

/-- Adjacent intervals joined. -/
def joinSpans : List (Nat × Nat) → List (Nat × Nat)
  | [] => []
  | a :: t =>
    match joinSpans t with
    | [] => [a]
    | b :: u => if a.2 = b.1 then (a.1, b.2) :: u else a :: b :: u

/-- Intervals of a tick of a length in which the gate of queue q of port p is open, under both lists while a switch is
pending (R281). -/
def State.openInTick (s : State) (p q len : Nat) : List (Nat × Nat) :=
  if !s.gateEn p then [(0, len)]
  else
    let a := openSpans q (gateSpans len (s.port p).oper 0)
    match (s.port p).gclPend with
    | some (l, _) => interSpans a (openSpans q (gateSpans len l 0))
    | none => a

/-- 63/64 of the period (R281). -/
def State.shortTick (s : State) : Nat := s.period * 63 / 64

/-- The rest of the running tick. -/
def State.restOfTick (s : State) : Nat := s.nextBoundary - s.now

/-- The windows of a queue from now to boundary d, as intervals from now on (R281) (DEDUCED, log entry 21). -/
def State.windows (s : State) (p q d : Nat) : List (Nat × Nat) :=
  if d ≤ s.tick.num then []
  else
    let o := s.now - s.tick.start
    let rest := s.restOfTick
    let first := (s.openInTick p q (o + rest)).filterMap (fun x =>
      if x.2 ≤ o then none else some (x.1 - o, x.2 - o))
    let t := s.shortTick
    let each := s.openInTick p q t
    let later := (List.range (d - s.tick.num - 1)).map (fun k =>
      each.map (fun x => (rest + k * t + x.1, rest + k * t + x.2)))
    joinSpans (first ++ later.flatten)

/-- Units of a byte where a time in units of State.now is multiplied by a rate in kb/s (DESIGN CHOICE, log entry 12). -/
def byteUnit : Nat := 8 * creditBit

/-- BLK of a queue, in bytes (R281). -/
def State.blk (s : State) (p q : Nat) : Nat :=
  if s.isExpress p q then 143 + 64 * s.inf (R.QPORT_CFG_ADD_FRAG p) else s.maxWire p

/-- The supply of queue j of port p up to boundary d, in bytes (R282) (DESIGN CHOICE, log entry 12). -/
def State.supply (s : State) (p j d : Nat) : Nat :=
  let r := s.rateKb p
  let cut := (s.inf (R.MAXLEN p) + s.blk p j) * byteUnit
  let usable := ((s.windows p j d).map (fun w => (w.2 - w.1) * r - cut)).sum
  let fc := if s.inf (R.FC_CFG_TX_MODE p) = 0 then 0 else 168 * (d - s.tick.num)
  let base := usable / byteUnit - fc
  if s.shaped p j then min base (usable * s.inf (R.Q_IDLE_SLOPE p j) / (r * byteUnit) - s.maxWire p) else base

/-! ### Demand (R279, R283) -/

/-- The wire bytes charged to a frame of L bytes on a port (R279). -/
def State.wireBytes (s : State) (p len : Nat) : Nat :=
  max (len + 14) 64 + 8 + s.inf (R.PORT_CFG_TX_IPG p) + ceilDiv len 32

/-- The unstarted frames of a port's queues with their queue, a new one last. -/
def State.queued (s : State) (p : Nat) (new : Option (Nat × QItem)) : List (Nat × QItem) :=
  ((List.range 8).map (fun q => (s.waiting p q).map (fun x => (q, x)))).flatten ++ new.toList

/-- The demand of queue j up to boundary d (R283). -/
def State.demand (s : State) (p j d : Nat) (l : List (Nat × QItem)) : Nat :=
  let above := l.filter (fun x => decide (x.1 > j))
  (above.map (·.2.w)).sum + s.blk p j * (above.filter (fun x => x.2.launch.isSome)).length
    + ((l.filter (fun x => x.1 == j && decide (x.2.deadline ≤ d))).map (·.2.w)).sum

/-! ### The test (R278, R284, R301) -/

/-- The flow and sequence of a frame. -/
def State.flowSeq (s : State) (h : Nat) : Option (Nat × Nat) := (mget s.frames h).map (fun f => (f.flow, f.seq))

/-- No older frame of a flow waits for the port in a queue that `behind` names (R94, R284). -/
def State.olderWaits (s : State) (p flow : Nat) (seq : Option Nat) (behind : Nat → Bool) : Bool :=
  (s.queued p none).any (fun x => behind x.1 && (match s.flowSeq x.2.frame with
    | some (g, n) => g == flow && (match seq with
        | some m => newer m n
        | none => true)
    | none => false))

/-- The time from now to a launch time in ns, if it is in the future (R296, R301) (DEDUCED, log entry 29). -/
def State.launchIn (s : State) (target : Nat) : Option Nat :=
  if inFuture target (s.short 0) then some ((target + 2 ^ 40 - s.short 0) % 2 ^ 40) else none

/-- Slots held by a port: every reserved port exit until its disposition (R278). -/
def State.slotsUsed (s : State) (p : Nat) : Nat := ((s.port p).queues.map List.length).sum

/-- The launch time that acts at a port exit: that of the descriptor, on a queue with LT_EN (R299). -/
def State.launchAt (s : State) (epoch p q : Nat) (d : Option TxDesc) : Option Nat :=
  if s.infAt epoch (R.Q_CFG_LT_EN p q) = 1 then d.bind (·.launch) else none

/-- The conditions of R284 for a frame of L bytes of a flow into queue q of port p (DEDUCED, log entries 21, 28). -/
def State.capTest (s : State) (epoch p q len flow : Nat) (launch : Option Nat) : Bool :=
  let c := s.infAt epoch (R.Q_CFG_CAP p q)
  let d := s.tick.num + c
  let x : QItem := ⟨0, 0, s.wireBytes p len, len, d, s.tick.num, launch, false, false, false⟩
  let l := s.queued p (some (q, x))
  let time := bitsTime (8 * len) (s.rateKb p)
  isUp s p && !s.bitAt R.ENG_RST_STAT 7 && !s.queueHeld p q
    && l.all (fun y => decide (s.demand p y.1 y.2.deadline l ≤ s.supply p y.1 y.2.deadline))
    && !s.olderWaits p flow none (fun j => decide (j < q))
    && (s.windows p q d).any (fun w => decide (time ≤ w.2 - w.1))
    && (match launch with
        | none => true
        | some t =>
          match s.launchIn t with
          | none => false
          | some ns => decide (ns * unitsPerNs + time < s.restOfTick + (c - 1) * s.shortTick))
    && (s.infAt epoch (R.Q_CFG_TS p q) == 0
        || decide ((s.port p).tsUsed.getD q 0 + x.w ≤ s.infAt epoch (R.Q_TS_BYTES p q)))

/-- A frame enters its queue in the cycle of its reservation (R277). -/
def State.enterQueue (s : State) (epoch p q h i len : Nat) (launch : Option Nat) : State :=
  let w := s.wireBytes p len
  let x : QItem := ⟨h, i, w, len, s.tick.num + s.infAt epoch (R.Q_CFG_CAP p q), s.tick.num, launch, false, false, false⟩
  s.modPort p (fun r => { r with
    queues := lmod r.queues q (· ++ [x])
    tsUsed := lmod r.tsUsed q (· + w) })

/-! ### Gate lists and caps in time (R290, R292, R296, R306) -/

/-- The operation of the entry that comes into force (R306): a hold acts only while preemption is active. -/
def State.gateHold (s : State) (p w : Nat) : State :=
  if !s.preemptOn p then s
  else
    match gclOp w with
    | 1 => s.put (R.QPORT_STAT_HOLD p) true
    | 2 => s.put (R.QPORT_STAT_HOLD p) false
    | _ => s

/-- Entry e of the operating list comes into force (R292). -/
def State.enterGate (s : State) (p e : Nat) : State :=
  let s := (s.syncPort p).modPort p (fun r => { r with operEntry := e })
  (s.wr (R.GCL_OPER_ENTRY p) e).gateHold p (s.gateWord p)

/-- The offset of entry e of a list in ns. -/
def entryOffset (l : List Nat) (e : Nat) : Nat := ((l.take e).map gclInterval).sum

/-- GATE_ENTRY (R292, R306): the next entry begins at its offset; no list runs with GATE_EN = 0, nor between a reset of QSC
and the boundary after it (R309). -/
def execGateEntry (p : Port) (s : State) : Host.Outcome State Fault Refusal :=
  let r := s.port p
  let e := r.operEntry + 1
  if s.gateEn p = false ∨ r.gclFrom > s.tick.num ∨ e ≥ r.oper.length then .next s
  else .next ((s.upTo (s.tick.start + gateOffset (entryOffset r.oper e))).enterGate p e)

/-- A tick boundary at a port (R292, R306): the list restarts with entry 0, the hold ends unless entry 0 sets it. -/
def State.gateBoundary (s : State) (p : Nat) : State :=
  let s := (s.syncPort p).put (R.QPORT_STAT_HOLD p) false
  let s := s.modPort p (fun r => { r with tsUsed := List.replicate 8 0 })
  if s.gateEn p ∧ s.bitAt R.ENG_RST_STAT 7 = false ∧ (s.port p).gclFrom ≤ s.tick.num then s.enterGate p 0
  else s.modPort p (fun r => { r with operEntry := 0 })

/-- Write the operating list into its registers (R291). -/
def State.showOper (s : State) (p : Nat) : State :=
  let l := (s.port p).oper
  let s := (List.range 256).foldl (fun s e => s.wr (R.GCL_OPER p e) (l.getD e 0)) s
  s.wr (R.QPORT_STAT_OPER_LEN p) l.length

/-- The pending list of a port replaces the operating list (R296). -/
def State.gclSwitch (s : State) (p : Nat) : State :=
  match (s.port p).gclPend with
  | none => s
  | some (l, base) =>
    if inFuture base (s.short 0) then s
    else
      let s := s.modPort p (fun r => { r with oper := l, gclPend := none })
      let s := ((s.put (R.QPORT_STAT_GCL_PEND p) false).wr (R.GCL_SWITCH_TICK_LO p) (s.tick.num % 2 ^ 32)).showOper p
      s.gateBoundary p

/-- GCL_SWITCH (R296, R297): at a boundary of the port at which the base is not in the future; deadlines are kept (DEDUCED, log entry 59). -/
def execGclSwitch (p : Port) (s : State) : Host.Outcome State Fault Refusal :=
  if s.now = s.tick.start then .next (s.gclSwitch p) else .next s

/-- The transmit completion of a host frame takes LATE, or where it has been written already a CAP_MISS record becomes due to
the sender (R290, R367). -/
def State.lateHost (s : State) (f : Frame) (e : Entry) : State :=
  match f.src, f.desc with
  | .ring g r, some d =>
    let mine (x : Desc) : Bool := x.pos == d.idx && (match x.st with
      | .accepted h => h == e.frame
      | .ready c => c.frame == some e.frame
      | _ => false)
    if (s.ring g r).descs.any mine then
      s.modRing g r (fun x => { x with descs := x.descs.map (fun x => if mine x then { x with st := match x.st with
        | .ready c => .ready { c with late := true }
        | o => o } else x) })
    else s.event g ⟨3, 0, true, false, (s.flow e.flow).fn, e.flow, e.seq, e.dest, e.sub, 0, 0, 0, none, 0, 0⟩
  | _, _ => s

/-- The frames of a queue whose deadline is the boundary that has passed, unstarted and not marked yet (R290). -/
def State.missed (s : State) (p q : Nat) : List QItem :=
  (s.waiting p q).filter (fun x => x.deadline == s.tick.num && !x.missed && (s.itemEntry x).isSome)

/-- RESIDENCE_CAP_MISS (R290). -/
def execResidenceCapMiss (p : Port) (q : Queue) (s : State) : Host.Outcome State Fault Refusal :=
  let l := s.missed p q
  if s.now ≠ s.tick.start ∨ l.isEmpty then .next s
  else
    let s := l.foldl (fun s x =>
      match mget s.frames x.frame with
      | none => s
      | some f =>
        match f.exits[x.exit]? with
        | none => s
        | some y =>
          match mget s.led.entries y.entry with
          | none => s
          | some e =>
            ((s.modEntry y.entry (fun e => { e with late := true })).lateHost f e).inc (R.Q_CAP_MISS p q)) s
    let s := s.modPort p (fun r => { r with queues := lmod r.queues q (fun m => m.map (fun y => { y with missed := y.missed || l.contains y })) })
    let s := s.setFlag (R.QPORT_STAT_CAP_MISS p) (199 + p)
    .next (s.log 0x49 (p + 16 * q))

end Sys2Proof.Machine
end

