-- ==== Sys2Proof/Machine/Transmit.lean ====
section
/-! DEFINITION. Selecting, staging and transmitting frames (spec/09_egress_scheduling.md R286 to R289, R300, R304 to R307;
spec/04_port_macs.md R145, R146, R156). -/

namespace Sys2Proof.Machine

/-! ### Eligibility (R286, R287, R293) -/

/-- The list that will be in force after the next boundary (R296). -/
def State.nextList (s : State) (p : Nat) : List Nat :=
  match (s.port p).gclPend with
  | some (l, base) =>
    if inFuture base ((s.tdVal 0 s.nextBoundary / tdUnit) % 2 ^ 40) then (s.port p).oper else l
  | none => (s.port p).oper

/-- How long a queue's gate stays open from now, in units of State.now; none without end (R293). -/
def State.openFor (s : State) (p q : Nat) : Option Nat :=
  if !s.gateEn p then none
  else if !s.gateOpen p q then some 0
  else
    let o := s.now - s.tick.start
    let n := s.nextBoundary - s.tick.start
    let spans := gateSpans n (s.port p).oper 0
    let rest := spans.drop (s.port p).operEntry
    match rest.find? (fun e => !(gclGates e.2.2).testBit q && decide (e.1 < e.2.1)) with
    | some e => some (e.1 - o)
    | none =>
      let next := gateSpans s.period (s.nextList p) 0
      match next.find? (fun e => !(gclGates e.2.2).testBit q && decide (e.1 < e.2.1)) with
      | some e => some (n - o + e.1)
      | none => none

/-- The length of a frame as an exit sends it, with its edits, its padding and its FCS (R143, R146). -/
def State.exitLen (s : State) (f : Frame) (x : Exit) : Nat :=
  let (b, changed) := s.exitBytes f x (List.replicate f.len 0)
  if changed ∨ b.length < 60 then max b.length 60 + 4 else f.len

/-- The length of a queued frame as its port sends it. -/
def State.sentLen (s : State) (x : QItem) : Nat :=
  match mget s.frames x.frame with
  | none => x.len
  | some f => ((f.exits[x.exit]?).map (fun y => s.exitLen f y.exit)).getD x.len

/-- A head frame fits its open gate (R293). -/
def State.fits (s : State) (p q : Nat) (x : QItem) : Bool :=
  match s.openFor p q with
  | none => true
  | some t => decide (bitsTime (8 * s.sentLen x) (s.rateKb p) ≤ t)

/-- The launch time of a waiting frame has come (R300): an SFD that the port launches now crosses the plane at it, at its very instant as in
the worked case of chapter 9, or later; a missed frame waits for it no more (DEDUCED, log entry 39). -/
def State.launchCome (s : State) (p : Nat) (x : QItem) : Bool :=
  match x.launch with
  | none => true
  | some t => x.late || t % 2 ^ 40 == s.planeShort p || !inFuture t (s.planeShort p)

/-- The head frame of a queue. -/
def State.head (s : State) (p q : Nat) : Option QItem := (s.waiting p q).head?

/-- The launch guard bars queue q (R287): also once the launch time has come, until the launch-time frame has started (DEDUCED, log entry 22). -/
def State.guarded (s : State) (p q : Nat) (x : QItem) : Bool :=
  (List.range 8).any (fun j => decide (j > q) && (match s.head p j with
    | none => false
    | some y =>
      match y.launch with
      | none => false
      | some t =>
        !inFuture t (s.planeShort p)
          || decide (bitsTime (8 * (s.sentLen x + s.inf (R.PORT_CFG_TX_IPG p) + 8)) (s.rateKb p)
              ≥ (t + 2 ^ 40 - s.planeShort p) % 2 ^ 40 * unitsPerNs)))

/-- A queue is eligible now, which a held one is not (R160, R286, R308); in the quiesced Eclipse state transmitters send idle (R606). -/
def State.eligible (s : State) (p q : Nat) : Bool :=
  match s.head p q with
  | none => false
  | some x =>
    let fs := s.flowSeq x.frame
    isUp s p && !s.bitAt R.ENG_RST_STAT 7 && !s.bitAt R.ENG_RST_STAT p
      && !(s.bit R.FLT_STAT_ECLIPSE && !s.bit R.FLT_STAT_ECL_DRAIN)
      && s.enqueued x && !s.queueHeld p q && s.gateOpen p q && s.fits p q x
      && (s.isExpress p q || !s.bit (R.QPORT_STAT_HOLD p))
      && (!s.shaped p q || decide (0 ≤ s.creditNow p q))
      && s.launchCome p x
      && (match fs with
          | some (g, n) => !s.olderWaits p g (some n) (fun _ => true)
          | none => false)
      && !s.guarded p q x

/-- The highest eligible queue of those that satisfy a condition (R288). -/
def State.selectQ (s : State) (p : Nat) (ok : Nat → Bool) : Option Nat :=
  ([7, 6, 5, 4, 3, 2, 1, 0] : List Nat).find? (fun q => ok q && s.eligible p q)

/-! ### Staging (R142, R145, R146, R204, R289) -/

/-- The bytes of an accepted frame, or none where unfolding fails its proof (R204). -/
def State.provenBytes (s : State) (f : Frame) : Option (List Byte) :=
  let b := s.frameBytes f
  if f.folded.isSome ∧ fcsGood b = false then none else some b

/-- An unfolding that fails its proof is counted and reported with the frame's handle, the index of its first cell (R204). -/
def State.foldBad (s : State) (f : Frame) : State :=
  ((s.inc R.FOLD_FAULT_CNT).inc R.DATA_FAULT_CNT).bufFault (f.cells.headD 0) 7

/-- It gives an exit DATA_FAULT (R204). -/
def State.foldFault (s : State) (h i : Nat) (f : Frame) : State := (s.foldBad f).dispose h i 8

/-- A frame as it leaves at a port exit, with its FCS: a modified frame is padded and gets a new FCS, an unmodified one keeps
its stored FCS if that matches (R146). -/
def State.wireForm (s : State) (f : Frame) (x : Exit) (orig : List Byte) : Option (List Byte) :=
  let (b, changed) := s.exitBytes f x orig
  if changed ∨ b.length < 60 then some (withFcs (padFrame b))
  else if fcsGood orig then some orig else none

/-- The slot in which a queued frame is staged. -/
def State.slotOf (s : State) (p : Nat) (x : QItem) : Option Nat :=
  (s.port p).slots.findIdx? (fun o => match o with
    | some g => g.frame == x.frame && g.exit == x.exit
    | none => false)

/-- The frame in a slot of a port has started. -/
def State.slotBusy (s : State) (p k : Nat) : Bool :=
  match (s.port p).tx, (s.port p).preempted with
  | some t, some u => t.slot == k || u.slot == k
  | some t, none => t.slot == k
  | none, some u => u.slot == k
  | none, none => false

/-- The slot that a frame of queue q may take: a free one of its MAC, or that of a lower frame that has not started (R289). -/
def State.slotFor (s : State) (p q : Nat) : Option Nat :=
  let mine : List Nat := if s.isExpress p q then [2] else [0, 1]
  let free := mine.find? (fun k => ((s.port p).slots.getD k none).isNone && !s.slotBusy p k)
  let lower := mine.find? (fun k => !s.slotBusy p k && (match (s.port p).slots.getD k none with
    | some g => decide (g.queue < q)
    | none => false))
  lower <|> free

/-- A slot's frame is released and stays in its queue; its entry stays STAGED, since R96 has no way back to QUEUED (R289) (DEDUCED, log entry 22). -/
def State.releaseSlot (s : State) (p k : Nat) : State :=
  s.modPort p (fun r => { r with slots := lmod r.slots k (fun _ => none) })

/-- A frame is staged in a slot: read, unfolded with its proof, patched and edited, its entry STAGED; where its bytes fail,
the exit takes DATA_FAULT (R145, R146, R204). -/
def State.stageIn (s : State) (p q k : Nat) (x : QItem) : State :=
  let s := s.releaseSlot p k
  match mget s.frames x.frame with
  | none => s
  | some f =>
    match f.exits[x.exit]? with
    | none => s
    | some y =>
      match s.provenBytes f with
      | none => s.foldFault x.frame x.exit f
      | some b =>
        match s.wireForm f y.exit b with
        | none => (s.bufFault (f.cells.headD 0) 0).dispose x.frame x.exit 8
        | some w =>
          let s := s.modEntry y.entry (fun e => { e with stage := 3 })
          s.modPort p (fun r => { r with slots := lmod r.slots k (fun _ => some ⟨q, x.frame, x.exit, w⟩) })

/-- The selection of one MAC of a port is staged, where it is not yet (R289). -/
def State.stageSel (s : State) (p : Nat) (ok : Nat → Bool) : State :=
  match s.selectQ p ok with
  | none => s
  | some q =>
    match s.head p q with
    | none => s
    | some x =>
      if (s.slotOf p x).isSome then s
      else
        match s.slotFor p q with
        | none => s
        | some k => s.stageIn p q k x

/-! ### Launch times (R299, R300) -/

/-- The instant at which a port launches an SFD that crosses the plane at a launch time in the future (R147, R300, R401) (DEDUCED, log entry 39). -/
def State.shortAt (s : State) (p target : Nat) : Nat :=
  let t := s.tdWhen 0 ((s.tdNs 0 + (target % 2 ^ 40 + 2 ^ 40 - s.short 0) % 2 ^ 40) * tdUnit)
  ((t : Int) - (s.txStamp p 0) / 4).toNat

/-- The head frame of a queue is missed: it has not started by its launch time plus LT_WINDOW (R300). -/
def State.launchMissed (s : State) (p q : Nat) (x : QItem) : Bool :=
  match x.launch with
  | none => false
  | some t => !x.late && !inFuture t (s.planeShort p) && decide ((s.planeShort p + 2 ^ 40 - t) % 2 ^ 40 > s.inf (R.Q_LT_WINDOW p q))

/-- The head frame of a queue is judged by its launch time: a missed one is to be sent late, or leaves with LAUNCH_MISSED (R300). -/
def State.judgeLaunch (s : State) (p q : Nat) : State :=
  match s.head p q with
  | none => s
  | some x =>
    if s.launchMissed p q x = false then s
    else if s.inf (R.Q_CFG_LT_ACT p q) = 1 then ((s.syncPort p).inc (R.LT_MISSED p)).dispose x.frame x.exit 9
    else
      (s.inc (R.LT_LATE p)).modPort p (fun r => { r with
        queues := lmod r.queues q (fun l => l.map (fun y =>
          if y.frame = x.frame ∧ y.exit = x.exit then { y with late := true } else y)) })

/-- Every head frame of a port is judged, those that come to the head by it too (R300). -/
def State.judgeLaunches (s : State) (p : Nat) : State :=
  (List.range 8).foldl (fun s q => (s.waiting p q).foldl (fun s _ => s.judgeLaunch p q) s) s

/-- LAUNCH_TIME_REACHED (R300): the launch time of a queue's head frame comes, or has come and is judged. -/
def execLaunchTimeReached (p : Port) (q : Queue) (s : State) : Host.Outcome State Fault Refusal :=
  match s.head p q with
  | none => .next s
  | some x =>
    match x.launch with
    | none => .next s
    | some t => .next (if inFuture t (s.planeShort p) then s.upTo (s.shortAt p t) else s.judgeLaunch p q)

/-- STAGE_FRAME (R289): the selection of the express MAC while preemption is active, and that of the other. -/
def execStageFrame (p : Port) (s : State) : Host.Outcome State Fault Refusal :=
  let s := (s.syncPort p).judgeLaunches p
  let s := if s.preemptOn p then s.stageSel p (s.isExpress p) else s
  .next (s.stageSel p (fun q => !s.isExpress p q))

/-! ### Starting (R174, R288, R304) -/

/-- A queued frame of a port is marked started: it leaves the head of its queue. -/
def State.markStarted (s : State) (p q : Nat) (x : QItem) : State :=
  s.modPort p (fun r => { r with
    queues := lmod r.queues q (fun l => l.map (fun y =>
      if y.frame = x.frame ∧ y.exit = x.exit then { y with started := true } else y)) })

/-- A frame generated by the port starts (R174); the slot number 3 stands for it. -/
def State.startPause (s : State) (p : Nat) (b : List Byte) : State :=
  let t : TxCur := ⟨3, b, s.now, 0, s.now, none, 0, none⟩
  s.modPort p (fun r => { r with tx := some t, pauseOut := r.pauseOut.drop 1 })

/-- The staged head frame of queue q starts, with preemption active and no EXPRESS through the preemptable MAC (R304). -/
def State.startQ (s : State) (p q : Nat) : State :=
  match s.head p q with
  | none => s
  | some x =>
    match s.slotOf p x with
    | none => s
    | some k =>
      match (s.port p).slots.getD k none with
      | none => s
      | some g =>
        let pm := if s.preemptOn p && !s.isExpress p q then some (s.port p).pmCount else none
        let t : TxCur := ⟨k, g.bytes, s.now, 0, s.now, some (x.frame, x.exit), 0, pm⟩
        (s.markStarted p q x).modPort p (fun r => { r with
          tx := some t, pmCount := if pm.isSome then (r.pmCount + 1) % 4 else r.pmCount })

/-- Bytes of a frame in transmission that have left so far (DEDUCED, log entry 11). -/
def State.sentBytes (s : State) (p : Nat) (t : TxCur) : Nat :=
  min t.bytes.length (t.sent + (s.now - t.start) * s.rateKb p / byteUnit)

/-- A preemptable frame in transmission may be preempted now: the fragment and the remainder, with its mCRC, each have the
least size (R304). -/
def State.mayPreempt (s : State) (p : Nat) (t : TxCur) : Bool :=
  let m := 64 * (1 + s.inf (R.QPORT_CFG_ADD_FRAG p)) - 4
  let n := s.sentBytes p t
  t.pm.isSome && decide (n - t.sent ≥ m) && decide (t.bytes.length - n ≥ m)

/-- The gap after the last byte of a frame or a fragment, of TX_IPG bytes and the 8 bytes before the next SFD, with `more` bytes that
leave before it (R146). -/
def State.gapAfter (s : State) (p more : Nat) : State :=
  let g := s.now + bitsTime (8 * (more + s.inf (R.PORT_CFG_TX_IPG p) + 8)) (s.rateKb p)
  s.modPort p (fun r => { r with gapUntil := g })

/-- The mCRC of a fragment: the CRC of the frame's bytes up to its end with its low half inverted (R304) (PRESUMED, log entry 13). -/
def mcrcOf (b : List Byte) : Nat := (fcsOf b) ^^^ 0x0000FFFF

/-- The preemptable frame in transmission stops after its fragment, which its mCRC ends (R304) (DEDUCED, log entry 22). -/
def State.preempt (s : State) (p : Nat) (t : TxCur) : State :=
  let n := s.sentBytes p t
  let s := s.sendOut p (.fragment p t.start (t.pm.getD 0) t.frag (sliceD t.bytes t.sent (n - t.sent) ++ leBytes 4 (mcrcOf (t.bytes.take n))))
  let s := (s.modPort p (fun r => { r with tx := none, preempted := some { t with sent := n, frag := t.frag + 1 } })).gapAfter p 4
  (s.inc (R.PREEMPT_CNT p)).inc (R.FRAG_TX p)

/-- What the port starts when its MAC can take a frame: a generated frame, the highest eligible frame if it is staged, or the
rest of a preempted frame (R174, R288, R304, R306). -/
def State.startNext (s : State) (p : Nat) : State :=
  match (s.port p).pauseOut with
  | b :: _ => s.startPause p b
  | [] =>
    match (s.port p).preempted with
    | some u =>
      match s.selectQ p (s.isExpress p) with
      | some q => s.startQ p q
      | none =>
        if s.bit (R.QPORT_STAT_HOLD p) then s
        else s.modPort p (fun r => { r with tx := some { u with start := s.now }, preempted := none })
    | none =>
      match s.selectQ p (fun _ => true) with
      | some q => s.startQ p q
      | none => s

/-- A port is free to start: its gap has passed, and its launch times are judged (R146, R300). -/
def State.afterGap (s : State) (p : Nat) : State := ((s.upTo (s.port p).gapUntil).syncPort p).judgeLaunches p

/-- A port starts what it may (R288, R304): with a preemptable frame in transmission, an express frame or a generated one, or a hold,
preempts it at a permitted point. -/
def State.startTx (s : State) (p : Nat) : State :=
  if isUp s p = false ∨ s.bitAt R.ENG_RST_STAT p = true ∨ s.bitAt R.ENG_RST_STAT 7 = true then s
  else
    match (s.port p).tx with
    | none => (s.afterGap p).startNext p
    | some t =>
      let s := (s.syncPort p).judgeLaunches p
      let want := s.preemptOn p && (!(s.port p).pauseOut.isEmpty || (s.selectQ p (s.isExpress p)).isSome
        || s.bit (R.QPORT_STAT_HOLD p))
      if want && s.mayPreempt p t then ((s.preempt p t).afterGap p).startNext p else s

/-! ### The last byte (R19, R156, R415) -/

/-- The length bin of R156. -/
def sizeBin (n : Nat) : Nat :=
  if n < 64 then 0 else if n = 64 then 1 else if n ≤ 127 then 2 else if n ≤ 255 then 3 else if n ≤ 511 then 4
  else if n ≤ 1023 then 5 else if n ≤ 1518 then 6 else 7

/-- The transmit statistics of a frame as sent (R156) (DEDUCED, log entry 15). -/
def State.txStats (s : State) (p : Nat) (b : List Byte) (ctl : Bool) : State :=
  let s := s.add64 (R.TX_OCTETS p) (R.TX_OCTETS_HI p) b.length
  let s := s.add64 (R.TX_FRAMES p) (R.TX_FRAMES_HI p) 1
  let s := if b.take 6 = List.replicate 6 0xFF then s.add64 (R.TX_BCAST p) (R.TX_BCAST_HI p) 1
    else if ((b.headD 0).toNat).testBit 0 then s.add64 (R.TX_MCAST p) (R.TX_MCAST_HI p) 1 else s
  let s := if ctl then s.add64 (R.TX_MACCTL p) (R.TX_MACCTL_HI p) 1 else s
  s.add64 (R.TX_SIZE p (sizeBin b.length)) (R.TX_SIZE_HI p (sizeBin b.length)) 1

/-- The eight words of a stamp entry (R415). -/
def stampWords (w0 : Nat) (t : Stamp) (hi3 hi6 : Nat) : List Nat :=
  let ns (v : Nat) : Nat := v / tdUnit
  let fr (v : Nat) : Nat := v % tdUnit * 256 / tdUnit
  let sec (v : Nat) : Nat := ns v / 1000000000 % 2 ^ 48
  [w0 + (if t.v0 then 4 else 0) + (if t.v1 then 8 else 0) + 2 ^ 8 * fr t.td0 + 2 ^ 16 * fr t.td1,
    ns t.td0 % 1000000000, sec t.td0 % 2 ^ 32, sec t.td0 / 2 ^ 32 + 2 ^ 16 * hi3,
    ns t.td1 % 1000000000, sec t.td1 % 2 ^ 32, sec t.td1 / 2 ^ 32 + 2 ^ 16 * hi6, 0]

/-- A PTP event frame has its stamps placed in the port's queue (R415). -/
def State.ptpStamp (s : State) (p : Nat) (tx : Bool) (b : List Byte) (t : Stamp) : State :=
  let tg := parseTags (s.inf (R.TAG_CFG_S_TPID p)) b
  let o := tg.etypeOff + 2
  let b0 := (b.getD o 0).toNat
  if tg.etype ≠ 0x88F7 ∨ b0 % 16 > 3 ∨ s.rd (R.TSQ_CFG_EN p) = 0 then s
  else
    let l := s.tu.tsq.getD p []
    if l.length ≥ 32 then s.inc (R.TSQ_OVF p)
    else
      let w0 := 1 + (if tx then 2 else 0) + 16 * (b0 % 16) + 2 ^ 24 * (b.getD (o + 4) 0).toNat
      let w := stampWords w0 t (beNat (sliceD b (o + 30) 2)) (b0 / 16)
      let s := { s with tu := { s.tu with tsq := lmod s.tu.tsq p (· ++ [w]) } }.timeQueued p |>.wr (R.TSQ_COUNT p) (l.length + 1)
      if l.isEmpty then s.arrive (211 + p) false else s

/-- The TX_TIMESTAMP record of a port exit of a host frame whose descriptor asked for it (R376). -/
def State.txRecord (s : State) (h i : Nat) (t : Stamp) : State :=
  match mget s.frames h with
  | none => s
  | some f =>
    match f.src, f.desc, f.exits[i]? with
    | .ring g r, some d, some x =>
      if !d.ts then s
      else
        let e := mget s.led.entries x.entry
        s.event g ⟨2, 0, (e.map (·.late)).getD false, t.v0, (s.flow f.flow).fn, f.flow, f.seq, x.exit.dest, x.exit.sub, 0,
          t.ts40, s.tick.sec, some (r.val, d.idx, h), 0, 0⟩
    | _, _, _ => s

/-- A frame, or the last fragment of one that went through the preemptable MAC, has left a port (R146, R304). -/
def State.sentWhole (s : State) (p : Nat) (t : TxCur) : State :=
  match t.pm with
  | some n => s.sendOut p (.fragment p t.start n t.frag (t.bytes.drop t.sent))
  | none => s.sendOut p (.frame p t.start t.bytes)

/-- TX_LAST_BYTE (R19, R93, R156, R302): the frame in transmission ends; its exit is TRANSMITTED (DEDUCED, log entry 22). -/
def execTxLastByte (p : Port) (s : State) : Host.Outcome State Fault Refusal :=
  match (s.port p).tx with
  | none => .next s
  | some t =>
    let s := s.upTo (t.start + bitsTime (8 * (t.bytes.length - t.sent)) (s.rateKb p))
    let s := s.syncPort p
    let s := s.modPort p (fun r => { r with tx := none, slots := if t.slot ≤ 2 then lmod r.slots t.slot (fun _ => none) else r.slots })
    let s := if t.sent > 0 then s.inc (R.FRAG_TX p) else s
    let s := ((s.gapAfter p 0).sentWhole p t).txStats p t.bytes t.item.isNone
    let stamp := s.stampAt (s.txStamp p t.sfd)
    let s := s.ptpStamp p true t.bytes stamp
    match t.item with
    | none =>
      let times := t.bytes.drop (if beNat (sliceD t.bytes 14 2) = 1 then 16 else 18)
      let any := (times.take (t.bytes.length - 22)).any (· != 0)
      .next (s.inc (if any then R.TX_XOFF_FRAMES p else R.TX_XON_FRAMES p))
    | some (h, i) => .next ((s.txRecord h i stamp).dispose h i 0)

/-! ### Verification (R305) -/

/-- VERIFY_RECEIVED (R305): a port with PREEMPT_EN = 1 answers with a respond mPacket. -/
def execVerifyReceived (p : Port) (s : State) : Host.Outcome State Fault Refusal :=
  if s.inf (R.QPORT_CFG_PREEMPT_EN p) = 1 then .next (s.sendOut p (.mpacket p true)) else .next s

/-- RESPOND_RECEIVED (R305): verification succeeds and preemption is active. -/
def execRespondReceived (p : Port) (s : State) : Host.Outcome State Fault Refusal :=
  if s.rd (R.QPORT_STAT_VERIFY_STATE p) ≠ 2 then .next s
  else .next ((s.wr (R.QPORT_STAT_VERIFY_STATE p) 3).setPreempt p true)

/-- VERIFY_TIMEOUT (R305): VERIFY_TIME after the last verify mPacket another is sent, or the limit is reached, verification
has failed, and the check is rerun. -/
def execVerifyTimeout (p : Port) (s : State) : Host.Outcome State Fault Refusal :=
  if s.rd (R.QPORT_STAT_VERIFY_STATE p) ≠ 2 then .next s
  else
    let s := s.upTo ((s.port p).verifyAt + s.inf (R.QPORT_CFG_VERIFY_TIME p) * 1000000 * unitsPerNs)
    if (s.port p).verifyCount < s.inf (R.QPORT_CFG_VERIFY_LIMIT p) then
      .next ((s.sendOut p (.mpacket p false)).modPort p (fun r => { r with verifyCount := r.verifyCount + 1, verifyAt := s.now }))
    else
      let s := ((s.wr (R.QPORT_STAT_VERIFY_STATE p) 4).setPreempt p false).inc (R.VERIFY_FAIL_CNT p)
      .next ({ s with tick := { s.tick with rerun := true } }.raise (205 + p))

end Sys2Proof.Machine
end

