-- ==== Sys2Proof/Machine/Hif.lean ====
section
/-! DEFINITION. HIF at work (spec/12_descriptor_rings.md): fetching descriptors and frame data, prefetching receive
descriptors, writing frame data, completions and event records, doorbells, enabling and resetting rings; and host stalls
(spec/03_accepted_work.md R119 to R121). -/

namespace Sys2Proof.Machine

/-! ### Rejected accesses (R338, R339) -/

/-- A write of a function to one of its registers is discarded (R12, R339, R609, R624): it is recorded where the function sees it. -/
def State.rejectFor (s : State) (f off why : Nat) : State :=
  if f < 16 then (s.put (R.CFG_REJECT f) true).wr (R.T_CFG_REJECT_ADDR f) off else s.reject off why

/-- A write to a ring's register is discarded (R12, R339, R353) (DESIGN CHOICE, log entry 75). -/
def State.ringReject (s : State) (f : Nat) (r : Fld) (why : Nat) : State := s.rejectFor f (r.off % 0x1000000) why

/-- A function has ring r: tenants no EXQ, the owner no ELR (R351) (DESIGN CHOICE, log entry 75). -/
def hasRing (f r : Nat) : Bool := if f < 16 then decide (r ≤ 9) else r != 8

/-- An access to a ring register that the function does not have (R338, R611). -/
def State.noRing (s : State) (f : Nat) : State := if f = 16 then s.inc R.UNMAPPED_CNT else s

/-! ### Fetching (R23, R116, R340, R360 to R362) -/

/-- Requests of a ring that await their completion, in units of a length (R340, R361). -/
def Ring.reads (u : Nat) (x : Ring) : Nat :=
  (x.descs.map (fun d =>
    match d.st with
    | .fetching _ => 1
    | .reading _ issued got _ => ceilDiv issued u - got / u
    | _ => 0)).sum

/-- Requests of a function that await their completion. -/
def State.fnReads (s : State) (f : Nat) : Nat := ((List.range 4).map (fun r => (s.ring f r).reads s.rdUnit)).sum

/-- Requests of the device that await their completion. -/
def State.allReads (s : State) : Nat := (s.hif.rings.map (fun x => x.2.reads s.rdUnit)).sum

/-- HIF may start one more request for a function (R326, R340). -/
def State.mayRead (s : State) (f : Nat) : Bool :=
  decide (s.allReads < 256) && (f == 16 || decide (s.fnReads f < s.inf (R.QUOTA_FETCH_MAX f)))

/-- Fetches may start for a function (R120, R343, R539, R604). -/
def State.fetchOn (s : State) (f : Nat) : Bool :=
  !s.fnDown f && !s.stalled && s.hifUp && !s.admissionClosed

/-- The interval test of a transmit ring (R62). -/
def State.ringInterval (s : State) (f r : Nat) : Bool :=
  match (s.ring f r).lastPass with
  | none => true
  | some t => decide (s.now ≥ t + s.inf (R.TENV_MIN_INTERVAL f r) * unitsPerNs)

/-- The budget ceiling of host fetches in a tick (R23, R55). -/
def State.fetchCeiling (s : State) : Nat := ceiling16 s.hostCapacity16 (s.inf R.TICK_CFG_PERIOD)

/-- Host fetches that HIF can make in a tick of the period (R54). -/
def State.fetchCapacity (s : State) : Nat := s.hostCapacity16 * 2 ^ s.inf R.TICK_CFG_PERIOD / (16 * 4)

/-- One more transmit fetch lies within the running tick's budget (R23). -/
def State.fetchRoom (s : State) : Bool := decide (s.tick.work.getD 4 0 < s.fetchCeiling + s.tick.ahead)

/-- One more prefetch lies above the ceiling and within the capacity (R368). -/
def State.aheadRoom (s : State) : Bool := decide (s.fetchCeiling + s.tick.ahead < s.fetchCapacity)

/-- A fetch of a ring's next descriptor may begin now (R23, R62, R271, R340, R360). -/
def State.fetchReady (s : State) (f r : Nat) : Bool :=
  s.ringOn f r && s.fetchOn f && !(s.fresh f r).isEmpty && s.ringInterval f r && s.mayRead f
    && !(f == 16 && s.inf (R.PROG_F_EN f r) == 0)

/-- The tick in which the next descriptor of a ring was posted. -/
def State.fetchTick (s : State) (f r : Nat) : Nat := s.bellTick f r ((s.fresh f r).headD 0)

/-- No other ring that is ready comes first: those posted in an earlier tick do, then lower functions, then lower rings (R51, R360) (DESIGN CHOICE, log entry 23). -/
def State.fetchTurn (s : State) (f r : Nat) : Bool :=
  let key (g q : Nat) : Nat := 187 * s.fetchTick g q + 11 * g + q
  (List.range 17).all (fun g => ([0, 1, 2, 3] : List Nat).all (fun q => !s.fetchReady g q || decide (key f r ≤ key g q)))

/-- HOST_DESC_FETCH (R23, R51, R62, R271, R340, R360): HIF reads the next descriptor of the ring whose turn it is (DESIGN CHOICE, log entry 23). -/
def execHostDescFetch (f : Func) (r : TxRing) (s : State) : Host.Outcome State Fault Refusal :=
  if s.fetchReady f r = false ∨ s.fetchRoom = false ∨ s.fetchTurn f r = false then .next s
  else
    let addr := s.entryAddr f r ((s.fresh f r).headD 0)
    let s := (s.takeDesc f r (fun _ => .fetching s.now) (s.entryAddr f r)).modRing f r (fun x => { x with lastPass := some s.now })
    .next (s.emit (.readReq f addr 32))

/-- Dword k of a descriptor. -/
def descDword (d : List Byte) (k : Nat) : Nat := leNat (sliceD d (4 * k) 4)

/-- A transmit descriptor carries a reserved value (R362). -/
def txMalformed (tsEn : Bool) (d : List Byte) : Bool :=
  let w := descDword d
  let len := w 2 % 2 ^ 14
  decide (w 0 % 256 ≠ 0) || decide (len < 60 ∨ len > 9212) || decide (w 2 / 2 ^ 14 % 4 ≠ 0) || decide (w 2 / 2 ^ 18 ≠ 0)
    || decide (w 5 / 256 ≠ 0) || decide (w 7 ≠ 0) || ((w 2).testBit 17 && !tsEn)
    || (!(w 2).testBit 16 && decide (w 4 ≠ 0 ∨ w 5 % 256 ≠ 0))

/-- What a transmit descriptor at a position says (R360). -/
def txDescOf (pos : Nat) (d : List Byte) : TxDesc :=
  let w := descDword d
  ⟨pos, w 0 + 2 ^ 32 * w 1, w 2 % 2 ^ 14, w 3, if (w 2).testBit 16 then some (w 4 + 2 ^ 32 * (w 5 % 256)) else none,
    (w 2).testBit 17, w 6⟩

/-- Cells of the frames that HIF is fetching (R116). -/
def State.hostCells (s : State) : Nat :=
  (s.hif.rings.map (fun x => (x.2.descs.map (fun d =>
    match d.st with
    | .reading y issued _ _ => if issued = 0 then 0 else ceilDiv (y.len + 4) 128
    | _ => 0)).sum)).sum

/-- The next read of frame data of a ring is issued, where R23, R116 and R340 let it: frames of a ring in their order. -/
def State.issueRead (s : State) (f r : Nat) : State :=
  match (s.ring f r).descs.find? (fun d => match d.st with
    | .reading _ _ _ _ => true
    | _ => false) with
  | some ⟨pos, _, .reading d issued got at_⟩ =>
    if s.fetchOn f = false ∨ s.ringOn f r = false ∨ issued ≥ d.len ∨ s.mayRead f = false ∨ s.fetchRoom = false
        ∨ (issued = 0 ∧ s.hostCells + ceilDiv (d.len + 4) 128 > 80) then s
    else
      let n := min s.rdUnit (d.len - issued)
      let s := s.modDesc f r pos (fun x => { x with st := .reading d (issued + n) got (at_ ++ [s.now]) })
      s.emit (.readReq f (d.addr + issued) n)
  | _ => s

/-- The rings that are reading frame data, each with the tick in which the frame's descriptor was posted. -/
def State.readers (s : State) : List (Nat × Nat) :=
  s.hif.rings.filterMap (fun x =>
    if x.1 % 11 < 4 then
      (x.2.descs.find? (fun d => match d.st with
        | .reading _ _ _ _ => true
        | _ => false)).map (fun d => (s.bellTick (x.1 / 11) (x.1 % 11) d.pos, x.1))
    else none)

/-- Put a ring among others by tick, those of one tick in the order in which they come. -/
def putByTick (x : Nat × Nat) : List (Nat × Nat) → List (Nat × Nat)
  | [] => [x]
  | y :: t => if x.1 < y.1 then x :: y :: t else y :: putByTick x t

/-- Every read that may be issued now is: the oldest tick first, then by function and ring (R51, R340, R360). -/
def State.issueReads (s : State) : State :=
  (s.readers.foldl (fun l x => putByTick x l) []).foldl (fun s x =>
    (List.range 72).foldl (fun s _ => s.issueRead (x.2 / 11) (x.2 % 11)) s) s

/-- The oldest descriptor of a ring that is being fetched, and since when (DESIGN CHOICE, log entry 23). -/
def State.oldestFetching (s : State) (f r : Nat) : Option (Nat × Nat) :=
  (s.ring f r).descs.findSome? (fun d => match d.st with
    | .fetching t => some (d.pos, t)
    | _ => none)

/-- TX_DESC_ARRIVAL (R361, R362, R366): the descriptor is checked; its data is read, or it completes MALFORMED (DESIGN CHOICE, log entry 23). -/
def execTxDescArrival (f : Func) (r : TxRing) (desc : List Byte) (s : State) : Host.Outcome State Fault Refusal :=
  match s.oldestFetching f r with
  | none => .next s
  | some (pos, _) =>
    if txMalformed (s.bit (R.RING_CFG_TS_EN f r)) desc then
      .next (s.readyDesc f r pos
        (txCpl stMalformed 0 false none 0 0 0 (descDword desc 6) (s.tick.num + 2) s.now))
    else if s.bit R.FLT_STAT_ECLIPSE then
      .next (s.readyDesc f r pos
        (txCpl stRefused 2 false none 0 0 0 (descDword desc 6) (s.tick.num + 2) s.now))
    else
      .next ((s.modDesc f r pos (fun x => { x with st := .reading (txDescOf pos desc) 0 0 [] })).issueReads)

/-- The descriptor of a ring whose data is being read, with its progress. -/
def State.reading (s : State) (f r : Nat) : Option (Nat × TxDesc × Nat × Nat × List Nat) :=
  (s.ring f r).descs.findSome? (fun d => match d.st with
    | .reading x issued got l => some (d.pos, x, issued, got, l)
    | _ => none)

/-- A fetch ends without its frame (R350, R120): the frame in arrival goes, and the descriptor completes with a status (DEDUCED, log entry 27). -/
def State.endFetch (s : State) (f : Func) (r : TxRing) (pos status cookie : Nat) : State :=
  (s.dropArr (.host f r)).readyDesc f r pos (txCpl status 0 false none 0 0 0 cookie (s.tick.num + 2) s.now)

/-- Add 1 to CPL_ERR_CNT of a function. -/
def State.cplErr (s : State) (f : Nat) : State := if f < 16 then s.inc (R.CPL_ERR_CNT f) else s.inc R.OWNER_CPL_ERR_CNT

/-- The first byte of a host frame is there (R115, R212): it begins as a frame in arrival. -/
def State.hostBegin (s : State) (f : Func) (r : TxRing) (d : TxDesc) : State :=
  let b := s.beginAs
  s.setArr (.host f r) (some
    { src := .ring f r, cls := 0, bytes := [], sfd := s.now, stamp := s.stampNow, begun := b, storing := b != .cannot, cells := []
      noMore := false, bad := false, lostClass := s.bitAt R.ENG_RST_STAT 6 || s.bitAt R.ENG_RST_STAT 10, envFail := false, filter := .pass 0xFFFF true, tpl := none
      refd := false, ctx := none, desc := some d, el := none, elSkip := none })

/-- A read completion that carries no data: what it logs for the function (R350). -/
def State.readFailed (s : State) (f : Nat) (e : ReadEnd) : State :=
  match e with
  | .data => s
  | .unsupported => (s.cplErr f).aerLog f 1
  | .aborted => (s.cplErr f).aerLog f 2
  | .poisoned => (s.cplErr f).aerLog f 3

/-- HOST_READ_COMPLETION (R23, R115, R350, R364): data of the frame that a ring is fetching arrives in order, or a read of a ring, of
data or else of its oldest descriptor in fetch, failed. -/
def execHostReadCompletion (f : Func) (r : TxRing) (bytes : List Byte) (e : ReadEnd) (s : State) :
    Host.Outcome State Fault Refusal :=
  match (s.reading f r).filter (fun x => decide (x.2.2.2.1 < x.2.2.1)), s.oldestFetching f r with
  | none, none => .next s
  | none, some (pos, _) =>
    if e = .data then .next s else .next (((s.readFailed f e).endFetch f r pos stFetchError 0).issueReads)
  | some (pos, d, issued, got, l), _ =>
      match e with
      | .data =>
        let b := bytes.take (issued - got)
        let s := if (s.arr (.host f r)).isNone then s.hostBegin f r d else s
        let s := s.modArr (.host f r) (fun v => { v with bytes := v.bytes ++ b })
        let s := if got = 0 then s.nextCell (.host f r) else s
        let open_ := ceilDiv issued s.rdUnit - (got + b.length) / s.rdUnit
        let s := s.modDesc f r pos (fun x => { x with st := .reading d issued (got + b.length) (l.drop (l.length - open_)) })
        .next s.issueReads
      | _ => .next (((s.readFailed f e).endFetch f r pos stFetchError d.cookie).issueReads)

/-! ### Host stall (R119 to R121, R349) -/

/-- HOST_STALL is set; no reset is the consequence of it (R119, R601). -/
def State.hostStall (s : State) : State :=
  if s.stalled then s
  else
    let s := { s with hif := { s.hif with stallTick := some s.tick.num } }
    ((s.setFlag R.HS_STAT_HOST_STALL 233).inc R.HS_CNT).log 0x20 0

/-- The completion timeout of a function in ns (R326, R349): 10 ms unless its timeout value names a part of range A (codes 1 and 2) or
of range B (codes 5 and 6), within which it is free (PRESUMED, log entry 14). -/
def State.cplTimeout (s : State) (f : Nat) : Nat :=
  let within (lo hi : Nat) : Nat := lo + Config.cplTimeout (s.pci f).cto % (hi - lo + 1)
  match (s.pci f).cto with
  | 1 => within 50000 100000
  | 2 => within 1000000 10000000
  | 5 => within 16000000 55000000
  | 6 => within 65000000 210000000
  | _ => 10000000

/-- A read of a function has timed out: it is counted and logged, and HOST_STALL is set (R119, R349). -/
def State.timedOut (s : State) (f : Nat) : State :=
  ((if f < 16 then s.inc (R.CTO_CNT f) else s.inc R.OWNER_CTO_CNT).aerLog f 0).hostStall

/-- COMPLETION_TIMEOUT (R119, R120, R349): the oldest read of a ring, of data or else of its oldest descriptor, has waited for the
completion timeout; the fetch is abandoned and its descriptor completes FETCH_TIMEOUT. A prefetch is made again later. -/
def execCompletionTimeout (f : Func) (r : AnyRing) (s : State) : Host.Outcome State Fault Refusal :=
  let late (t : Nat) : State := (s.upTo (t + s.cplTimeout f * unitsPerNs)).timedOut f
  if h : r.val < 4 then
    match (s.reading f r).filter (fun x => decide (x.2.2.2.1 < x.2.2.1)), s.oldestFetching f r with
    | some (pos, d, _, _, l), _ => .next ((late (l.headD s.now)).endFetch f ⟨r.val, h⟩ pos stFetchTimeout d.cookie)
    | none, some (pos, t) => .next ((late t).endFetch f ⟨r.val, h⟩ pos stFetchTimeout 0)
    | none, none => .next s
  else if s.ringOn f r ∧ r.val ≠ 8 ∧ r.val ≠ 9 ∧ (s.fresh f r).isEmpty = false then .next (late s.now)
  else .next s

/-- HOST_STALL_DETECT (R119, R121): a posted write has waited HS_DETECT core cycles for credits. -/
def execHostStallDetect (s : State) : Host.Outcome State Fault Refusal :=
  .next { s with hif := { s.hif with stallLast := some s.tick.num } }.hostStall

/-- No posted write has waited too long in the 16 latest complete ticks (R121) (DEDUCED, log entry 27). -/
def State.stallOver (s : State) : Bool :=
  match s.hif.stallLast with
  | some k => decide (k + 17 ≤ s.tick.num)
  | none => decide (16 ≤ s.tick.num)

/-- HOST_STALL_CLEAR (R121): for 16 consecutive ticks no posted write has waited too long. -/
def execHostStallClear (s : State) : Host.Outcome State Fault Refusal :=
  if s.stalled ∧ s.stallOver then
    let s := { s with hif := { s.hif with stallTick := none } }
    .next (((s.put R.HS_STAT_HOST_STALL false).log 0x21 0).issueReads)
  else .next s

/-- HOST_STALL_ESCALATE (R121): the flag has stayed set for HS_ESC_TICKS ticks. -/
def execHostStallEscalate (s : State) : Host.Outcome State Fault Refusal :=
  match s.hif.stallTick with
  | some t =>
    if s.tick.num ≥ t + s.rd R.HS_ESC_TICKS then
      let s := { s with hif := { s.hif with stallTick := none } }
      .next ((s.put R.HS_STAT_HS_ESC true).log 0x22 0)
    else .next s
  | none => .next s

/-! ### Receive descriptors (R368, R369) -/

/-- A receive descriptor carries a reserved value: the first three conditions of R362 as far as they apply (R369). -/
def rxMalformed (d : List Byte) : Bool :=
  decide (descDword d 0 % 256 ≠ 0) || ([2, 3, 4, 5, 6].any (fun k => descDword d k != 0)) || decide (descDword d 7 % doneBit ≠ 0)

/-- RX_DESC_PREFETCH (R368, R369): the descriptor at HEAD enters the cache, checked. -/
def execRxDescPrefetch (f : Func) (r : AnyRing) (desc : List Byte) (s : State) : Host.Outcome State Fault Refusal :=
  let kept := ((s.ring f r).descs.filter (fun d => match d.st with
    | .held | .reserved _ _ => true
    | _ => false)).length
  if hasRing f r = false ∨ r.val < 4 ∨ r.val = 8 ∨ r.val = 9 ∨ s.ringOn f r = false ∨ s.fnDown f ∨ s.stalled ∨ s.hifUp = false
      ∨ s.dmaOff ∨ (s.fresh f r).isEmpty ∨ kept ≥ 128 ∨ s.mayRead f = false ∨ s.aheadRoom = false then .next s
  else
    let st := if rxMalformed desc then DescState.ready (bareCpl stMalformed (s.tick.num + 2) s.now) else .held
    let addr := descDword desc 0 + 2 ^ 32 * descDword desc 1
    let s := s.emit (.readReq f (s.entryAddr f r ((s.fresh f r).headD 0)) 32)
    let s : State := { s with tick := { s.tick with ahead := s.tick.ahead + 1 } }
    .next (s.takeDesc f r (fun _ => st) (fun _ => addr))

/-! ### Writing to the host (R21, R96, R97, R371, R377, R380) -/

/-- HIF may write for a function (R109, R343, R347, R606). -/
def State.mayWrite (s : State) (f : Nat) : Bool := !s.fnDown f && s.hifUp && !s.dmaOff

/-- The reserved descriptor against which an exit's data can be written now, with its ring. -/
def State.dataDesc (s : State) (h i : Nat) (x : ExitRec) : Option (Nat × Nat × Desc × Entry) :=
  match exitRing x.exit.dest x.exit.sub, mget s.led.entries x.entry with
  | some (g, r), some e =>
    if x.disp.isSome ∨ e.stage ≠ 4 ∨ s.mayWrite g = false then none
    else ((s.ring g r).descs.find? (fun d => d.pos == x.desc && d.st == .reserved h i)).map (fun d => (g, r, d, e))
  | _, _ => none

/-- No frame whose data came to HIF in an earlier tick still waits for a data write that can be made now (R51, R117). -/
def State.dataTurn (s : State) (f : Frame) : Bool :=
  s.frames.all (fun y => decide (f.resTick ≤ y.2.resTick)
    || y.2.exits.zipIdx.all (fun e => (s.dataDesc y.1 e.2 e.1).isNone))

/-- HOST_DATA_WRITE (R21, R51, R96, R371): the data of a reserved exit is written and its completion becomes ready; bytes that fail
their proof give DATA_FAULT (R204). -/
def execHostDataWrite (handle : Nat) (i : Fin 8) (s : State) : Host.Outcome State Fault Refusal :=
  match mget s.frames handle with
  | none => .next s
  | some fr =>
    match fr.exits[i.val]? with
    | none => .next s
    | some x =>
      match s.dataDesc handle i x with
      | none => .next s
      | some (g, r, d, e) =>
        if s.dataTurn fr = false then .next s
        else
          match s.provenBytes fr with
          | none => .next (s.foldFault handle i.val fr)
          | some orig =>
            let b := (s.exitBytes fr x.exit orig).1
            let trap := if x.exit.dest = 24 ∧ x.exit.sub = 7 then fr.trapInfo else none
            let c := rxCpl fr x.exit stOk 0 b.length e.elv trap (fr.accTick + 2) s.now (some (handle, i.val))
            let tlps := (s.cutWrites d.addr b).map (fun w => ((s.pci g).ro, w.1, w.2))
            let s := (s.writeBytes g d.addr (s.pci g).ro b).readyDesc g r x.desc { c with frame := some handle }
            .next { s with hif := { s.hif with posted := s.hif.posted ++ [⟨g, [(handle, i.val, false)], tlps⟩] } }

/-- No ring with a batch that is due now holds completions that came to HIF in an earlier tick (R51, R117). -/
def State.batchTurn (s : State) (l : List (Desc × Cpl)) : Bool :=
  s.hif.rings.all (fun x =>
    let m := s.batch (x.1 / 11) (x.1 % 11)
    !s.mayWrite (x.1 / 11) || !s.batchDue m || m.all (fun p => l.any (fun q => decide (q.2.since ≤ p.2.since))))

/-- COMPLETION_WRITE (R51, R366, R379, R380, R390): a batch of ready completions is written once one of the conditions of R380 holds (DEDUCED, log entry 24). -/
def execCompletionWrite (f : Func) (r : AnyRing) (s : State) : Host.Outcome State Fault Refusal :=
  let l := s.batch f r
  if s.mayWrite f ∧ s.batchDue l ∧ s.batchTurn l then .next (s.writeBatch f r l) else .next s

/-- What the acknowledgement of a posted write ends for an exit: its data (WRITING to COMPLETING), or its completion
(DELIVERED), R96 and R97. -/
def State.ackExit (s : State) (e : Nat × Nat × Bool) : State :=
  match mget s.frames e.1 with
  | none => s
  | some f =>
    match f.exits[e.2.1]? with
    | none => s
    | some x =>
      if x.disp.isSome then s
      else if e.2.2 then s.dispose e.1 e.2.1 1
      else s.modEntry x.entry (fun y => { y with stage := 5 })

/-- WRITE_ACKNOWLEDGED (R96, R97, R109): the link partner acknowledges the oldest posted write of data or completions; while HIF
resets it is to be written again. -/
def execWriteAcknowledged (s : State) : Host.Outcome State Fault Refusal :=
  match s.hif.posted with
  | [] => .next s
  | w :: t =>
    if s.hifUp = false then .next s
    else
      let s := { s with hif := { s.hif with posted := t } }
      .next (w.ends.foldl State.ackExit s)

/-- The dwords of an event record without PHASE (R376). -/
def EvRec.words (e : EvRec) : List Nat :=
  let b (c : Bool) (i : Nat) : Nat := if c then 2 ^ i else 0
  [e.kind + 2 ^ 8 * e.code + b e.late 12 + b e.tsV 13 + 2 ^ 14 * e.fn, e.flow, e.seq,
    e.dest + 2 ^ 5 * e.sub + 2 ^ 16 * min e.count 0xFFFF, e.ts40 % 2 ^ 32, e.ts40 / 2 ^ 32, e.tsec % 2 ^ 32,
    e.tsec / 2 ^ 32]

/-- A LOST_EVENTS record for a ring's function, before a record e (R377) (DEDUCED, log entry 27). -/
def lostRec (f n : Nat) (e : EvRec) : EvRec := ⟨4, 0, false, false, f, 0, 0, 0, 0, n, 0, 0, none, e.due, e.readyAt⟩

/-- The completion that a record must follow is still to be written (R379). -/
def State.cplPending (s : State) (f : Nat) (a : Option (Nat × Nat × Nat)) : Bool :=
  match a with
  | some (r, pos, h) => (s.ring f r).descs.any (fun d => d.pos == pos && (d.st == .accepted h || (match d.st with
      | .ready c => c.frame == some h
      | _ => false)))
  | none => false

/-- The records that HIF would write now on the event ring of a function, in one write: in order, as far as their completions are
written, the ring's end and free entries and the unit of R327 allow, a LOST_EVENTS record first where one is due (R377, R379, R380). -/
def State.evBatch (s : State) (f : Nat) : List EvRec :=
  let l := (mgetD s.events f []).takeWhile (fun e => !s.cplPending f e.after)
  let lost := (s.ring f 9).skipped
  let size := s.ringSize f 9
  match l with
  | [] => []
  | e :: _ =>
    (if lost = 0 then l else lostRec f lost e :: l).take
      (min (s.wrUnit / 32) (min (size - s.rd (R.HEAD f 9) % size) (s.recFree f 9)))

/-- HIF may write event records for a function (R109, R347, R606). -/
def State.mayRecord (s : State) (f : Nat) : Bool := !s.bitAt R.HIF_QUIESCED f && s.hifUp && !s.dmaOff

/-- Records are written on the event ring of a function, and its source is raised for each (DEDUCED, log entry 27). -/
def State.writeEvents (s : State) (f : Nat) (l : List EvRec) : State :=
  let n := (l.filter (fun e => e.kind != 4)).length
  let rest := (mgetD s.events f []).drop n
  let s := { s with events := if rest.isEmpty then mdel s.events f else mput s.events f rest }
  let s := if l.any (fun e => e.kind == 4) then s.modRing f 9 (fun x => { x with skipped := 0 }) else s
  let pos := s.rd (R.HEAD f 9)
  let s := (s.writeRecord f 9 pos (l.map EvRec.words)).wr (R.HEAD f 9) (pos + l.length)
  l.foldl (fun s e => (s.inc (R.RING_CNT0 f 9)).ringIrq f 9 e.due) s

/-- The oldest event of a function is skipped: its ring is full, disabled or resetting (R100, R377). -/
def State.skipEvent (s : State) (f : Nat) : State :=
  let rest := (mgetD s.events f []).drop 1
  let s := { s with events := if rest.isEmpty then mdel s.events f else mput s.events f rest }
  (s.inc (R.RING_CNT1 f 9)).modRing f 9 (fun x => { x with skipped := x.skipped + 1 })

/-- A batch of records is written where `due` says that its time has come; LOST_EVENTS waits for an entry of its own (R377, R380). -/
def State.recordsGo (s : State) (f : Nat) (due : Bool) : State :=
  match (mgetD s.events f []).head? with
  | none => s
  | some e =>
    if s.mayRecord f = false ∨ s.cplPending f e.after then s
    else if s.ringOn f 9 = false ∨ s.recFree f 9 = 0 then s.skipEvent f
    else if due = false ∨ ((s.ring f 9).skipped ≠ 0 ∧ s.recFree f 9 = 1) then s
    else s.writeEvents f (s.evBatch f)

/-- EVENT_RECORD_WRITE (R100, R377 to R380): the records of a function are written once one of the conditions of R380 holds; the oldest
is skipped where the ring is full, disabled or resetting. -/
def execEventRecordWrite (f : Func) (s : State) : Host.Outcome State Fault Refusal :=
  .next (s.recordsGo f (s.wbDue ((s.evBatch f).map (fun e => (e.readyAt, e.due)))))

/-- WB_COALESCE_EXPIRE (R380, R390): the oldest entry of a batch, of completions or of the records of an event ring, has been ready for
WB_COALESCE ns. -/
def execWbCoalesceExpire (f : Func) (r : AnyRing) (s : State) : Host.Outcome State Fault Refusal :=
  let wait (t : Nat) : State := s.upTo (t + s.rd R.WB_COALESCE * unitsPerNs)
  if r.val = 9 then
    match s.evBatch f with
    | [] => .next s
    | e :: _ => if s.mayRecord f then .next ((wait e.readyAt).recordsGo f true) else .next s
  else
    match s.batch f r with
    | [] => .next s
    | (d, c) :: t => if s.mayWrite f then .next ((wait c.readyAt).writeBatch f r ((d, c) :: t)) else .next s

/-! ### Doorbells, enabling and resetting (R353 to R357) -/

/-- A completion reports work that was accepted or reserved, or an abort: a reset of its ring or of HIF lets it stand. -/
def Cpl.stands (c : Cpl) : Bool := ([stOk, stAccepted, stReturned, stAborted] : List Nat).contains (c.words.headD 0 % 256)

/-- The part of a reset that begins on a descriptor ring (R354): descriptors that hold no accepted or reserved work, fetched or
not, complete with ABORTED_BY_RESET in their places (DEDUCED, log entry 56). -/
def State.abortPosted (s : State) (f r : Nat) : State :=
  let due := s.tick.num + 2
  let cpl (cookie : Nat) : Cpl :=
    if r < 4 then txCpl stAborted 0 false none 0 0 0 cookie due s.now else bareCpl stAborted due s.now
  let new := s.fresh f r
  let s := s.modRing f r (fun x => { x with
    descs := x.descs.map (fun d => match d.st with
      | .fetching _ | .held => { d with st := .ready (cpl 0) }
      | .reading t _ _ _ => { d with st := .ready (cpl t.cookie) }
      | .ready c => if c.stands then d else { d with st := .ready (cpl (c.words.getD 6 0)) }
      | _ => d) })
  let s := new.foldl (fun s p => s.addDesc f r ⟨p, s.entryAddr f r p, .ready (cpl 0)⟩) s
  s.wr (R.HEAD f r) (s.rd (R.DOORBELL f r))

/-- A ring reset begins (R354). -/
def State.ringReset (s : State) (f : Func) (r : Nat) : State :=
  let s := (s.put (R.RING_STAT_RESETTING f r) true).put (R.RING_STAT_ACTIVE f r) false
  if h : r < 4 then (s.dropArr (.host f ⟨r, h⟩)).abortPosted f r
  else if r = 8 then s.elClose f
  else if r = 9 then
    let n := (mgetD s.events f.val []).length
    { s.add (R.RING_CNT1 f 9) n with events := mdel s.events f.val }
  else s.abortPosted f r

/-- A write of 1 to RING_CTRL.RESET (R354, R355). -/
def State.ringCtrl (s : State) (f : Func) (r : Nat) : State :=
  if s.bit (R.RING_CFG_EN f r) = false then s
  else if s.bit (R.RING_STAT_RESETTING f r) then s.put (R.RING_STAT_GO_IGNORED f r) true
  else s.ringReset f r

/-- An access to a ring's register, where the function and the ring are there (R332, R338, R611). -/
def State.ringAccess (s : State) (f r : Nat) (t : State) : State :=
  s.barRequest f (if hasRing f r then t else s.noRing f) s

/-- RING_RESET_END (R354): CPL has reached DOORBELL. -/
def execRingResetEnd (f : Func) (r : AnyRing) (s : State) : Host.Outcome State Fault Refusal :=
  if s.bit (R.RING_STAT_RESETTING f r) = false ∨ (s.ring f r).descs.isEmpty = false then .next s
  else
    let s := (s.put (R.RING_CFG_EN f r) false).put (R.RING_STAT_RESETTING f r) false
    let s := ((s.wr (R.HEAD f r) 0).wr (R.CPL f r) 0).wr (R.DOORBELL f r) 0
    let s := s.modRing f r (fun x => { x with bells := [] })
    if r.val = 9 ∨ s.bit (R.RING_CFG_EN f 9) = false then .next s
    else .next (s.event f ⟨5, 0, false, false, f, 0, 0, r, 0, 0, 0, 0, none, 0, 0⟩)

/-- A write of a doorbell (R353, R356, R357) (DEDUCED, log entry 28). -/
def State.doorbell (s : State) (f : Func) (r n : Nat) : State :=
  let d := s.rd (R.DOORBELL f r)
  let fwd (a b : Nat) : Nat := (a + 2 ^ 16 - b) % 2 ^ 16
  let record := decide (r = 8 ∨ r = 9)
  let base := if record then d else s.rd (R.CPL f r)
  let ok := if record then decide (fwd n d ≤ fwd (s.rd (R.HEAD f r)) d)
    else decide (fwd (s.rd (R.HEAD f r)) base ≤ fwd n base ∧ fwd n base ≤ s.ringSize f r)
  if s.bit (R.RING_CFG_EN f r) = false then s
  else if ok = false then s.ringReject f (R.DOORBELL f r) 1
  else
    let s := if record ∨ n = d then s else s.ringBell f r n
    let s := s.wr (R.DOORBELL f r) n
    if s.bit (R.RING_STAT_RESETTING f r) ∧ record = false then s.abortPosted f r else s

/-- A RING_CFG value holds a reserved encoding (R352, R368 and the register table): EN, LOG2_SIZE, TS_EN, BUF_SIZE. -/
def ringCfgBad (r en log2 ts buf : Nat) : Bool :=
  let rx := decide ((4 ≤ r ∧ r ≤ 7) ∨ r = 10)
  decide (log2 < 6 ∨ log2 > 14) || (ts == 1 && decide (r ≥ 4)) || (!rx && buf != 0)
    || (rx && buf != 0 && (decide (buf % 64 ≠ 0) || decide (buf > 9216)))
    || (rx && en == 1 && (buf == 0 || (r == 10 && buf != 9216)))

/-- A tenant's quotas permit an enabled ring of a size (R340). -/
def State.quotaOk (s : State) (f r log2 : Nat) : Bool :=
  f == 16 || (decide (log2 ≤ s.inf (R.QUOTA_RING_LOG2_MAX f))
    && (if r < 4 then decide (r < s.inf (R.QUOTA_TX_RINGS f))
        else if r < 8 then decide (r - 4 < s.inf (R.QUOTA_RX_RINGS f)) else true))

/-- A write of RING_CFG (R340, R353, R354, R368). -/
def State.ringCfg (s : State) (f : Func) (r n : Nat) : State :=
  let en := n % 2
  let log2 := n / 2 ^ 4 % 16
  let ts := n / 2 ^ 8 % 2
  let buf := n / 2 ^ 16 % 2 ^ 14
  let was := s.bit (R.RING_CFG_EN f r)
  let same := decide (log2 = s.rd (R.RING_CFG_LOG2_SIZE f r) ∧ ts = s.rd (R.RING_CFG_TS_EN f r)
    ∧ buf = s.rd (R.RING_CFG_BUF_SIZE f r))
  if was ∧ same = false then s.ringReject f (R.RING_CFG_EN f r) 3
  else if ringCfgBad r en log2 ts buf then s.ringReject f (R.RING_CFG_EN f r) 1
  else if was then
    if en = 0 ∧ s.bit (R.RING_STAT_RESETTING f r) = false then s.ringReset f r else s
  else if en = 1 ∧ s.quotaOk f r log2 = false then s.put (R.TEN_STAT_QUOTA_HIT f) true
  else
    let s := ((s.wr (R.RING_CFG_LOG2_SIZE f r) log2).wr (R.RING_CFG_TS_EN f r) ts).wr (R.RING_CFG_BUF_SIZE f r) buf
    if en = 0 then s
    else ((((s.put (R.RING_CFG_EN f r) true).wr (R.HEAD f r) 0).wr (R.CPL f r) 0).wr (R.DOORBELL f r) 0).ringActive f r

end Sys2Proof.Machine
end

