-- ==== Sys2Proof/Machine/Outcome.lean ====
section
/-! DEFINITION. Resolution (spec/03_accepted_work.md R101, R102; spec/08_henabin_action_code.md R263, R267): the order in which
frames are resolved, what an outcome records, and the hand-over of every exit. -/

namespace Sys2Proof.Machine

/-! ### What a resolution records (R102, R220, R228, R230, R234, R317) -/

/-- One recovery is recorded (R317, R319, R320) (DEDUCED, log entries 8, 60). -/
def State.recordRec (s : State) (c : Ctx) (f : Nat) : State :=
  if s.infAt c.epoch (R.REC_CFG_EN f) = 0 then s.inc R.REC_OFF_CNT
  else
    match s.recStep c.epoch f c.rSeq (s.recSt f) with
    | none => s.inc (R.REC_TAGLESS f)
    | some o =>
      let s := ((s.wr (R.REC_STAT_RECOV_SEQ f) o.st.seq).wr (R.REC_HISTORY f) o.st.hist).put (R.REC_STAT_TAKE_ANY f) o.st.any
      let s := if o.discard then s else { s with mas := { s.mas with recTimer := mput s.mas.recTimer f s.tick.num } }
      let lat := s.infAt c.epoch (R.REC_CFG_LAT_EN f) == 1
      let cnt (s : State) (p d : Nat) : State :=
        if lat then
          let (a, b) := mgetD s.mas.latCounts f (0, 0)
          { s with mas := { s.mas with latCounts := mput s.mas.latCounts f (a + p, b + d) } }
        else s
      match o.row with
      | 2 => s.inc (R.REC_ROGUE f)
      | 3 => cnt (s.inc (R.REC_DISCARDED f)) 0 1
      | 4 => cnt ((s.inc (R.REC_PASSED f)).inc (R.REC_OOO f)) 1 0
      | 5 => cnt ((s.inc (R.REC_PASSED f)).add (R.REC_LOST f) o.lost) 1 0
      | _ => cnt (s.inc (R.REC_PASSED f)) 1 0

/-- Counters, policers, recovery functions, hit bits and the sketch are updated, all at once (R102) (DEDUCED, log entry 8). -/
def State.recordEffects (s : State) (c : Ctx) : State :=
  let s := c.pols.foldl (fun s a =>
    s.setPolLvl a.1 (polTake (polRefill (s.polAt c.epoch a.1) (s.polLvl a.1) a.2.1) c.len a.2.2.2)) s
  let s := c.cnts.foldl (fun s k => s.count k c.len) s
  let s := c.recs.foldl (fun s f => s.recordRec c f.1) s
  let s := s.setHits c.hits
  match c.tele with
  | some x => s.sketchAdd x c.len
  | none => s

/-! ### Handing an exit on (R96, R144, R225, R370) -/

/-- An exit that keeps its frame goes from RESOLVING to its port, its ring or MGC; a frame that its edit has made too long is
dropped (R96, R144, R370). -/
def State.handExit (s : State) (h i : Nat) (f : Frame) (x : ExitRec) (orig : List Byte) : State :=
  let b := (s.exitBytes f x.exit orig).1
  if x.exit.dest < 6 then
    if max (b.length + 4) 64 > s.infAt f.epoch (R.MAXLEN x.exit.dest) then
      (s.inc (R.TX_OVERSIZE x.exit.dest)).dispose h i 2
    else (s.syncPort x.exit.dest).modEntry x.entry (fun e => { e with stage := 2 })
  else
    match exitRing x.exit.dest x.exit.sub with
    | some (g, r) =>
      if b.length > s.rd (R.RING_CFG_BUF_SIZE g r) then (s.inc (R.RING_CNT3 g r)).dispose h i 2
      else s.modEntry x.entry (fun e => { e with stage := 4 })
    | none => s.modEntry x.entry (fun e => { e with stage := 4 })

/-- The exception copy (R101, R374): the frame as it was accepted, to the owner's exception queue if a descriptor is posted (DEDUCED, log entry 32). -/
def State.exceptionCopy (s : State) (f : Frame) (orig : List Byte) (info : Nat) : State :=
  let b := orig.take (orig.length - 4)
  match s.rxTake 16 10 b.length [], (s.ring 16 10).descs with
  | some pos, l =>
    let addr := ((l.find? (fun d => d.pos == pos)).map (·.addr)).getD 0
    let c := rxCpl f trapExit stOk 0 b.length false (some info) (f.accTick + 2) s.now none
    (s.writeBytes 16 addr (s.pci 16).ro b).readyDesc 16 10 pos c
  | none, _ => s.inc R.EXC_SKIP

/-- Resolution of frame h records its outcome (R102, R225, R256, R258, R267, R439). An exception copy whose bytes fail their proof is not
made, and the exits that it was for take DATA_FAULT (R204). -/
def State.outcome (s : State) (h : Nat) (c : Ctx) : State :=
  match mget s.frames h with
  | none => s
  | some f =>
    let orig := s.frameBytes f
    let bad := (s.provenBytes f).isNone
    let late := f.exits.any (fun x => ((mget s.led.entries x.entry).map (·.late)).getD false)
    let trap := match c.fin with
      | .trapped info => some info
      | _ => none
    let patch := if trap.isSome then none else c.patch.map (fun p => (p.1, c.p.take p.2))
    let f := { f with
      exits := f.exits.zipIdx.map (fun e => { e.1 with exit := c.exits.getD e.2 e.1.exit })
      patch := patch, resolved := true, resTick := s.tick.num, tele := c.tele }
    let s := (s.recordEffects c).wr R.CARRY_FREE (s.rd R.CARRY_FREE + 1)
    let s := { s with frames := mput s.frames h f }
    let code (i : Nat) : Option Nat :=
      if c.fin = .faulted then some 8 else if trap.isSome then some 5 else c.disps.getD i none
    let live (i : Nat) : Bool := ((f.exits[i]?).map (fun x => x.disp.isNone)).getD false
    let exc := (List.range f.exits.length).any (fun i => live i && code i == some 5)
    let s := (List.range f.exits.length).foldl (fun s i =>
      if live i then
        match code i, f.exits[i]? with
        | some d, _ => s.dispose h i (if d = 5 ∧ bad then 8 else d)
        | none, some x => s.handExit h i f x orig
        | none, none => s
      else s) s
    let s := if exc = false then s
      else if bad then s.foldBad f
      else s.exceptionCopy f orig (trap.getD (2 ^ 22 + 2 ^ 23 * (c.lane % 4)))
    match mget s.frames h with
    | none => s.acceptedCpl h { f with exits := f.exits.map (fun x => { x with disp := some 0 }) } late
    | some g =>
      let s := s.acceptedCpl h g late
      if g.exits.all (fun x => x.disp.isSome) then { s with frames := mdel s.frames h } else s

/-- The resolution of a frame ends because its data cannot be read (R439): every exit takes DATA_FAULT. -/
def State.faultResolution (s : State) (h : Nat) : State :=
  match s.mas.lanes.findSome? (fun l => (l.res.toList ++ l.parked).find? (fun x => x.1 == h)) with
  | none => s
  | some (_, c) =>
    let s := if c.jobs.any (fun j => j.unit.isNone && !j.done) then s.inc R.DGE_DATA_ERR else s
    let s : State := { s with mas := { s.mas with lanes := s.mas.lanes.map (fun l =>
      { l with res := l.res.filter (fun x => x.1 != h), parked := l.parked.filter (fun x => x.1 != h) }) } }
    s.outcome h { c with fin := .faulted, jobs := [] }

/-! ### Lanes, parking and the order of resolution (R51, R207, R263) -/

/-- The context of a lane has come to the end of its phase, or waits: the outcome is recorded, or the resolution is parked in
one of the lane's 8 park slots (R102, R263). A resolution that outcomes recorded meanwhile have put out of order leaves no trace and runs
again from the start (R102, R229, R319) (DEDUCED, log entry 8). -/
def State.settle (s : State) (l : Nat) : State :=
  let on : Bool := match (s.lane l).res with
    | none => true
    | some x => x.2.fin == .running
  let s := if on then s else s.unitsSync
  match (s.lane l).res with
  | none => s
  | some (h, c) =>
    match c.fin with
    | .running => s
    | .waiting =>
      if (s.lane l).parked.length < 8 then s.modLane l (fun x => { x with res := none, parked := x.parked ++ [(h, c)] })
      else s.inc R.PARK_FULL
    | _ =>
      let t := s.modLane l (fun x => { x with res := none })
      if s.inOrder c then t.outcome h c else t

/-- A frame is bound for a time-scheduled queue (R51, R298) (DEDUCED, log entry 31). -/
def State.tsBound (s : State) (f : Frame) : Bool :=
  f.exits.any (fun x => decide (x.exit.dest < 6) && s.infAt f.epoch (R.Q_CFG_TS x.exit.dest x.exit.sub) == 1)

/-- The place of a frame in the order of R51: by tick of acceptance, time-scheduled work of a tick first (DEDUCED, log entry 31). -/
def State.resKey (s : State) (f : Frame) : Nat := 2 * f.accTick + (if s.tsBound f then 0 else 1)

/-- The frames that wait for their resolution to begin (DEDUCED, log entry 43). -/
def State.unresolved (s : State) : List (Nat × Frame) := s.frames.filter (fun x => !x.2.resolved && !s.inLane x.1)

/-- A parked resolution of a lane is ready and comes before a place in the order of R51 (R263). -/
def State.parkedFirst (s : State) (l key : Nat) : Bool :=
  (s.lane l).parked.any (fun y => y.2.jobsReady && decide (((mget s.frames y.1).map s.resKey).getD 0 < key))

/-- The lowest-numbered lane in service whose resolution context is free for a place in the order of R51: no parked resolution of the
lane that is ready comes before it (R207, R263) (DEDUCED, log entry 65). -/
def State.freeLane (s : State) (key : Nat) : Option Nat :=
  ([0, 1, 2, 3] : List Nat).find? (fun l => s.laneUp l && (s.lane l).res.isNone && !s.parkedFirst l key)

/-- MAS runs resolutions: it is not in reset, and the device is not in the quiesced Eclipse state (R109, R606). -/
def State.masRuns (s : State) : Bool := !s.bitAt R.ENG_RST_STAT 6 && !s.dmaOff

/-- RESOLUTION (R17, R51, R102, R207): the next frame in order takes a lane and runs at most `steps` instructions, unless a
classification context of the lane is ready (DEDUCED, DESIGN CHOICE, log entries 7, 31). -/
def execResolution (handle steps : Nat) (s : State) : Host.Outcome State Fault Refusal :=
  match mget s.frames handle with
  | none => .next s
  | some f =>
    match s.freeLane (s.resKey f) with
    | none => .next s
    | some l =>
      if f.resolved ∨ s.inLane handle ∨ s.masRuns = false ∨ (s.readyCls l).isEmpty = false
          ∨ s.unresolved.any (fun x => decide (s.resKey x.2 < s.resKey f)) then .next s
      else
        let bytes := s.frameBytes f
        let (s, c) := runCtx bytes steps s (s.resCtx f bytes l)
        .next ((s.modLane l (fun x => { x with res := some (handle, c) })).settle l)

/-- A waiting resolution goes on: its WAIT completes, and at most `steps` further instructions run (R263, R264). -/
def State.resume (s : State) (l h steps : Nat) (c : Ctx) : State :=
  let bytes := ((mget s.frames h).map s.frameBytes).getD []
  let (s, c) := opWait s { c with fin := .running } (insOf 0)
  let (s, c) := runCtx bytes steps s c
  (s.modLane l (fun x => { x with res := some (h, c) })).settle l

/-- RESOLUTION_RESUME (R51, R263): a resolution whose jobs are done resumes on its lane, from its park slot when the context is
free, or in its context where every slot was occupied; classification contexts of the lane come first (R207). -/
def execResolutionResume (lane : Lane) (handle steps : Nat) (s : State) : Host.Outcome State Fault Refusal :=
  let s := s.unitsSync
  let x := s.lane lane
  if (s.readyCls lane).isEmpty = false then .next s else
  match x.res with
  | some (h, c) =>
    if h = handle ∧ c.fin = .waiting ∧ c.jobsReady ∧ s.masRuns then .next (s.resume lane h steps c) else .next s
  | none =>
    match x.parked.find? (fun y => y.1 == handle) with
    | none => .next s
    | some (h, c) =>
      let key (g : Nat) : Nat := ((mget s.frames g).map s.resKey).getD 0
      if c.jobsReady = false ∨ s.masRuns = false
          ∨ x.parked.any (fun y => y.2.jobsReady && decide (key y.1 < key h)) then .next s
      else .next ((s.modLane lane (fun y => { y with parked := y.parked.filter (fun z => z.1 != h) })).resume lane h steps c)

end Sys2Proof.Machine
end

