-- ==== Sys2Proof/Machine/Admission.lean ====
section
/-! DEFINITION. From the first byte of a frame to its acceptance or refusal (spec/01_device_at_a_glance.md R14 to R16;
spec/02_tick_and_budget.md R58 to R63; spec/03_accepted_work.md R85 to R89, R103, R115; spec/04_port_macs.md R134 to R140;
spec/10_redundant_streams.md R313). -/

namespace Sys2Proof.Machine

/-! ### Envelopes (R58 to R62) -/

/-- The content of a bucket now (R58): a rate in Mb/s adds itself in one unit of State.now (DESIGN CHOICE, log entry 12). -/
def Bucket.now (b : Bucket) (rate burst t : Nat) : Nat := min (burst * 512000) (b.level + (t - b.at_) * rate)

/-- The rate test of a frame of L bytes: the bucket after it, where the frame fits (R60). -/
def Bucket.test (b : Bucket) (rate burst t len : Nat) : Option Bucket :=
  let n := b.now rate burst t
  if rate ≠ 0 ∧ n ≥ len * 512000 then some ⟨n - len * 512000, t⟩ else none

/-- The rate test of a received frame (R60): its class bucket, or none where it is over envelope. -/
def State.portRate (s : State) (p c len : Nat) : Option State :=
  ((((s.port p).buckets.getD c ⟨0, 0⟩).test (s.inf (R.ENV_RATE p c)) (s.inf (R.ENV_BURST p c)) s.now len)).map
    (fun b => s.modPort p (fun q => { q with buckets := lmod q.buckets c (fun _ => b) }))

/-- The rate test of a host frame (R62). -/
def State.ringRate (s : State) (f r len : Nat) : Option State :=
  (((s.ring f r).bucket.test (s.inf (R.TENV_RATE f r)) (s.inf (R.TENV_BURST f r)) s.now len)).map
    (fun b => s.modRing f r (fun x => { x with bucket := b }))

/-! ### The beginning of a frame (R59, R115, R147, R212) -/

/-- The MAC of a port receives: the port is UP, or in DEBOUNCE with its receive side in lock and in synchronisation (R130, R137). -/
def State.receives (s : State) (p : Nat) : Bool :=
  isUp s p || (s.rd (R.PORT_STAT_STATE p) == 5 && !(s.port p).causes.any (fun c => c == .lock || c == .sync))

/-- The SFD of a frame crosses a port (R35, R59, R115, R147) (DESIGN CHOICE, log entry 6). -/
def State.beginRx (s : State) (p : Port) (express : Bool) (bytes : List Byte) : State :=
  let a : Arr := .rx p express
  if s.receives p = false ∨ (s.arr a).isSome ∨ s.rd R.PM_STAT_STATE ≥ 2 then s
  else
    let late := match (s.port p).lastPass with
      | none => false
      | some t => decide (s.now < t + s.inf (R.ENV_MIN_INTERVAL p) * unitsPerNs)
    let s := if late then s else s.modPort p (fun q => { q with lastPass := some s.now })
    let b := if s.admissionClosed then Begun.cannot else s.beginAs
    let lost := s.bitAt R.ENG_RST_STAT p || s.bitAt R.ENG_RST_STAT 6 || s.bitAt R.ENG_RST_STAT 10
    let v : Arrival :=
      { src := .port p, cls := s.classOf (.port p) bytes, bytes := bytes, sfd := s.now, stamp := s.stampAt (s.rxStamp p)
        begun := b, storing := b != .cannot, cells := [], noMore := false, bad := false, lostClass := lost
        envFail := late, filter := .undecided, tpl := none, refd := false, ctx := none, desc := none, el := none
        elSkip := none }
    (s.setArr a (some v)).nextCell a

/-- The address of a filter slot as it stands in a frame (R138). -/
def State.slotAddr (s : State) (p i : Nat) : List Byte :=
  leBytes 4 (s.inf (R.SLOT_ADDR_LO p i)) ++ leBytes 2 (s.inf (R.SLOT_ADDR_HI p i))

/-- The outcome of the address filter for a destination address (R138, R140). -/
def State.filterOf (s : State) (p : Nat) (da : List Byte) : Filter :=
  let hits := (List.range 32).filter (fun i => s.inf (R.SLOT_ADDR_HI_SLOT_VALID p i) == 1 && s.slotAddr p i == da)
  let map := hits.foldl (fun m i => Nat.lor m (s.inf (R.SLOT_TENANT_MAP p i))) 0
  let own := hits.any (fun i => s.inf (R.SLOT_ADDR_HI_SLOT_OWNER p i) == 1)
  let prom := s.inf (R.PORT_CFG_PROMISC p) == 1
  let none_ := if prom then Filter.pass 0 true else .miss
  if da = List.replicate 6 0xFF ∧ s.inf (R.PORT_CFG_BCAST_EN p) = 0 then none_
  else if !hits.isEmpty then .pass map (own || prom)
  else if s.inf (R.PORT_CFG_MISS_ACT p) = 1 then .pass 0 prom
  else none_

/-- The address filter decides on a frame in arrival, once (R138); a frame that misses stops storing (R135). -/
def State.filterNow (s : State) (p : Port) (express : Bool) : State :=
  let a : Arr := .rx p express
  match s.arr a with
  | none => s
  | some v =>
    if v.filter ≠ .undecided then s
    else
      let f := s.filterOf p (v.bytes.take 6)
      let s := s.setArr a (some { v with filter := f })
      if f = .miss then s.dropCells a else s

/-- ADDRESS_FILTER (R138): at the last byte of the DA. -/
def execAddressFilter (p : Port) (express : Bool) (s : State) : Host.Outcome State Fault Refusal :=
  match s.arr (.rx p express) with
  | none => .next s
  | some v => .next ((s.upTo (s.byteAt p v 6)).filterNow p express)

/-- CELL_TAKEN (R135, R194, R195): the first stored byte of a frame's next cell arrives; a frame whose length passes MAXLEN before that
stops storing. -/
def execCellTaken (a : Arr) (s : State) : Host.Outcome State Fault Refusal :=
  match s.arr a with
  | none => .next s
  | some v =>
    match a with
    | .rx p _ =>
      let n := s.nextCellByte v
      let most := s.inf (R.MAXLEN p)
      if n ≤ min v.bytes.length most then .next ((s.upTo (s.byteAt p v n)).nextCell a)
      else if v.bytes.length > most then .next ((s.upTo (s.byteAt p v (most + 1))).dropCells a)
      else .next s
    | .host _ _ => if s.nextCellByte v ≤ v.bytes.length then .next (s.nextCell a) else .next s

/-- FOLD_DECISION (R201): the bytes that templates compare are there. -/
def execFoldDecision (a : Arr) (s : State) : Host.Outcome State Fault Refusal :=
  match s.arr a with
  | none => .next s
  | some v =>
    match a with
    | .rx p _ => .next ((s.upTo (s.byteAt p v 128)).decideFold a)
    | .host _ _ => if v.bytes.length ≥ min 128 (v.len - 4) then .next (s.decideFold a) else .next s

/-! ### Classification (R14, R212, R271) -/

/-- A frame as it is presented: a host frame whose data is all there with the FCS that HIF appends (R361) (DESIGN CHOICE, log entry 6). -/
def Arrival.shown (v : Arrival) : List Byte :=
  match v.desc with
  | some d => if v.bytes.length = d.len then withFcs v.bytes else v.bytes
  | none => v.bytes

/-- The frame is presented and its context starts; a binding with EN = 0 adds no exit (R211 to R214, R239, R271) (DESIGN CHOICE, log entry 6). -/
def State.present (s : State) (a : Arr) : State :=
  match s.arr a with
  | none => s
  | some v =>
    let b := v.shown
    let tg := parseTags (s.tpidOf v.src) b
    let (cand, own) := match v.filter with
      | .pass t o => (t, o)
      | _ => (0, false)
    let known := v.desc.isSome || s.allThere a v
    let m := metaOf v.src tg b (s.classOf v.src b) cand own (s.foldMatch v.src b) (if known then some v.len else none)
      v.stamp.ts40 (s.tick.num % 2 ^ 16)
    let c := s.clsCtx v.src b m v.len
    let s := if c.fin = .closed then s.inc R.CLS_NOEXIT else s
    s.setArr a (some { v with ctx := some c })

/-- A frame of the management part that is not for MGC alone takes no more cells (R115). -/
def State.mgmtOnly (s : State) (a : Arr) : State :=
  s.modArr a (fun v =>
    match v.ctx with
    | some c =>
      if v.begun = .management ∧ c.fin ≠ .running ∧ ((v.exits c).isEmpty ∨ (v.exits c).any (fun x => x.dest != 25)) then
        { v with noMore := true }
      else v
    | none => v)

/-- The classification context of a frame issues one instruction (R207). -/
def State.clsIssue (s : State) (a : Arr) : State :=
  match s.arr a with
  | none => s
  | some v =>
    match v.ctx with
    | none => s
    | some c =>
      let (s, c) := runCtx v.shown 1 s c
      (s.setCtx (.cls a) c).mgmtOnly a

/-- The classification context of a frame issues up to n instructions, alternating with the lane's other context while that is ready
(R207). -/
def State.clsRun (a : Arr) : Nat → State → State
  | 0, s => s
  | n + 1, s =>
    match (s.arr a).bind (·.ctx) with
    | none => s
    | some c =>
      if c.fin ≠ .running then s
      else
        let s := if s.issues (.cls a) then s else ((s.readyCls c.lane).filter (· != a)).foldl State.clsIssue s
        State.clsRun a n (s.clsIssue a)

/-- A received frame whose length has passed MAXLEN by now is presented no further (R135). -/
def State.tooLong (s : State) (v : Arrival) : Bool :=
  match v.src with
  | .port p => decide (v.bytes.length > s.inf (R.MAXLEN p)) && decide (s.now ≥ s.byteAt p v (s.inf (R.MAXLEN p) + 1))
  | _ => false

/-- Classification of a frame in arrival runs for at most n instructions, in its source's context as soon as that is free (R14, R24,
R135, R207). -/
def State.classify (s : State) (a : Arr) (n : Nat) : State :=
  match s.arr a with
  | none => s
  | some v =>
    if v.envFail ∨ v.lostClass ∨ v.begun = .cannot ∨ v.filter = .miss ∨ s.tooLong v ∨ s.masRuns = false then s
    else if v.ctx.isSome then (State.clsRun a n s).mgmtOnly a
    else if (s.occupant a).isSome then s
    else (State.clsRun a n ((s.present a).spend 0 6)).mgmtOnly a

/-- Classification of a frame that is all there runs to its end, after that of the frame that holds its source's context (R14, R207). -/
def State.classifyAll (s : State) (a : Arr) : State :=
  (match s.occupant a with
    | some b => s.classify b 65
    | none => s).classify a 65

/-- CLASSIFICATION (R14): once 128 bytes, or the whole frame, are there (DESIGN CHOICE, log entry 7). -/
def execClassification (a : Arr) (steps : Nat) (s : State) : Host.Outcome State Fault Refusal :=
  match s.arr a with
  | none => .next s
  | some v =>
    match a with
    | .rx p e => .next (((s.upTo (s.byteAt p v 128)).filterNow p e).classify a steps)
    | .host _ _ => if v.bytes.length ≥ min 128 (v.len - 4) then .next (s.classify a steps) else .next s

/-! ### Reservation (R16, R103, R284, R313) -/

/-- What the acceptance cycle tries for a frame: the state with its reservations, the exits kept with what they reserved, the
conditions that failed (codes of R365), whether a mirror exit was left out, and the counters to raise. -/
structure Try where
  st : State
  kept : List (Exit × Nat)
  fails : List Nat
  skipped : Bool
  marks : List Fld

/-- One exit is tried: a queue slot (R278, R284), a receive descriptor (R103, R370) or an MGC slot (R103) (DEDUCED, log entry 28). -/
def Try.exit (t : Try) (h epoch len flow : Nat) (orig : List Byte) (parse : Nat) (d : Option TxDesc) (x : Exit) : Try :=
  let s := t.st
  let fail (code : Nat) (m : List Fld) : Try :=
    { t with
      fails := if x.mirror then t.fails else t.fails ++ [code], skipped := t.skipped || x.mirror, marks := t.marks ++ m }
  if x.dest < 6 then
    let launch := s.launchAt epoch x.dest x.sub d
    if s.slotsUsed x.dest ≥ s.infAt epoch (R.Q_SLOTS_MAX x.dest) then fail 5 []
    else if s.capTest epoch x.dest x.sub len flow launch = false then fail 5 [R.Q_REF_CAP x.dest x.sub]
    else { t with st := s.enterQueue epoch x.dest x.sub h t.kept.length len launch, kept := t.kept ++ [(x, 0)] }
  else
    match exitRing x.dest x.sub with
    | some (g, r) =>
      let n := (editFrame parse (s.exitTpid epoch x.dest) x 0 orig).1.length
      let taken := t.kept.filterMap (fun k => if exitRing k.1.dest k.1.sub = some (g, r) then some k.2 else none)
      match s.rxTake g r n taken with
      | some pos => { t with kept := t.kept ++ [(x, pos)] }
      | none => fail 6 (if s.rxTooLong g r n taken then [R.RING_CNT1 g r] else [])
    | none =>
      let mine := (t.kept.filter (fun k => k.1.dest == 25)).length
      if s.hif.mgc.length + mine < 8 then { t with kept := t.kept ++ [(x, 0)] } else fail 6 []

/-- Every condition of the acceptance cycle after the cells (R85, R88, R89, R92, R98, R247) (DEDUCED, log entry 29). -/
def State.tryAccept (s : State) (h : Nat) (c : Ctx) (v : Arrival) (flow : Nat) (l : List Exit) : Try :=
  let orig := v.shown.take (v.len - 4)
  let parse := (c.m.getD 12 0).toNat
  let f := s.flow flow
  let t : Try := ⟨s, [], if f.en then [] else [4], false, []⟩
  let t := l.foldl (fun t x => t.exit h c.epoch v.len flow orig parse v.desc x) t
  let full := decide (s.rd R.CARRY_FREE = 0)
  let t := if decide (s.entryFree < t.kept.length) || full then
      { t with fails := t.fails ++ [7], marks := t.marks ++ (if full then [R.CARRY_FULL] else []) } else t
  match v.desc with
  | some d => if f.hostseq && !newer d.flowSeq f.lastAcc then { t with fails := t.fails ++ [9] } else t
  | none => t

/-- The lowest failed condition (DEDUCED, log entry 29). -/
def Try.why (t : Try) : Option Nat := t.fails.foldl (fun o n => match o with
  | none => some n
  | some m => some (min m n)) none

/-- The accepted frame draws one number from each generation function that its exits name (R313) (DEDUCED, log entry 29). -/
def State.drawSeqs (s : State) (l : List Exit) : List (Nat × Nat) × State :=
  (genNamed l).foldl (fun (acc : List (Nat × Nat) × State) g =>
    let n := acc.2.rd (R.GEN_SEQ g)
    (acc.1 ++ [(g, n)], (acc.2.wr (R.GEN_SEQ g) (n + 1)).inc (R.GEN_DRAWN g))) ([], s)

/-- A frame is accepted (R15, R85 to R88, R93, R95, R103, R220, R247, R313): its reservations and its entries are written, it
takes its sequence, its carry record and its numbers; `gone` removes the frame in arrival. The first frame of a
flow after power-on carries LAST_ACC + 1 = 1 (R86), where R28 says that a flow starts at sequence 0 (DEDUCED, DESIGN CHOICE, log entries 29, 93). -/
def State.acceptBy (s : State) (gone : State → State) (h : Nat) (c : Ctx) (v : Arrival) (flow : Nat) (named : List Exit) (t : Try) :
    State :=
  let s := { s with ports := t.st.ports }
  let f := s.flow flow
  let seq := match v.desc with
    | some d => if f.hostseq then d.flowSeq else (f.lastAcc + 1) % 2 ^ 32
    | none => (f.lastAcc + 1) % 2 ^ 32
  let s := s.setFlow flow { f with lastAcc := seq }
  let (nums, s) := s.drawSeqs named
  let host := v.desc.isSome
  let (s, es) := t.kept.zipIdx.foldl (fun (acc : State × List ExitRec) k =>
    let x := k.1.1
    let (e, s) := acc.1.openEntry ⟨h, k.2, flow, seq, 1, x.dest, x.sub, x.mirror, false, v.el.isSome, host, s.tick.num % 32⟩
    let s := match exitRing x.dest x.sub with
      | some (g, r) => s.modDesc g r k.1.2 (fun d => { d with st := .reserved h k.2 })
      | none => if x.dest = 25 then { s with hif := { s.hif with mgc := s.hif.mgc ++ [(h, k.2)] } } else s
    (s, acc.2 ++ [⟨x, e, 0, k.1.2, none⟩])) (s, [])
  let s := (s.setHits c.hits).wr R.CARRY_FREE (s.rd R.CARRY_FREE - 1)
  let s := match v.desc with
    | some d => if d.launch.isSome then
        (t.kept.filter (fun (k : Exit × Nat) => decide (k.1.dest < 6) && s.infAt c.epoch (R.Q_CFG_LT_EN k.1.dest k.1.sub) == 0)).foldl
          (fun (s : State) (k : Exit × Nat) => s.inc (R.LT_IGNORED k.1.dest)) s
      else s
    | none => s
  let fr : Frame :=
    { src := v.src, len := v.len, cls := v.cls, flow := flow, seq := seq, epoch := c.epoch, accTick := s.tick.num
      accSec := s.tick.sec, folded := v.fold, mgmt := v.begun == .management, cells := v.cells, exits := es, drawnBy := nums
      g0 := c.reg 0, resume := c.pc, icount := c.icount, tele := c.tele
      trapInfo := match c.fin with
        | .trapped i => some i
        | _ => none
      metaRec := c.m, stamp := v.stamp, patch := none, resolved := false, resTick := 0, desc := v.desc }
  let s : State := { s with frames := mput s.frames h fr, led := { s.led with handles := h + 1 } }
  let s := (gone s).advanceDel flow
  s.elConfirm h v flow seq t.kept

/-- A frame in arrival is accepted (DEDUCED, log entry 28). -/
def State.accept (s : State) (a : Arr) (h : Nat) (c : Ctx) (v : Arrival) (flow : Nat) (named : List Exit) (t : Try) : State :=
  s.acceptBy (fun s => s.setArr a none) h c v flow named t

/-- The handle of the next frame: the frames accepted so far are numbered (DEDUCED, log entry 28). -/
def State.newHandle (s : State) : Nat := s.led.handles

/-! ### Received frames (R85, R89, R134 to R137, R156) -/

/-- The receive statistics of a frame that ends its reception (R156). -/
def State.rxStats (s : State) (p : Nat) (b : List Byte) : State :=
  let s := s.add64 (R.RX_OCTETS p) (R.RX_OCTETS_HI p) b.length
  let s := if b.take 6 = List.replicate 6 0xFF then s.add64 (R.RX_BCAST p) (R.RX_BCAST_HI p) 1
    else if ((b.headD 0).toNat).testBit 0 then s.add64 (R.RX_MCAST p) (R.RX_MCAST_HI p) 1 else s
  s.add64 (R.RX_SIZE p (sizeBin b.length)) (R.RX_SIZE_HI p (sizeBin b.length)) 1

/-- A received frame is discarded or refused: counted once, its provisional record retracted, its cells freed (R89, R137,
R194, R388). -/
def State.turnAway (s : State) (a : Arr) (count : Fld) (reason : Nat) : State :=
  match s.arr a with
  | none => s
  | some v => ((s.inc count).elRetract v reason).dropArr a

/-- The MAC consumes a MAC control frame (R136, R157); which of the reasons of R388 a provisional record of such a frame is retracted
with, the spec does not say (DEDUCED, log entry 25). -/
def State.macControl (s : State) (p : Port) (a : Arr) (v : Arrival) : State :=
  let op := beNat (sliceD v.bytes 14 2)
  let s := s.add64 (R.RX_MACCTL p) (R.RX_MACCTL_HI p) 1
  let s := if op = 1 ∨ op = 0x101 then s.pauseFrame p op v.bytes else s.inc (R.RX_MACCTL_UNK p)
  let (n, s) := if v.el.isSome then s.draw 4 else (0, s)
  (s.elRetract v (([1, 2, 3, 4, 5, 6, 7, 10, 11] : List Nat).getD (n % 9) 1)).dropArr a

/-- The counter of a failed condition of a received frame (R122) (DEDUCED, log entry 44). -/
def admCounter (p code : Nat) : Fld :=
  match code with
  | 2 => R.ADM_REF_RESET p
  | 3 => R.ADM_REF_CELLS p
  | 4 => R.ADM_REF_FLOW p
  | 5 => R.ADM_REF_QUEUE p
  | 6 => R.ADM_REF_TENANT p
  | _ => R.ADM_REF_LEDGER p

/-- The conditions of a frame that has passed the filter, its envelope, and any loss of classification: acceptance, or the
first that fails (R85, R89). -/
def State.admitRx (s : State) (p : Port) (a : Arr) (v : Arrival) (c : Ctx) (flow : Nat) : State :=
  let l := v.exits c
  let h := s.newHandle
  let t := s.tryAccept h c v flow l
  let s := t.marks.foldl (fun s m => s.inc m) s
  match t.why with
  | some code => s.turnAway a (admCounter p code) code
  | none =>
    let s := (s.accept a h c v flow l t).inc (R.ADM_ACC p)
    if t.skipped then s.inc (R.MIRROR_SKIP p) else s

/-- A frame of which the candidate set has taken exits away is counted (R139). -/
def State.countCut (s : State) (p : Port) (a : Arr) : State :=
  match s.arr a with
  | none => s
  | some v =>
    match v.ctx.filter (fun c => c.fin != .running && !v.lostClass) with
    | none => s
    | some c =>
      match c.fin with
      | .trapped _ => s
      | _ => if (v.exits c).length < c.exits.length then s.inc (R.FILT_MASK_CNT p) else s

/-- A received frame with a good FCS and a permitted length, its classification complete: the conditions in the order of the
counters (R89, R122, R137, R139) (DEDUCED, log entry 44). -/
def State.judgeRx (s : State) (p : Port) (a : Arr) : State :=
  match s.arr a with
  | none => s
  | some v =>
    let closed := v.ctx.filter (fun c => c.fin != .running && !v.lostClass)
    let noExit := match closed with
      | some c => (v.exits c).isEmpty
      | none => false
    if v.filter == .miss || (noExit && !v.lostClass) then s.turnAway a (R.ADM_DISC_ADDR p) 0
    else if v.envFail then s.turnAway a (R.ENV_DISC p v.cls) 1
    else
      match s.portRate p v.cls v.bytes.length with
      | none => s.turnAway a (R.ENV_DISC p v.cls) 1
      | some s =>
        if v.lostClass ∨ s.masRuns = false then s.turnAway a (R.ADM_REF_RESET p) 2
        else if v.begun = .cannot ∨ v.noMore then s.turnAway a (R.ADM_REF_CELLS p) 3
        else
          match closed with
          | none => s.turnAway a (R.ADM_REF_RESET p) 2
          | some c =>
            match s.arrFlow c with
            | none => s.turnAway a (R.ADM_DISC_ADDR p) 0
            | some x => s.admitRx p a v c x

/-- The lowest cause of R388 for a frame that is discarded for its FCS or its length, `own` being that one: a frame discarded so takes
nothing from its bucket (DEDUCED, log entry 25). -/
def State.discReason (s : State) (p : Nat) (v : Arrival) (own : Nat) : Nat :=
  if (s.portRate p v.cls v.bytes.length).isNone then 1 else if v.lostClass then 2 else if v.noMore then 3 else own

/-- No other frame whose last byte is there in the same core cycle or before comes earlier in the order of R87: of ports in ascending
number, then of transmit rings in ascending function and ring. -/
def State.acceptTurn (s : State) (a : Arr) : Bool :=
  let cyc (t : Nat) : Nat := t / s.cycle
  let last (p : Nat) (v : Arrival) : Nat := max s.now (s.byteAt p v v.bytes.length)
  match a with
  | .rx p e =>
    match s.arr a with
    | none => true
    | some v =>
      (List.finRange 6).all (fun q => ([false, true] : List Bool).all (fun g =>
        match s.arr (.rx q g) with
        | none => true
        | some w => (q == p && g == e) || !(decide (cyc (last q w) < cyc (last p v))
            || (decide (cyc (last q w) = cyc (last p v)) && decide (q < p)))))
  | .host f r =>
    (List.finRange 6).all (fun q => ([false, true] : List Bool).all (fun g =>
      match s.arr (.rx q g) with
      | none => true
      | some w => decide (cyc s.now < cyc (s.byteAt q w w.bytes.length))))
    && (List.finRange 17).all (fun g => (List.finRange 4).all (fun q =>
      match s.arr (.host g q) with
      | none => true
      | some w => decide (4 * f.val + r.val ≤ 4 * g.val + q.val) || (match w.desc with
          | some d => decide (w.bytes.length < d.len)
          | none => true)))

/-- The fragments of a frame from number i on, the first adding its bytes at an offset, come in order, fill the frame, and end each but
the last with the mCRC of its bytes so far (R304, R307). -/
def inOrder (bytes : List Byte) (frame : Fin 4) : List Fragment → Nat → Nat → Bool
  | [], _, _ => true
  | x :: t, i, o =>
    x.frame == frame && decide (x.num.val = (i - 1) % 4)
      && (if t.isEmpty then decide (o + x.len = bytes.length)
        else x.mcrc.toNat == mcrcOf (bytes.take (o + x.len)) && inOrder bytes frame t (i + 1) (o + x.len))

/-- The fragments in which a frame came make it up (R307). -/
def assembles (bytes : List Byte) (l : List Fragment) : Bool :=
  match l with
  | [] => true
  | x :: _ => inOrder bytes x.frame l 0 0

/-- A frame that is all there has a good FCS; in fragments it has one only while preemption is active and they make it up (R307). -/
def State.wholeGood (s : State) (p : Nat) (v : Arrival) (l : List Fragment) : Bool :=
  !v.bad && fcsGood v.bytes && assembles v.bytes l && (decide (l.length ≤ 1) || s.preemptOn p)

/-- Its reassembly failed (R307) (DEDUCED, log entry 22). -/
def State.assyFailed (s : State) (p : Nat) (v : Arrival) (l : List Fragment) : Bool :=
  s.preemptOn p && (!assembles v.bytes l || (decide (l.length ≥ 2) && !s.wholeGood p v l))

/-- The port itself still sends what it receives in a near-end loopback: the frame was preempted (R132, R304). -/
def State.loopOpen (s : State) (p : Nat) (express : Bool) : Bool := s.looped p && !express && (s.port p).preempted.isSome

/-- A received frame is all there: its statistics, and a failed reassembly (R156, R307). -/
def State.allCame (s : State) (p : Port) (v : Arrival) (parts : List Fragment) : State :=
  let t := (s.upTo (s.byteAt p v v.bytes.length)).rxStats p v.bytes
  if s.assyFailed p v parts then t.inc (R.RX_ASSY_ERR p) else t

/-- A frame that is no MAC control frame has ended its reception (R137). -/
def State.ended (s : State) (p : Port) (v : Arrival) (parts : List Fragment) : State :=
  (s.allCame p v parts).add64 (R.RX_ENDED p) (R.RX_ENDED_HI p) 1

/-- The state in which a received frame with a good FCS and a permitted length is judged: stamped, filtered, classified and stored (R15,
R85, R139). -/
def State.judgedIn (s : State) (p : Port) (express : Bool) (parts : List Fragment) (v : Arrival) : State :=
  (((((s.ended p v parts).ptpStamp p false v.bytes v.stamp).filterNow p express).classifyAll (.rx p express)).lastCells
    (.rx p express)).countCut p (.rx p express)

/-- RX_LAST_BYTE (R15, R85, R89, R135 to R137, R307): the frame ends its reception; one that comes earlier under R87 ends first (DESIGN CHOICE, log entry 6). -/
def execRxLastByte (p : Port) (express : Bool) (frags : List Fragment) (s : State) : Host.Outcome State Fault Refusal :=
  let a : Arr := .rx p express
  match s.arr a with
  | none => .next s
  | some v =>
    if s.acceptTurn a = false ∨ s.loopOpen p express = true then .next s else
    let n := v.bytes.length
    let parts := if express then [] else frags
    let good := s.wholeGood p v parts
    if good ∧ beNat (sliceD v.bytes 12 2) = 0x8808 then .next ((s.allCame p v parts).macControl p a v)
    else
      let t := s.ended p v parts
      if good = false then .next (t.turnAway a (R.ADM_DISC_FCS p) (t.discReason p v 0xA))
      else
        let t := t.ptpStamp p false v.bytes v.stamp
        if s.bit R.FLT_STAT_ECLIPSE then .next (t.turnAway a (R.ADM_REF_RESET p) 2)
        else if n < 64 ∨ n > s.inf (R.MAXLEN p) then
          .next (t.turnAway a (R.ADM_DISC_LEN p) (t.discReason p v 0xB))
        else .next ((s.judgedIn p express parts v).judgeRx p a)

/-! ### Host frames (R23, R62, R85, R365, R366) -/

/-- A host frame is refused: its descriptor completes REFUSED with the reason (R363, R365). -/
def State.refuseHost (s : State) (f : Func) (r : TxRing) (d : TxDesc) (flow : Option Nat) (reason : Nat) : State :=
  let seq := match flow with
    | some x => if (s.flow x).hostseq then d.flowSeq else 0
    | none => 0
  (s.dropArr (.host f r)).readyDesc f r d.idx
    (txCpl stRefused reason false flow 0 seq 0 d.cookie (s.tick.num + 2) s.now)

/-- The conditions of a host frame whose data is all there (R62, R85, R365) (DEDUCED, log entry 18). -/
def State.judgeHost (s : State) (f : Func) (r : TxRing) (d : TxDesc) : State :=
  let a : Arr := .host f r
  match s.arr a with
  | none => s
  | some v =>
    let closed := v.ctx.filter (fun c => c.fin != .running && !v.lostClass)
    let flow := closed.bind s.arrFlow
    match s.ringRate f r v.len with
    | none => (s.inc (R.RING_CNT1 f r)).refuseHost f r d flow 1
    | some s =>
      if v.lostClass ∨ s.bit R.FLT_STAT_ECLIPSE ∨ s.masRuns = false then s.refuseHost f r d flow 2
      else if v.begun = .cannot ∨ v.noMore then s.refuseHost f r d flow 3
      else
        match closed with
        | none => s.refuseHost f r d flow 2
        | some c =>
          let l := v.exits c
          match flow with
          | none => s.refuseHost f r d none 8
          | some x =>
            if l.isEmpty then s.refuseHost f r d flow (if (s.flow x).en then 8 else 4)
            else
              let h := s.newHandle
              let t := s.tryAccept h c v x l
              let s := t.marks.foldl (fun s m => s.inc m) s
              match t.why with
              | some code => s.refuseHost f r d flow code
              | none => (s.accept a h c v x l t).modDesc f r d.idx (fun y => { y with st := .accepted h })

/-- HOST_FRAME_LAST_READ (R23, R85, R361): the last read completion of a frame's data has arrived; HIF appends the FCS; frames that come earlier under R87
end first. -/
def execHostFrameLastRead (f : Func) (r : TxRing) (s : State) : Host.Outcome State Fault Refusal :=
  let a : Arr := .host f r
  match s.reading f r, s.arr a with
  | some (_, d, _, got, _), some v =>
    if got < d.len ∨ v.bytes.length ≠ d.len ∨ s.acceptTurn a = false then .next s
    else
      let s := s.classifyAll a
      let s := (s.modArr a (fun v => { v with bytes := withFcs v.bytes })).lastCells a
      .next ((s.judgeHost f r d).issueReads)
  | _, _ => .next s

end Sys2Proof.Machine
end

