-- ==== Sys2Proof/Machine/Dge.lean ====
section
/-! DEFINITION. The digest engine and the check-value units (spec/15_digest_and_check_units.md): frame jobs, streams on the
resident contexts, key loads, clears, and the job ports of the CRUs. -/

namespace Sys2Proof.Machine

/-! ### Frame jobs (R437, R447, R455) -/

/-- Complete the oldest open job of a unit in a context (none: DGE). -/
def finishJob (u : Option Nat) (result : List Byte) (l : List Job) : List Job :=
  match l.findIdx? (fun j => j.unit == u && !j.done) with
  | some i => lmod l i (fun j => { j with done := true, left := 0, result := result })
  | none => l

/-- The oldest open job that something holds of ends in a unit fault, and the frame's other jobs are abandoned (R264). -/
def faultJob (p : Job → Bool) (l : List Job) : List Job :=
  match l.find? p with
  | some j => [{ j with done := true, bad := true, left := 0, result := [] }]
  | none => l

/-- A register that spans a LO and a HI word, in force in an epoch. -/
def State.inf64 (s : State) (epoch : Nat) (lo hi : Fld) : Nat := s.infAt epoch lo + 2 ^ 32 * s.infAt epoch hi

/-- The result of a CRC job on unit u under the parameters of its frame's epoch (R452 to R454). -/
def State.crcResult (s : State) (epoch u : Nat) (l : List Byte) : Nat :=
  crcParam (s.infAt epoch (R.CRU_CFG_WIDTH u)) (s.inf64 epoch (R.POLY_LO u) (R.POLY_HI u))
    (s.inf64 epoch (R.INIT_LO u) (R.INIT_HI u)) (s.infAt epoch (R.CRU_CFG_REFIN u) == 1)
    (s.infAt epoch (R.CRU_CFG_REFOUT u) == 1) (s.inf64 epoch (R.XOROUT_LO u) (R.XOROUT_HI u)) l

/-- CRC_JOB_DONE (R261, R455): the oldest pending job of a frame on a unit has its result 4 cycles after its last block (DEDUCED, log entry 20). -/
def execCrcJobDone (handle : Nat) (u : CruUnit) (s : State) : Host.Outcome State Fault Refusal :=
  match s.ctxOf handle with
  | none => .next s
  | some c =>
    match c.jobs.find? (fun j => j.unit == some u.val && !j.done) with
    | none => .next s
    | some j =>
      if s.bitAt R.ENG_RST_STAT (11 + u) then .next s
      else
        let s := (s.upTo (s.jobEnd (some u.val) handle + 4 * s.cycle)).cruSync u
        let r := beBytes 8 (s.crcResult c.epoch u (j.fold ++ j.data))
        .next (s.modCtxs (fun h c => if h = handle then { c with jobs := finishJob (some u.val) r c.jobs } else c))

/-- DIG_JOB_DONE (R262, R437, R445): the pending digest job of a frame has its result as its last block ends; an HMAC uses the slot bank
of the frame's epoch; `corr` words of the job slot and the key bank have been corrected meanwhile (R436) (DEDUCED, log entry 20). -/
def execDigJobDone (handle corr : Nat) (s : State) : Host.Outcome State Fault Refusal :=
  match s.ctxOf handle with
  | none => .next s
  | some c =>
    match c.jobs.find? (fun j => j.unit.isNone && !j.done) with
    | none => .next s
    | some j =>
      if s.bitAt R.ENG_RST_STAT 10 ∨ s.dge.clearing.isSome then .next s
      else
        let s := (s.upTo (s.jobEnd none handle)).dgeSync
        let r := match j.key with
          | some k => hmac j.alg (s.keyBankAt k c.epoch).inner (s.keyBankAt k c.epoch).outer j.data
          | none => sha j.alg j.data
        .next ((s.add R.DGE_ECC_CORR corr).modCtxs (fun h c =>
          if h = handle then { c with jobs := finishJob none r c.jobs } else c))

/-! ### Streams (R438 to R442, R448) -/

/-- A context in FAULT, zeroed (R440). -/
def Stream.fault (x : Stream) (reason : Nat) : Stream :=
  { Stream.reset with state := 4, holder := x.holder, reason := reason }

/-- A context opened by a holder; an HMAC takes a copy of the states of the bank in force (R440, R448). -/
def Stream.start (alg holder now : Nat) (key : Option KeyBank) : Stream :=
  { Stream.reset with
    state := 1, holder := holder, alg := alg, hm := key.isSome, busyUntil := now, lastAt := now
    chain := (match key with
      | some b => b.inner
      | none => shaInit alg)
    outer := (match key with
      | some b => b.outer
      | none => []) }

/-- The free bytes of a context's input buffer (R442). -/
def Stream.room (x : Stream) : Nat := 128 - x.buf.length

/-- Bytes appended to a context: without room it ends with OVERFLOW, at its 2^48-th byte with LENGTH (R438, R442). -/
def Stream.append (x : Stream) (now : Nat) (l : List Byte) : Stream :=
  if x.room < l.length then x.fault 3
  else if x.count + x.buf.length + l.length ≥ 2 ^ 48 then x.fault 4
  else { x with buf := x.buf ++ l, lastAt := now }

/-- FINAL: the blocks that are left are those of the bytes at hand, of the padding and of an HMAC's outer computation (R435, R438). -/
def Stream.final (x : Stream) (now : Nat) : Stream :=
  { x with
    state := 2, lastAt := now
    left := (x.part ++ x.buf ++ shaPad x.alg (x.count + x.buf.length)).length / shaBlock x.alg + (if x.hm then 1 else 0) }

/-- The digest of a finishing context (R438). -/
def Stream.digestOf (x : Stream) : List Byte :=
  let n := x.count + x.buf.length + (if x.hm then shaBlock x.alg else 0)
  let l := x.part ++ x.buf
  let r := shaFeed x.alg (l.length / shaBlock x.alg) x.chain l
  let d := shaFinish x.alg r.1 n r.2
  if x.hm then hmacFinish x.alg x.outer d else d

/-- The key bank that a stream takes, where the slot passes R446 and R448: `con` for MGC, which alone uses console keys. -/
def State.streamKey (s : State) (alg k : Nat) (con : Bool) : Option KeyBank :=
  let b := (s.keySlot k).force
  if b.valid && b.alg == alg && (b.con == con) then some b else none

/-- The reason that a write to one of DGE's registers is rejected, if it is (R449, R606, R625). -/
def State.dgeReject (s : State) : Option Nat :=
  if s.bitAt R.ENG_RST_STAT 10 then some 7 else if s.dge.clearing.isSome then some 3 else none

/-- A register write of the owner that may be rejected. -/
def State.unlessRejected (s : State) (why : Option Nat) (off : Nat) (t : State) : State :=
  match why with
  | some w => s.reject off w
  | none => t

/-- SYS_CTRL.OPEN of the owner (R441, R442, R448) (DEDUCED, log entry 47). -/
def State.sysOpenNow (s : State) (alg : Nat) (key : Option Nat) : State :=
  let x := s.stream 16
  if x.state ≠ 0 ∧ x.holder = 2 then s.put R.SYS_STAT_BUSY_REFUSED true
  else if x.state = 1 ∨ x.state = 2 then s.put R.SYS_STAT_OPEN_REFUSED true
  else
    match key with
    | none => s.setStream 16 (Stream.start alg 1 s.now none)
    | some k =>
      match s.streamKey alg k false with
      | some b => s.setStream 16 (Stream.start alg 1 s.now (some b))
      | none => s.put R.SYS_STAT_OPEN_REFUSED true

/-- SYS_OPEN (R441, R442). -/
def execSysOpen (alg : Nat) (hmac : Bool) (key : Sys2Proof.KeySlot) (s : State) : Host.Outcome State Fault Refusal :=
  if alg ≥ 5 then .next (s.reject R.SYS_CTRL_OPEN.off (s.dgeReject.getD 1))
  else
    let t := ((s.wr R.SYS_CTRL_ALG alg).put R.SYS_CTRL_HMAC hmac).wr R.SYS_CTRL_KEY key
    .next (s.unlessRejected s.dgeReject R.SYS_CTRL_OPEN.off (t.sysOpenNow alg (if hmac then some key.val else none)))

/-- An append of the owner's to context 16: outside OPEN it is refused (R442). -/
def State.sysAppendNow (s : State) (l : List Byte) : State :=
  let x := s.stream 16
  if x.state ≠ 1 ∨ x.holder ≠ 1 then s.put R.SYS_STAT_OPEN_REFUSED true else s.setStream 16 (x.append s.now l)

/-- SYS_APPEND (R442): a write of SYS_DATA_HI appends the holding register and itself. -/
def execSysAppend (v : Dword) (s : State) : Host.Outcome State Fault Refusal :=
  .next (s.unlessRejected s.dgeReject R.SYS_DATA_HI.off
    (s.sysAppendNow (leBytes 4 (s.rd R.SYS_DATA_LO) ++ leBytes 4 v.toNat)))

/-- The first n bytes of a holding register (R442): DATA_LO fills its first four, and what its other bytes hold the spec does
not say. -/
def State.holding (s : State) (lo n : Nat) : List Byte × State :=
  if n ≤ 4 then ((leBytes 4 lo).take n, s)
  else
    let (v, s) := s.draw 24
    ((leBytes 4 lo ++ leBytes 3 v).take n, s)

/-- A write of n to SYS_TAIL (R442) (DESIGN CHOICE, log entry 46). -/
def State.sysTailNow (s : State) (n : Nat) : State :=
  let (l, s) := s.holding (s.rd R.SYS_DATA_LO) n
  s.sysAppendNow l

/-- SYS_TAIL (R442): the first n bytes of the holding register; 0 is reserved. -/
def execSysTail (n : Fin 8) (s : State) : Host.Outcome State Fault Refusal :=
  if n.val = 0 then .next (s.reject R.SYS_TAIL.off (s.dgeReject.getD 1))
  else .next (s.unlessRejected s.dgeReject R.SYS_TAIL.off (s.sysTailNow n))

/-- FINAL of the owner (R440, R442). -/
def State.sysFinalNow (s : State) : State :=
  let x := s.stream 16
  if x.state ≠ 1 ∨ x.holder ≠ 1 then s.put R.SYS_STAT_OPEN_REFUSED true
  else s.setStream 16 (x.final s.now)

/-- SYS_FINAL (R442). -/
def execSysFinal (s : State) : Host.Outcome State Fault Refusal :=
  .next (s.unlessRejected s.dgeReject R.SYS_CTRL_FINAL.off s.sysFinalNow)

/-- ABORT of the owner: its context returns to IDLE, zeroed (R440). -/
def State.sysAbortNow (s : State) : State :=
  if (s.stream 16).holder = 1 then s.setStream 16 Stream.reset else s

/-- SYS_ABORT (R440). -/
def execSysAbort (s : State) : Host.Outcome State Fault Refusal :=
  .next (s.unlessRejected s.dgeReject R.SYS_CTRL_ABORT.off s.sysAbortNow)

/-- A finishing context whose last block has completed holds its digest (R440, R442). -/
def State.streamEnd (s : State) (c : Nat) : State :=
  let x := s.stream c
  if x.state ≠ 2 ∨ s.bitAt R.ENG_RST_STAT 10 ∨ s.dge.clearing.isSome then s
  else
    let s := s.upTo ((s.dgeTo s.farAhead).dge.ctxs.getD c x).busyUntil
    s.setStream c { Stream.reset with
      state := 3, holder := x.holder, alg := x.alg, count := x.count + x.buf.length, digest := x.digestOf }

/-- STREAM_DONE (R440): `corr` words of the context have been corrected meanwhile (R436). -/
def execStreamDone (c : DgeCtx) (corr : Nat) (s : State) : Host.Outcome State Fault Refusal :=
  if (s.stream c).state = 2 ∧ s.bitAt R.ENG_RST_STAT 10 = false ∧ s.dge.clearing.isNone then
    .next ((s.streamEnd c).add R.DGE_ECC_CORR corr)
  else .next s

/-- Word w of the DIGEST registers (R442, R450). -/
def State.digestWord (s : State) (w : Nat) : Nat :=
  if s.dge.clearing.isSome then 0 else leNat (sliceD (s.stream 16).digest (4 * w) 4)

/-- A read of DIGEST_15 returns a context that is DONE to IDLE (R442). -/
def State.digestTaken (s : State) : State := if (s.stream 16).state = 3 then s.setStream 16 Stream.reset else s

/-- DIGEST_15_READ (R442). -/
def execDigest15Read (rd : Reader) (s : State) : Host.Outcome State Fault Refusal :=
  .next (s.ownerAnswer rd (R.DIGEST 15).off (s.digestWord 15, s.digestTaken))

/-- CONTEXT_PREEMPT (R441): MGC has waited 10 ms for context 16; the owner's computation ends PREEMPTED and MGC holds it (DEDUCED, log entry 49). -/
def execContextPreempt (s : State) : Host.Outcome State Fault Refusal :=
  match s.dge.mgcWait with
  | none => .next s
  | some t =>
    let x := s.stream 16
    if x.state = 0 ∨ x.holder ≠ 1 then .next s
    else
      let s := (s.upTo (t + 10000000 * unitsPerNs)).setStream 16 { x.fault 5 with holder := 2 }
      .next { s with dge := { s.dge with mgcWait := none } }

/-! ### Key loads (R443 to R445) -/

/-- The bytes written to KEY_DATA. -/
def State.keyBytes (s : State) : List Byte := ((List.range 32).map (fun w => leBytes 4 (s.rd (R.KEY_DATA w)))).flatten

/-- KEY_DATA overwritten with zeros (R444). -/
def State.zeroKeyData (s : State) : State := (List.range 32).foldl (fun s w => s.wr (R.KEY_DATA w) 0) s

/-- The bank that a load of a key gives (R443, R444). -/
def keyBankOf (alg : Nat) (con clear : Bool) (key : List Byte) : KeyBank :=
  if clear then KeyBank.reset
  else
    let i := hmacInner alg key
    let o := hmacOuter alg key
    ⟨alg, true, con, i, o, leNat ((hmac alg i o []).take 4)⟩

/-- The blocks of the key load that the registers ask for (R444): the key's own digest where it is longer than a block, the inner and the
outer state, and the two of KCV; none where CLEAR stages an invalid bank. -/
def State.loadBlocks (s : State) : Nat :=
  let alg := s.rd R.KEY_ATTR_ALG
  let n := s.rd R.KEY_ATTR_LEN
  if s.bit R.KEY_ATTR_CLEAR then 0
  else (if n > shaBlock alg then digestUnits alg n false / blockUnits alg else 0) + 4

/-- A write of 1 to KEY_CTRL.GO (R445, R449, R606): rejected, ignored while GO reads 1, or the load begins. -/
def State.keyGo (s : State) : State :=
  let off := R.KEY_CTRL_GO.off
  if s.bitAt R.ENG_RST_STAT 10 then s.reject off 7
  else if s.bit R.FLT_STAT_ECLIPSE then s.reject off 5
  else if s.tick.commitAt.isSome then (s.reject off 2).put R.BCHK_STATUS_LOCKED true
  else if s.dge.clearing.isSome ∨ (s.keySlot (s.rd R.KEY_SEL)).retiring.isSome then s.reject off 3
  else if s.bit R.KEY_CTRL_GO then s.put R.KEY_STAT_GO_IGNORED true
  else
    let s := s.dgeSync.put R.KEY_CTRL_GO true
    { s with dge := { s.dge with load := some (s.loadBlocks, blockCycles (s.rd R.KEY_ATTR_ALG), s.now) } }

/-- KEY_LOAD_DONE (R437, R444): as the load's last block ends the staging bank is written, KEY_DATA is zeroed and GO clears. -/
def execKeyLoadDone (s : State) : Host.Outcome State Fault Refusal :=
  if s.bit R.KEY_CTRL_GO = false ∨ s.bitAt R.ENG_RST_STAT 10 then .next s
  else
    let done := match (s.dgeTo s.farAhead).dge.load with
      | some (_, _, t) => t
      | none => s.now
    let s := (s.upTo done).dgeSync
    let s : State := { s with dge := { s.dge with load := none } }
    let k := s.rd R.KEY_SEL
    let b := keyBankOf (s.rd R.KEY_ATTR_ALG) (s.bit R.KEY_ATTR_CON) (s.bit R.KEY_ATTR_CLEAR)
      (s.keyBytes.take (s.rd R.KEY_ATTR_LEN))
    let x := s.keySlot k
    let s : State := { s with dge := { s.dge with slots := mput s.dge.slots k { x with other := b, staged := true } } }
    .next (s.zeroKeyData.put R.KEY_CTRL_GO false)

/-! ### Clears (R449, R450) -/

/-- A clear begins: every computation stops, and every job slot, context, key bank, buffer and digest is zeroed; of the causes of its first
cycle the lowest counts, and a running clear absorbs later ones (R449). -/
def State.dgeClear (s : State) (cause : Nat) : State :=
  match s.dge.clearing with
  | some (t, c) =>
    if t / s.cycle = s.now / s.cycle then { s with dge := { s.dge with clearing := some (t, min c cause) } } else s
  | none =>
    let s := s.unitsSync.modCtxs (fun _ c => { c with jobs := faultJob (·.unit.isNone) c.jobs })
    let s := (s.zeroKeyData.wr R.SYS_DATA_LO 0).put R.KEY_CTRL_GO false
    { s with dge := { s.dge with
        slots := [], ctxs := s.dge.ctxs.map (fun x => if x.state = 0 then x else x.fault 1), clearing := some (s.now, cause)
        load := none } }

/-- DGE_CLEAR (R449): a cause inside DGE (1 to 3), or a supply or clock alarm (4, 5). -/
def execDgeClear (cause : Nat) (s : State) : Host.Outcome State Fault Refusal :=
  if 1 ≤ cause ∧ cause ≤ 5 then .next (s.dgeClear cause) else .next s

/-- A write of 1 to DGE_CTRL.CLEAR (R449, R625). -/
def State.dgeCtrlClear (s : State) : State :=
  if s.bitAt R.ENG_RST_STAT 10 then s.reject R.DGE_CTRL_CLEAR.off 7 else s.dgeClear 6

/-- DGE_CTRL_CLEAR (R449). -/
def execDgeCtrlClear (s : State) : Host.Outcome State Fault Refusal := .next s.dgeCtrlClear

/-- DGE_CLEAR_END (R449): within 512 core cycles. -/
def execDgeClearEnd (s : State) : Host.Outcome State Fault Refusal :=
  match s.dge.clearing with
  | none => .next s
  | some (_, c) =>
    let s := { s with dge := { s.dge with clearing := none } }.dgeFree
    .next ((((s.wr R.DGE_CLEAR_CAUSE c).inc R.DGE_CLEAR_CNT).setFlag R.DGE_STAT_CLEARED 231).log 0x60 c)

/-! ### Banks that retire (R38, R445, R454) -/

/-- An epoch has no frame unresolved before it: no accepted frame, and no frame in arrival whose classification belongs to an
older epoch (R38, R445) (DEDUCED, log entry 48). -/
def State.noOlder (s : State) (e : Nat) : Bool :=
  s.frames.all (fun x => x.2.resolved || decide (x.2.epoch ≥ e))
    && allArr.all (fun a => match (s.arr a).bind (·.ctx) with
      | some c => decide (c.epoch ≥ e)
      | none => true)

/-- BANK_RETIRE (R445, R454): retiring banks are zeroed once no frame of an older epoch is unresolved (DEDUCED, log entry 48). -/
def execBankRetire (s : State) : Host.Outcome State Fault Refusal :=
  let s : State := { s with
    dge := { s.dge with slots := s.dge.slots.map (fun x => (x.1, match x.2.retiring with
      | some e => if s.noOlder e then { x.2 with other := KeyBank.reset, retiring := none } else x.2
      | none => x.2)) }
    crus := s.crus.map (fun x => match x.retiring with
      | some e => if s.noOlder e then { x with retiring := none } else x
      | none => x) }
  .next s

/-! ### Job ports of the CRUs (R455 to R457) -/

/-- A register of a job port's JPAR: the layout of the unit's parameters at +0x100 (R456). -/
def jpar (f : Nat → Fld) (u j : Nat) : Fld := { f u with off := (f u).off + 256 + 256 * j }

/-- A 64-bit JPAR value. -/
def State.jpar64 (s : State) (u j : Nat) (lo hi : Nat → Fld) : Nat := s.rd (jpar lo u j) + 2 ^ 32 * s.rd (jpar hi u j)

/-- A port job in FAULT, zeroed (R440, R456). -/
def CruPort.fault (_ : CruPort) (reason : Nat) : CruPort := { CruPort.reset with state := 4, reason := reason }

/-- The fold word of a job port: the low bytes of JFOLD, most significant first (R453). -/
def State.jfold (s : State) (u j : Nat) : List Byte :=
  beBytes (s.rd (R.JCTRL_FOLD_LEN u j)) (s.rd64 (R.JFOLD_LO u j) (R.JFOLD_HI u j))

/-- JCTRL.OPEN (R456): refused while the job is OPEN or FINISHING, or with PARAM_ERR. -/
def State.jobOpen (s : State) (u j : Nat) : State :=
  let x := s.cruPort u j
  let w := s.rd (R.JPAR_CFG_WIDTH u j)
  let poly := s.jpar64 u j R.POLY_LO R.POLY_HI
  let init := s.jpar64 u j R.INIT_LO R.INIT_HI
  let xo := s.jpar64 u j R.XOROUT_LO R.XOROUT_HI
  if x.state = 1 ∨ x.state = 2 then s.put (R.JSTAT_OPEN_REFUSED u j) true
  else if poly = 0 ∨ poly ≥ 2 ^ w ∨ init ≥ 2 ^ w ∨ xo ≥ 2 ^ w then s.put (R.JSTAT_PARAM_ERR u j) true
  else
    let refin := s.bit (R.JPAR_CFG_REFIN u j)
    s.setCruPort u j { CruPort.reset with
      state := 1, width := w, poly := poly, refin := refin, refout := s.bit (R.JPAR_CFG_REFOUT u j), xorout := xo
      reg := init, part := s.jfold u j, lastAt := s.now }

/-- A write to a CRU's block is rejected while the unit resets (R625). -/
def State.cruReject (s : State) (u : Nat) : Option Nat := if s.bitAt R.ENG_RST_STAT (11 + u) then some 7 else none

/-- CRU_JOB_OPEN (R456): FOLD_LEN above 8 is reserved. -/
def execCruJobOpen (u : CruUnit) (j : JobPort) (foldLen : Fin 16) (s : State) : Host.Outcome State Fault Refusal :=
  let off := (R.JCTRL_OPEN u j).off
  if foldLen.val > 8 then .next (s.reject off ((s.cruReject u).getD 1))
  else .next (s.unlessRejected (s.cruReject u) off ((s.wr (R.JCTRL_FOLD_LEN u j) foldLen).jobOpen u j))

/-- An append to a port job: outside OPEN it is refused, without room it ends the job with OVERFLOW (R456). -/
def State.jobAppend (s : State) (u j : Nat) (l : List Byte) : State :=
  let x := s.cruPort u j
  if x.state ≠ 1 then s.put (R.JSTAT_OPEN_REFUSED u j) true
  else if x.buf.length + l.length > 64 then s.setCruPort u j (x.fault 3)
  else s.setCruPort u j { x with buf := x.buf ++ l, lastAt := s.now }

/-- CRU_JOB_APPEND (R456). -/
def execCruJobAppend (u : CruUnit) (j : JobPort) (v : Dword) (s : State) : Host.Outcome State Fault Refusal :=
  .next (s.unlessRejected (s.cruReject u) (R.JDATA_HI u j).off
    (s.jobAppend u j (leBytes 4 (s.rd (R.JDATA_LO u j)) ++ leBytes 4 v.toNat)))

/-- A write of n to JTAIL (R456) (DESIGN CHOICE, log entry 46). -/
def State.jobTail (s : State) (u j n : Nat) : State :=
  let (l, s) := s.holding (s.rd (R.JDATA_LO u j)) n
  s.jobAppend u j l

/-- CRU_JOB_TAIL (R456): 0 is reserved. -/
def execCruJobTail (u : CruUnit) (j : JobPort) (n : Fin 8) (s : State) : Host.Outcome State Fault Refusal :=
  let off := (R.JTAIL u j).off
  if n.val = 0 then .next (s.reject off ((s.cruReject u).getD 1))
  else .next (s.unlessRejected (s.cruReject u) off (s.jobTail u j n))

/-- JCTRL.FINAL (R456). -/
def State.jobFinal (s : State) (u j : Nat) : State :=
  let x := s.cruPort u j
  if x.state ≠ 1 then s.put (R.JSTAT_OPEN_REFUSED u j) true else s.setCruPort u j { x with state := 2, lastAt := s.now }

/-- CRU_JOB_FINAL (R456). -/
def execCruJobFinal (u : CruUnit) (j : JobPort) (s : State) : Host.Outcome State Fault Refusal :=
  .next (s.unlessRejected (s.cruReject u) (R.JCTRL_FINAL u j).off (s.jobFinal u j))

/-- CRU_JOB_ABORT (R456): the job returns to IDLE. -/
def execCruJobAbort (u : CruUnit) (j : JobPort) (s : State) : Host.Outcome State Fault Refusal :=
  .next (s.unlessRejected (s.cruReject u) (R.JCTRL_ABORT u j).off (s.setCruPort u j CruPort.reset))

/-- CRU_PORT_JOB_DONE (R452, R455, R456): a port job completes 4 cycles after its last block. -/
def execCruPortJobDone (u : CruUnit) (j : JobPort) (s : State) : Host.Outcome State Fault Refusal :=
  let x := s.cruPort u j
  if x.state ≠ 2 ∨ s.bitAt R.ENG_RST_STAT (11 + u) then .next s
  else
    let y := ((s.cruTo u s.farAhead).cru u).ports.getD j x
    let s := s.upTo (y.readyAt + 4 * s.cycle)
    let x := s.cruPort u j
    let r := Nat.xor (if x.refout then reflect x.width x.reg else x.reg) x.xorout
    .next (s.setCruPort u j { x with state := 3, result := r, lastAt := s.now })

/-- The settings of CRC-16/IBM-3740 on J1 of CRU3, and a line's sequence number as its fold word (R456, R458). -/
def State.j1Params (s : State) (seq : Nat) : State :=
  let w (s : State) (f : Nat → Fld) (v : Nat) : State := s.wr (jpar f 3 1) v
  let s := w (w (w (w (w (w s R.POLY_LO 0x1021) R.POLY_HI 0) R.INIT_LO 0xFFFF) R.INIT_HI 0) R.XOROUT_LO 0) R.XOROUT_HI 0
  let s := ((s.wr (R.JPAR_CFG_WIDTH 3 1) 16).put (R.JPAR_CFG_REFIN 3 1) false).put (R.JPAR_CFG_REFOUT 3 1) false
  ((s.wr (R.JFOLD_LO 3 1) seq).wr (R.JFOLD_HI 3 1) 0).wr (R.JCTRL_FOLD_LEN 3 1) 2

/-- MGC has computed a check code over n bytes of a line on J1 of CRU3 (R455, R456, R458): the job is done at once (DEDUCED, log entries 20, 47). -/
def State.j1Done (s : State) (seq n code : Nat) : State :=
  let p : CruPort := { CruPort.reset with state := 3, width := 16, poly := 0x1021, reg := code, result := code }
  ((s.cruSync 3).j1Params seq).modCru 3 (fun c =>
    { c with ports := lmod c.ports 1 (fun _ => p), blocks := (c.blocks.1, c.blocks.2 + ceilDiv (n + 2) 8) })

/-- A parity error in a unit (R457): the oldest frame job ends in a unit fault; without one, a port job in progress does (DEDUCED, log entry 47). -/
def State.cruFault (s : State) (u : Nat) : State :=
  let s := s.unitsSync
  let l := (s.mas.lanes.map (fun l => l.res.toList ++ l.parked)).flatten
  let mine := l.filter (fun x => x.2.jobs.any (fun j => j.unit == some u && !j.done))
  let key (h : Nat) : Nat := ((mget s.frames h).map s.resKey).getD 0
  let s := match mine.find? (fun x => mine.all (fun y => decide (key x.1 ≤ key y.1))) with
    | some (h, _) => s.modCtxs (fun g c => if g = h then { c with jobs := faultJob (fun j => j.unit == some u && !j.done) c.jobs } else c)
    | none =>
      match ([0, 1] : List Nat).find? (fun j => (s.cruPort u j).state == 1 || (s.cruPort u j).state == 2) with
      | some j => s.setCruPort u j ((s.cruPort u j).fault 1)
      | none => s
  (s.inc (R.CRU_FAULT_CNT u)).raise 232

/-- CRU_PARITY_FAULT (R457) (DEDUCED, log entry 47). -/
def execCruParityFault (u : CruUnit) (s : State) : Host.Outcome State Fault Refusal := .next (s.cruFault u)

end Sys2Proof.Machine
end

