-- ==== Sys2Proof/Machine/Console.lean ====
section
/-! DEFINITION. The Molsum console (spec/17_molsum_console.md, R490 to R516): how lines are read, in which order they are served,
how replies and event lines leave, the UART, the mailboxes and the network console. The verbs stand in Machine/Verbs.lean. -/

namespace Sys2Proof.Machine

/-! ### Text (R492, R493, R496) -/

/-- The bytes of a text. -/
def txt (s : String) : List Byte := s.toList.map (fun c => BitVec.ofNat 8 c.toNat)

/-- The decimal digits of a number, at most `fuel` of them. -/
def decDigits : Nat → Nat → List Byte
  | 0, _ => []
  | n + 1, v => (if v < 10 then [] else decDigits n (v / 10)) ++ [BitVec.ofNat 8 (48 + v % 10)]

/-- A number in decimal. -/
def dec (v : Nat) : List Byte := decDigits 60 v

/-- A hexadecimal digit, upper case. -/
def hexDigit (v : Nat) : Byte := BitVec.ofNat 8 (if v % 16 < 10 then 48 + v % 16 else 55 + v % 16)

/-- n hexadecimal digits of a number. -/
def hex : Nat → Nat → List Byte
  | 0, _ => []
  | n + 1, v => hex n (v / 16) ++ [hexDigit v]

/-- Bytes as hexadecimal digits. -/
def hexBytes (l : List Byte) : List Byte := (l.map (fun b => hex 2 b.toNat)).flatten

/-- A 32-bit value as `rd` shows it (R518). -/
def hex32 (v : Nat) : List Byte := txt "0x" ++ hex 4 (v / 65536) ++ txt "_" ++ hex 4 v

/-- A letter in lower case (R493). -/
def lower (b : Byte) : Byte := if 65 ≤ b.toNat ∧ b.toNat ≤ 90 then b + 32 else b

/-- The tokens of a line (R493). -/
def tokens (l : List Byte) : List (List Byte) :=
  (l.foldr (fun b (acc : List (List Byte)) =>
    if b = 0x20 then [] :: acc
    else match acc with
      | x :: t => (b :: x) :: t
      | [] => [[b]]) [[]]).filter (fun t => !t.isEmpty)

/-- The value of a digit. -/
def digitOf (b : Byte) : Option Nat :=
  let n := b.toNat
  if 48 ≤ n ∧ n ≤ 57 then some (n - 48)
  else if 65 ≤ n ∧ n ≤ 70 then some (n - 55)
  else if 97 ≤ n ∧ n ≤ 102 then some (n - 87)
  else none

/-- Digits of a base as a number; none where one is not a digit of it, or there is none. -/
def digits (base : Nat) (l : List Byte) : Option Nat :=
  if l.isEmpty then none
  else l.foldl (fun a b => match a, digitOf b with
    | some v, some d => if d < base then some (v * base + d) else none
    | _, _ => none) (some 0)

/-- `_` stands between digits only. -/
def underscoresOk (l : List Byte) : Bool :=
  l.head? != some 0x5F && l.getLast? != some 0x5F && (l.zip (l.drop 1)).all (fun p => !(p.1 == 0x5F && p.2 == 0x5F))

/-- An unsigned number (R493). -/
def number (l : List Byte) : Option Nat :=
  match l with
  | 0x30 :: 0x78 :: t => if underscoresOk t then digits 16 (t.filter (fun b => b != 0x5F)) else none
  | _ => digits 10 l

/-- Hexadecimal data of whole bytes. -/
def hexData (l : List Byte) : Option (List Byte) :=
  if l.length % 2 = 1 ∨ l.isEmpty then none
  else (digits 16 l).map (fun v => beBytes (l.length / 2) v)

/-- The check code of a line (R458, R496): CRC-16/IBM-3740 over the fold word and the bytes before `*`. -/
def checkCode (seq : Option Nat) (l : List Byte) : Nat :=
  crcParam 16 0x1021 0xFFFF false false 0 (beBytes 2 (seq.getD 0) ++ l)

/-- A device line (R496, R498): the sequence number as given, and in strict mode the device's own check code. -/
def devLine (strict : Bool) (seq : Option Nat) (body : List Byte) : List Byte :=
  let l := (match seq with
    | some n => txt "#" ++ dec n ++ txt " "
    | none => []) ++ body
  if strict then l ++ txt " *" ++ hex 4 (checkCode seq l) else l

/-! ### Lines (R492 to R496) -/

/-- The verbs of R521, one for each row that executes one. -/
inductive ConVerb where
  | ping | mode | baud | show_ | rd | wr | set | stageDrop | check | commit | log | teleOn | teleOff | mdioRd | mdioWr
  | resetEngine | resetTenant | resetSelf | resetDevice | digestOpen | digestData | digestFinal | digestAbort
  | updateStatus | updateBegin | updateData | updateEnd | updateActivate | updateConfirm
  deriving DecidableEq, Repr

/-- A token of a line. -/
abbrev Tok := List Byte

/-- The reserved keywords (R493). -/
def reservedWords : List Tok := [txt "debug", txt "trace", txt "key", txt "fuse", txt "raw", txt "all"]

/-- A keyword among those allowed at its position (R493, R494): its index, or the error code. -/
def keyword (strict : Bool) (allowed : List Tok) (t : Tok) : Except Nat Nat :=
  let t := t.map lower
  match allowed.findIdx? (· == t) with
  | some i => .ok i
  | none =>
    if reservedWords.contains t then .error 12
    else if strict ∨ t.length < 3 then .error 11
    else
      match (List.range allowed.length).filter (fun i => (allowed.getD i []).take t.length == t) with
      | [i] => .ok i
      | _ => .error 11

/-- The keyword that follows a verb, and the verb of each choice. -/
def subVerb (strict : Bool) (choices : List (Tok × ConVerb)) (l : List Tok) : Except Nat (ConVerb × List Tok) :=
  match l with
  | [] => .error 10
  | t :: rest =>
    match keyword strict (choices.map (·.1)) t with
    | .ok i => .ok ((choices.getD i (t, .ping)).2, rest)
    | .error e => .error e

/-- The first keywords of R521. -/
def verbWords : List Tok :=
  [txt "ping", txt "mode", txt "baud", txt "show", txt "rd", txt "wr", txt "set", txt "stage", txt "check", txt "commit",
    txt "log", txt "tele", txt "mdio", txt "reset", txt "digest", txt "update"]

/-- The verb of a line, with its arguments (R521). -/
def verbOf (strict : Bool) (l : List Tok) : Except Nat (ConVerb × List Tok) :=
  match l with
  | [] => .error 10
  | t :: a =>
    match keyword strict verbWords t with
    | .error e => .error e
    | .ok 0 => .ok (.ping, a)
    | .ok 1 => .ok (.mode, a)
    | .ok 2 => .ok (.baud, a)
    | .ok 3 => .ok (.show_, a)
    | .ok 4 => .ok (.rd, a)
    | .ok 5 => .ok (.wr, a)
    | .ok 6 => .ok (.set, a)
    | .ok 7 => subVerb strict [(txt "drop", .stageDrop)] a
    | .ok 8 => .ok (.check, a)
    | .ok 9 => .ok (.commit, a)
    | .ok 10 => .ok (.log, a)
    | .ok 11 => subVerb strict [(txt "on", .teleOn), (txt "off", .teleOff)] a
    | .ok 12 =>
      match a with
      | [] => .error 10
      | p :: r => (subVerb strict [(txt "rd", .mdioRd), (txt "wr", .mdioWr)] r).map (fun x => (x.1, p :: x.2))
    | .ok 13 => subVerb strict
        [(txt "engine", .resetEngine), (txt "tenant", .resetTenant), (txt "self", .resetSelf), (txt "device", .resetDevice)] a
    | .ok 14 => subVerb strict
        [(txt "open", .digestOpen), (txt "data", .digestData), (txt "final", .digestFinal), (txt "abort", .digestAbort)] a
    | .ok _ => subVerb strict
        [(txt "status", .updateStatus), (txt "begin", .updateBegin), (txt "data", .updateData), (txt "end", .updateEnd),
          (txt "activate", .updateActivate), (txt "confirm", .updateConfirm)] a

/-- A sequence number token (R495). -/
def seqOf (t : Tok) : Option Nat :=
  match t with
  | 0x23 :: d => if d.length ≤ 5 then (digits 10 d).filter (· ≤ 65535) else none
  | _ => none

/-- What a complete line is: nothing, an error with its code, the sequence to echo and whether the stored reply is cleared, or a
command. -/
inductive LineIs where
  | silent
  | error (code : Nat) (seq : Option Nat) (clear : Bool)
  | command (seq : Option Nat) (toks : List Tok)
  deriving DecidableEq, Repr

/-- The bytes of a line before its `*`, without the spaces there (R496). -/
def beforeCheck (l : List Byte) : List Byte :=
  let r := l.reverse
  ((r.dropWhile (· != 0x2A)).drop 1).dropWhile (· == 0x20) |>.reverse

/-- The bytes that a line's check code covers, where its last token is one (R496). -/
def checkedBytes (l : List Byte) : Option (List Byte) :=
  let last := ((tokens l).getLast?).getD []
  if last.head? = some 0x2A ∧ last.length = 5 ∧ (digits 16 (last.drop 1)).isSome then some (beforeCheck l) else none

/-- MGC runs a line's check code on J1 of CRU3 (R458). -/
def State.j1Line (s : State) (l : List Byte) : State :=
  match checkedBytes l with
  | none => s
  | some b =>
    let seq := ((tokens l).head?).bind seqOf
    s.j1Done (seq.getD 0) b.length (checkCode seq b)

/-- A complete line read (R492, R495, R496) (DESIGN CHOICE, log entry 10). -/
def readLine (x : ConLine) : LineIs :=
  if x.bytes.length > 160 then .error 13 none false
  else if x.bytes.all (· == 0x20) ∧ x.bad = false then .silent
  else
    let ts := tokens x.bytes
    let seq := (ts.head?).bind seqOf
    if x.bad ∨ x.bytes.any (fun b => decide (b.toNat < 0x20 ∨ b.toNat > 0x7E)) then .error 10 seq false
    else
      let hasSeq := (ts.headD []).head? == some 0x23
      let ts := if hasSeq then ts.drop 1 else ts
      let last := (ts.getLast?).getD []
      let hasChk := last.head? == some 0x2A
      let chk := if last.length = 5 then digits 16 (last.drop 1) else none
      if hasSeq ∧ seq = none then .error 10 none false
      else if hasChk ∧ chk = none then .error 10 seq false
      else if hasChk ∧ chk ≠ some (checkCode seq (beforeCheck x.bytes)) then .error 14 none true
      else if x.strict ∧ hasChk = false then .error 14 seq true
      else if x.strict ∧ seq = none then .error 15 none false
      else
        let ts := if hasChk then ts.dropLast else ts
        if ts.isEmpty then .error 10 seq false else .command seq ts

/-! ### Channels -/

/-- The number of a channel (R523). -/
def chNum : Channel → Nat
  | .uart => 0
  | .mbx f => if f = 16 then 1 else 8 + f
  | .net p => 2 + p

/-- The function whose mailbox a channel is. -/
def mbxOf (ch : Nat) : Option Nat := if ch = 1 then some 16 else if ch ≥ 8 then some (ch - 8) else none

/-- The tenant whose mailbox a channel is (R491). -/
def tenantOf (ch : Nat) : Option Nat := if ch ≥ 8 then some (ch - 8) else none

/-- A channel's queues. -/
def State.chan (s : State) (ch : Nat) : ConChan := mgetD s.con.chans ch ⟨none, [], [], 0⟩

/-- Change a channel's queues. -/
def State.modChan (s : State) (ch : Nat) (g : ConChan → ConChan) : State :=
  let v := g (s.chan ch)
  { s with con := { s.con with
      chans := if v = ⟨none, [], [], 0⟩ then mdel s.con.chans ch else mput s.con.chans ch v } }

/-- The mode of a channel (R490, R513); in recovery every line is strict (R582) (DEDUCED, log entry 87). -/
def State.strict (s : State) (ch : Nat) : Bool :=
  if s.bit R.BOOT_STAT_RECOVERY then true
  else if ch = 0 then s.bit R.CON_STAT_STRICT
  else match mbxOf ch with
    | some f => s.bit (R.MBX_STAT_STRICT f)
    | none => true

/-- Set the mode of a channel (R497). -/
def State.setStrict (s : State) (ch : Nat) (b : Bool) : State :=
  if ch = 0 then s.put R.CON_STAT_STRICT b
  else match mbxOf ch with
    | some f => s.put (R.MBX_STAT_STRICT f) b
    | none => s

/-- MGC executes nothing: it has halted, it resets, or no start has loaded it yet (R502, R562, R625) (DEDUCED, log entry 87). -/
def State.mgcStopped (s : State) : Bool :=
  s.bit R.FLT_STAT_MGC_HALT || s.bitAt R.ENG_RST_STAT 16
    || s.boot.phase == .none || s.boot.phase == .waiting || s.boot.phase == .held

/-! ### The network console's frames (R512, R515, R516) -/

/-- TAG of a network console payload (R512) (DESIGN CHOICE, log entry 46). -/
def State.netTag (s : State) (slot : Nat) (sa payload : List Byte) : Option (List Byte) :=
  let b := (s.keySlot slot).force
  if b.valid && b.con && b.alg == 1 then some ((hmac 1 b.inner b.outer (sa ++ payload)).take 16) else none

/-- The units of an HMAC of MGC's over n bytes on context 16 (R435, R512) (DEDUCED, log entry 49). -/
def State.mgcHmac (s : State) (n : Nat) : State :=
  { s with dge := { s.dge with units := (s.dge.units.1, s.dge.units.2 + digestUnits 1 n true) } }

/-- NETCON_SA in force (R515). -/
def State.netSa (s : State) : List Byte := leBytes 4 (s.inf R.NETCON_SA_LO) ++ leBytes 2 (s.inf R.NETCON_SA_HI)

/-- A reply or event frame of the network console, without FCS; where its slot holds no console key, TAG is not stated. -/
def State.netFrame (s : State) (p kind : Nat) (line : List Byte) : List Byte × State :=
  let slot := s.inf R.NETCON_CFG2_KEY
  let pay := beBytes 1 1 ++ beBytes 1 kind ++ beBytes 1 slot ++ beBytes 1 line.length ++ line
  let (tag, s) : List Byte × State := match s.netTag slot s.netSa pay with
    | some t => (t, s.mgcHmac (6 + pay.length))
    | none =>
      let (v, s) := s.draw 128
      (beBytes 16 v, s)
  let b := mgetD s.con.peers p (List.replicate 6 0) ++ s.netSa ++ beBytes 2 (s.inf R.NETCON_CFG_ETYPE) ++ pay ++ tag
  (sliceD b 0 (max b.length 60), s)

/-- Cells for a frame of MGC's, taken and written (R194) (DEDUCED, log entry 45). -/
def State.mgcCells (s : State) (b : List Byte) : Option (List Nat × State) :=
  ((List.range (ceilDiv b.length 128)).foldl (fun (o : Option (List Nat × State)) _ =>
    o.bind (fun x => (x.2.takeCell false).map (fun y => (x.1 ++ [y.1], y.2)))) (some ([], s))).map
    (fun x => (x.1, x.2.writeCells x.1 false b))

/-- A frame of MGC's is offered to admission with one exit, and no program runs for it (R515) (DEDUCED, log entry 45). -/
def State.mgcOffer (s : State) (p : Nat) (b : List Byte) : State :=
  let flow := s.inf R.NETCON_CFG2_FLOW
  let f := s.flow flow
  let l := withFcs b
  let x : Exit := ⟨p, s.inf R.NETCON_CFG2_Q, false, 0, 0, 0, 0, 0, 0⟩
  let c := { s.clsCtx .mgc l [] l.length with exits := [x], flow := some flow, fin := .closed }
  let h := s.newHandle
  let v : Arrival :=
    { src := .mgc, cls := 0, bytes := l, sfd := s.now, stamp := s.stampNow, begun := s.beginAs, storing := true, cells := []
      noMore := false, bad := false, lostClass := false, envFail := false, filter := .pass 0 true, tpl := some none, refd := false
      ctx := some c, desc := none, el := none, elSkip := none }
  if s.admissionClosed ∨ f.fn ≠ 17 ∨ v.begun ≠ .ordinary then s.inc R.NET_RPL_REFUSED
  else
    match s.mgcCells l with
    | none => s.inc R.NET_RPL_REFUSED
    | some (cells, s') =>
      let t := s'.tryAccept h c v flow [x]
      if t.why.isSome then s.inc R.NET_RPL_REFUSED
      else (s'.acceptBy id h c { v with cells := cells } flow [x] t).outcome h { c with fin := .ended, resolving := true }

/-- The network console offers the frames that wait, at most 8 in a tick (R516); a halted MGC offers none (R34) (DEDUCED, log entry 45). -/
def State.netDrain : Nat → State → State
  | 0, s => s
  | n + 1, s =>
    let used := if s.con.netTick.1 = s.tick.num then s.con.netTick.2 else 0
    match s.con.netOut with
    | [] => s
    | (p, b) :: t =>
      if used ≥ 8 ∨ s.bit R.FLT_STAT_MGC_HALT then s
      else
        let s : State := { s with con := { s.con with netOut := t, netTick := (s.tick.num, used + 1) } }
        State.netDrain n (s.mgcOffer p b)

/-- A line leaves on the network console (DEDUCED, log entry 45). -/
def State.netSend (s : State) (p kind : Nat) (line : List Byte) : State :=
  let (b, s) := s.netFrame p kind line
  let s : State := { s with con := { s.con with netOut := s.con.netOut ++ [(p, b)] } }
  State.netDrain 8 s

/-! ### The UART's transmitter (R503, R504) -/

/-- Bytes go to the UART's transmit buffer (DEDUCED, log entry 50). -/
def State.uartSend (s : State) (l : List Byte) : State :=
  { s with con := { s.con with tx := s.con.tx ++ l, txAt := if s.con.tx.isEmpty then s.now else s.con.txAt } }

/-- CR LF. -/
def crlf : List Byte := [0x0D, 0x0A]

/-! ### Event lines (R500) -/

/-- A line is placed in a mailbox's reply queue (R509). -/
def State.mbxPlace (s : State) (f : Nat) (event : Bool) (line : List Byte) : State :=
  (s.modChan (if f = 16 then 1 else 8 + f) (fun c => { c with replies := c.replies ++ [(event, line)] })).raise (170 + f)

/-- Event lines of a channel, placed or waiting. -/
def ConChan.eventCount (c : ConChan) : Nat := c.events.length + (c.replies.filter (·.1)).length

/-- Event lines that wait are placed while there is room, between replies (R500, R509) (DEDUCED, log entry 50). -/
def State.placeEvents : Nat → Nat → State → State
  | 0, _, s => s
  | n + 1, ch, s =>
    match (s.chan ch).events with
    | [] => s
    | l :: t =>
      let took := s.modChan ch (fun c => { c with events := t })
      match mbxOf ch with
      | some f =>
        if s.con.waiting.any (fun w => w.1 == f) ∨ (s.chan ch).replies.length ≥ 16 then s
        else State.placeEvents n ch (took.mbxPlace f true l)
      | none =>
        if ch = 0 then (if s.con.tx.isEmpty then State.placeEvents n ch (took.uartSend (l ++ crlf)) else s)
        else State.placeEvents n ch (took.netSend (ch - 2) 3 l)

/-- An event line is dropped and counted (R500) (DEDUCED, log entry 51). -/
def State.evDrop (s : State) (ch : Nat) : State :=
  let s := (s.modChan ch (fun c => { c with lost := c.lost + 1 })).inc R.EV_LINES_LOST
  match mbxOf ch with
  | some f => s.inc (R.MBX_EV_LOST f)
  | none => s

/-- An event line goes to a channel (R500): each queues up to 12, and `ev lost` precedes the first after a loss; a halted MGC sends none
(R34) (DEDUCED, log entry 51). -/
def State.evLine (s : State) (ch : Nat) (text : List Byte) : State :=
  let c := s.chan ch
  let mk (t : List Byte) : List Byte := devLine (s.strict ch) none (txt "ev " ++ t)
  let need := if c.lost = 0 then 1 else 2
  if s.bit R.FLT_STAT_MGC_HALT then s
  else if c.eventCount + need > 12 then s.evDrop ch
  else
    let new := (if c.lost = 0 then [] else [mk (txt "lost " ++ dec c.lost)]) ++ [mk text]
    State.placeEvents 14 ch ((new.foldl State.j1Line s).modChan ch (fun c => { c with events := c.events ++ new, lost := 0 }))

/-! ### Replies (R495, R498, R499, R506, R509) -/

/-- A reply: `ok` or `er`, what follows on the final line, and the data of continuation lines. -/
structure ConReply where
  ok : Bool
  text : List Byte
  conts : List (List Byte)
  deriving DecidableEq, Repr

/-- A reply `ok`, with what follows it. -/
def okReply (t : List Byte) : ConReply := ⟨true, t, []⟩

/-- The texts of R499. -/
def errorText (code : Nat) : List Byte :=
  match code with
  | 10 => txt "syntax" | 11 => txt "unknown" | 12 => txt "reserved" | 13 => txt "long" | 14 => txt "check" | 15 => txt "seq"
  | 16 => txt "range" | 17 => txt "scope" | 18 => txt "state" | 19 => txt "eclipse" | 20 => txt "busy" | 21 => txt "locked"
  | 22 => txt "phy" | 23 => txt "digest" | 31 => txt "budget" | 32 => txt "tick" | 33 => txt "pending"
  | 34 => txt "consistency" | 40 => txt "update idle" | 41 => txt "update slot" | 42 => txt "update offset"
  | 43 => txt "update verify" | 44 => txt "update rollback" | _ => txt "update flash"

/-- A reply `er` with its code and text, and what follows them. -/
def erReply (code : Nat) (more : List Byte := []) : ConReply :=
  ⟨false, dec code ++ txt " " ++ errorText code ++ (if more.isEmpty then [] else txt " " ++ more), []⟩

/-- Lines that wait for room in a mailbox are placed (R509); the final one ends CMD_BUSY (R507) (DEDUCED, log entry 50). -/
def State.placeWaiting : Nat → State → State
  | 0, s => s
  | n + 1, s =>
    match s.con.waiting with
    | [] => s
    | (f, final, l) :: t =>
      if (s.chan (if f = 16 then 1 else 8 + f)).replies.length ≥ 16 then s
      else
        let s : State := { s with con := { s.con with waiting := t } }
        let s := s.mbxPlace f false l
        State.placeWaiting n (if final then s.put (R.MBX_STAT_CMD_BUSY f) false else s)

/-- The lines of a reply leave on their channel, the last of them final. -/
def State.sendReply (s : State) (ch : Nat) (lines : List (List Byte)) : State :=
  match mbxOf ch with
  | some f =>
    let w := lines.zipIdx.map (fun x => (f, x.2 + 1 == lines.length, x.1))
    State.placeWaiting 16 { s with con := { s.con with waiting := s.con.waiting ++ w } }
  | none =>
    if ch = 0 then s.uartSend ((lines.map (· ++ crlf)).flatten)
    else lines.foldl (fun s l => s.netSend (ch - 2) 2 l) s

/-- The line in service is done: it leaves the order of service. -/
def State.conPop (s : State) : State := { s with con := { s.con with lines := s.con.lines.drop 1, serving := none } }

/-- The line in service is answered (R498): its reply is stored for a retry, unless `clear` says otherwise, counted and sent. -/
def State.conReply (s : State) (x : ConLine) (seq : Option Nat) (clear : Bool) (r : ConReply) : State :=
  let lines := r.conts.map (fun c => devLine x.strict seq (txt "- " ++ c))
    ++ [devLine x.strict seq ((if r.ok then txt "ok" else txt "er") ++ (if r.text.isEmpty then [] else txt " " ++ r.text))]
  let s := s.conPop.modChan x.ch (fun c => { c with stored := if clear then none else seq.map (fun n => (n, lines)) })
  ((lines.foldl State.j1Line s).inc (if r.ok then R.LINES_OK else R.LINES_ER)).sendReply x.ch lines

/-- What the console does with the line at the head of the order of service: it is dropped, discarded as a replay (R514), answered
with an error, resent as a retry (R495), or its verb executes. -/
inductive HeadIs where
  | drop
  | replay
  | error (code : Nat) (seq : Option Nat) (clear : Bool)
  | retry
  | verb (v : ConVerb) (seq : Option Nat) (args : List Tok)
  deriving DecidableEq, Repr

/-- NET_LAST_SEQ of a port (R514): its sequence and its valid bit (DEDUCED, log entry 51). -/
def State.netLast (s : State) (p : Nat) : Nat × Bool :=
  let v := s.rd (R.NET_LAST_SEQ p)
  (v % 2 ^ 16, v ≥ 2 ^ 16)

/-- A line judged for service (R495, R514). -/
def State.judgeLine (s : State) (x : ConLine) : HeadIs :=
  match readLine x with
  | .silent => .drop
  | .error code seq clear => .error code seq clear
  | .command seq ts =>
    let net := 2 ≤ x.ch ∧ x.ch ≤ 7
    let (last, valid) := s.netLast (x.ch - 2)
    let d := (seq.getD 0 + 65536 - last) % 65536
    let again := if net then valid && d == 0
      else x.strict && ((s.chan x.ch).stored.map (·.1)) == seq && seq.isSome
    if net ∧ valid ∧ d ≥ 2 ^ 15 then .replay
    else if again then .retry
    else
      match verbOf x.strict ts with
      | .ok (v, a) => .verb v seq a
      | .error e => .error e seq false

/-- A line of the network console that passes its sequence test takes it as NET_LAST_SEQ (R514) (DEDUCED, log entry 51). -/
def State.netTakes (s : State) (x : ConLine) : State :=
  match readLine x with
  | .command (some n) _ => if 2 ≤ x.ch ∧ x.ch ≤ 7 then s.wr (R.NET_LAST_SEQ (x.ch - 2)) (2 ^ 16 + n) else s
  | _ => s

/-- MGC can take the next line: it runs, the line before is done, and its reply is placed (R501, R502, R506, R509). -/
def State.conIdle (s : State) : Bool := !s.mgcStopped && s.con.serving.isNone && s.con.waiting.isEmpty

/-- A line without a reply leaves the order of service; a mailbox takes its next line. -/
def State.conSilent (s : State) (x : ConLine) : State :=
  match mbxOf x.ch with
  | some f => s.conPop.put (R.MBX_STAT_CMD_BUSY f) false
  | none => s.conPop

/-- Lines that execute nothing are disposed of as they come to the head of the order of service, at most `fuel` of them (DESIGN CHOICE, log entry 10). -/
def State.conFlush : Nat → State → State
  | 0, s => s
  | n + 1, s =>
    if s.conIdle = false then s
    else
      match s.con.lines with
      | [] => s
      | x :: _ =>
        match s.judgeLine x with
        | .drop => State.conFlush n (s.conSilent x)
        | .replay => State.conFlush n ((s.inc R.NET_REPLAY).conSilent x)
        | .error code seq clear => State.conFlush n ((s.netTakes x).conReply x seq clear (erReply code))
        | _ => s

/-- The lines that wait, and one more. -/
def State.flushLines (s : State) : State := State.conFlush (s.con.lines.length + 1) s

/-- A line takes its place in the order of service: the lines of one core cycle stand in the order of their channels (R501). -/
def insertLine (cycle : Nat) (x : ConLine) : List ConLine → List ConLine
  | [] => [x]
  | y :: t => if y.at_ / cycle = x.at_ / cycle ∧ x.ch < y.ch then x :: y :: t else y :: insertLine cycle x t

/-- A line is complete (R497, R501): it takes its place in the order of service, behind a line that is served (DESIGN CHOICE, log entry 10). -/
def State.lineIn (s : State) (ch : Nat) (bytes : List Byte) (bad : Bool) : State :=
  let x : ConLine := ⟨ch, bytes.take 161, s.strict ch, bad, s.now⟩
  let k := if s.con.serving.isSome then 1 else 0
  let l := s.con.lines.take k ++ insertLine s.cycle x (s.con.lines.drop k)
  ({ s with con := { s.con with lines := l } }.j1Line bytes).flushLines

/-- The line in service ends with a reply that waited (R520, R525). -/
def State.conFinish (s : State) (r : ConReply) : State :=
  match s.con.lines with
  | [] => s
  | x :: _ =>
    match readLine x with
    | .command seq _ => (s.conReply x seq false r).flushLines
    | _ => s

/-- CONSOLE_RETRY (R495, R514): the stored reply of the previous line is sent again, unchanged; on the network console, where none
is stored, nothing is sent (DEDUCED, log entry 51). -/
def execConsoleRetry (ch : Channel) (s : State) : Host.Outcome State Fault Refusal :=
  match s.con.lines with
  | [] => .next s
  | x :: _ =>
    if s.conIdle = false ∨ x.ch ≠ chNum ch ∨ s.judgeLine x ≠ .retry then .next s
    else
      match (s.chan x.ch).stored with
      | some (_, lines) => .next ((s.conPop.sendReply x.ch lines).flushLines)
      | none => .next ((s.conSilent x).flushLines)

/-! ### The UART (R503 to R505) -/

/-- The rates of CON_CFG.BAUD in Bd (R503). -/
def bauds : List Nat := [115200, 230400, 460800, 921600, 1000000, 1500000, 2000000, 3000000]

/-- UART_TX_BYTE_END (R503): the byte in transmission has left; a new rate takes effect when its byte has. -/
def execUartTxByteEnd (s : State) : Host.Outcome State Fault Refusal :=
  match s.con.tx with
  | [] => .next s
  | b :: t =>
    let s := (s.upTo (s.con.txAt + ceilDiv (10 * 64 * 1000000000) (bauds.getD s.con.rate 115200))).emit (.conByte b)
    let s : State := { s with con := { s.con with tx := t, txAt := s.now } }
    let s := match s.con.rateNext with
      | some (n, r) =>
        if n ≤ 1 then { (s.wr R.CON_CFG_BAUD r).setRate r with con := { (s.setRate r).con with rateNext := none } }
        else { s with con := { s.con with rateNext := some (n - 1, r) } }
      | none => s
    .next (State.placeEvents 14 0 s)

/-- Bytes of the UART's receive buffer that are in use behind the one complete line (R490) (DEDUCED, log entry 50). -/
def State.uartBehind (s : State) : Nat :=
  let l := s.con.lines.filter (fun x => x.ch == 0)
  if l.isEmpty then 0 else ((l.drop 1).map (fun x => x.bytes.length + 1)).sum + s.con.part.length

/-- A byte without a framing error reaches the UART (R504) (DEDUCED, log entry 50). -/
def State.uartByte (s : State) (b : Byte) : State :=
  let strict := s.strict 0
  let echo (s : State) (l : List Byte) : State := if strict then s else s.uartSend l
  let wasCr := s.con.lastCr
  let s : State := { s with con := { s.con with lastCr := b == 0x0D } }
  if b = 0x0A ∧ wasCr then s
  else if b = 0x0D ∨ b = 0x0A then
    let l := s.con.part
    let bad := s.con.partBad
    let s : State := { s with con := { s.con with part := [], partBad := false } }
    (echo s crlf).lineIn 0 l bad
  else if strict = false ∧ (b = 0x08 ∨ b = 0x7F) then
    echo { s with con := { s.con with part := s.con.part.dropLast } } [0x08, 0x20, 0x08]
  else echo { s with con := { s.con with part := (s.con.part ++ [b]).take 512 } } [b]

/-- UART_BYTE_RECEIVED (R491, R504, R505): `stopOk` is false for a framing error (DEDUCED, log entry 87). -/
def execUartByteReceived (b : Byte) (stopOk : Bool) (s : State) : Host.Outcome State Fault Refusal :=
  if s.rd R.CON_CFG_UART_MODE = 0 ∨ (s.bit R.BOOT_STAT_RECOVERY ∧ (s.fuse 1).testBit 4 = false) then .next s
  else if stopOk = false then .next ({ s with con := { s.con with partBad := true } }.inc R.CON_FRAMING)
  else if s.uartBehind ≥ 512 then .next ({ s with con := { s.con with partBad := true } }.inc R.CON_OVERRUN)
  else .next (s.uartByte b)

/-- A break on CON_RX (R505); a wake source is judged where it is armed (R545). -/
def State.uartBreak (s : State) : State :=
  let s : State := { s with con := { s.con with part := [], partBad := false, lastCr := false } }
  ((s.evLine 0 (txt "break")).wr R.CON_STAT_BREAK 1).log 0x81 0

/-! ### The mailboxes (R507 to R510) -/

/-- A word of a mailbox's command buffer. -/
def mbxWord (f w : Nat) : Fld := { R.MBX_CMD f with off := (R.MBX_CMD f).off + 4 * w }

/-- A GO write to a mailbox (R507, R508, R510). -/
def State.mbxGo (s : State) (f : Nat) : State :=
  if f < 16 ∧ s.inf (R.QUOTA_MBX_EN f) = 0 then s.put (R.TEN_STAT_QUOTA_HIT f) true
  else if s.bit (R.MBX_STAT_CMD_BUSY f) then s.put (R.MBX_STAT_GO_IGNORED f) true
  else
    let b := ((List.range 40).map (fun w => leBytes 4 (s.rd (mbxWord f w)))).flatten.take (s.rd (R.MBX_CMD_LEN f))
    (s.put (R.MBX_STAT_CMD_BUSY f) true).lineIn (if f = 16 then 1 else 8 + f) b false

/-- MBX_CMD_GO (R507). -/
def execMbxCmdGo (f : Func) (s : State) : Host.Outcome State Fault Refusal :=
  .next (s.barRequest f (s.mbxGo f) s)

/-- A write of 1 to MBX_RPL_POP (R509): the head line goes, and what waited for room is placed. -/
def State.mbxPop (s : State) (f : Nat) : State :=
  let ch := if f = 16 then 1 else 8 + f
  let s := s.modChan ch (fun c => { c with replies := c.replies.drop 1 })
  (State.placeEvents 14 ch (State.placeWaiting 16 s)).flushLines

/-- MBX_RPL_POP (R509). -/
def execMbxRplPop (f : Func) (s : State) : Host.Outcome State Fault Refusal :=
  .next (s.barRequest f (s.mbxPop f) s)

/-- A mailbox is cleared by a reset of its function (R510): its line is abandoned, both queues are empty (DEDUCED, log entry 87). -/
def State.mbxClear (s : State) (f : Nat) : State :=
  let ch := if f = 16 then 1 else 8 + f
  let head := (s.con.lines.head?.map (·.ch)) == some ch
  let s : State := { s with con := { s.con with
    lines := s.con.lines.filter (fun x => x.ch != ch), waiting := s.con.waiting.filter (fun w => w.1 != f)
    chans := mdel s.con.chans ch, serving := if head then none else s.con.serving
    tele := if s.con.tele = some ch then none else s.con.tele } }
  match s.boot.session with
  | some (.mbx g, _, _) => if g.val = f then { s with boot := { s.boot with session := none } } else s
  | _ => s

/-! ### The network console (R511 to R514) -/

/-- A frame is not a network console command (R513): counted, and logged once per port and tick. -/
def State.netReject (s : State) (p : Nat) : State :=
  let s := s.inc R.NET_REJECT
  if mget s.con.rejTick p = some s.tick.num then s
  else { s.log 0x80 p with con := { s.con with rejTick := mput s.con.rejTick p s.tick.num } }

/-- The owner's register interface holds context 16 (R441). -/
def State.ownerHolds16 (s : State) : Bool := (s.stream 16).state != 0 && (s.stream 16).holder == 1

/-- The payload of a frame holds a command for the key slot in force, up to a TAG (R513). -/
def State.netFormed (s : State) (pay : List Byte) : Bool :=
  let at_ (i : Nat) : Nat := (pay.getD i 0).toNat
  let n := at_ 3
  at_ 0 == 1 && at_ 1 == 1 && at_ 2 == s.inf R.NETCON_CFG2_KEY && decide (1 ≤ n ∧ n ≤ 160 ∧ n + 20 ≤ pay.length)

/-- TAG of the payload of a frame, which MGC computes where the frame is formed and the key slot holds a console key (R513). -/
def State.netWants (s : State) (sa pay : List Byte) : Option (List Byte) :=
  if s.netFormed pay then s.netTag (s.inf R.NETCON_CFG2_KEY) sa (pay.take (4 + (pay.getD 3 0).toNat)) else none

/-- A frame that R511 accepts is examined (R512, R513): its line is served as a strict line of its port (DEDUCED, log entries 49, 51). -/
def State.netExamine (s : State) (p : Nat) (sa pay : List Byte) : State :=
  let n := (pay.getD 3 0).toNat
  match s.netWants sa pay with
  | none => s.netReject p
  | some t =>
    let s := s.mgcHmac (10 + n)
    if t ≠ sliceD pay (4 + n) 16 then s.netReject p
    else { s with con := { s.con with peers := mput s.con.peers p sa } }.lineIn (2 + p) (sliceD pay 4 n) false

/-- NETCON_FRAME (R441, R511, R513): MGC takes the oldest frame of its receive slots, which is DELIVERED with that; it waits while
the owner holds context 16. -/
def execNetconFrame (s : State) : Host.Outcome State Fault Refusal :=
  match s.hif.mgc.find? (fun x => match mget s.frames x.1 with
    | some f => f.resolved
    | none => false) with
  | none => .next s
  | some (h, i) =>
    if s.mgcStopped ∨ (s.con.lines.filter (fun x => decide (2 ≤ x.ch ∧ x.ch ≤ 7))).length ≥ 8 then .next s
    else
      match mget s.frames h with
      | none => .next s
      | some f =>
        match s.provenBytes f, f.exits[i]? with
        | some orig, some x =>
          let b := (s.exitBytes f x.exit orig).1
          let tg := parseTags (s.tpidOf f.src) b
          match f.src with
          | .port p =>
            if s.inf R.NETCON_CFG_PORTS / 2 ^ p.val % 2 = 0 ∨ tg.etype ≠ s.inf R.NETCON_CFG_ETYPE then .next (s.dispose h i 0)
            else if s.ownerHolds16 ∧ (s.netWants (sliceD b 6 6) (b.drop (tg.etypeOff + 2))).isSome then
              .next { s with dge := { s.dge with mgcWait := some (s.dge.mgcWait.getD s.now) } }
            else
              let s : State := { s with dge := { s.dge with mgcWait := none } }
              let s := if (s.stream 16).holder = 2 then s.setStream 16 Stream.reset else s
              .next ((s.dispose h i 0).netExamine p.val (sliceD b 6 6) (b.drop (tg.etypeOff + 2)))
          | _ => .next (s.dispose h i 0)
        | none, some _ => .next (s.foldFault h i f)
        | _, none => .next s

end Sys2Proof.Machine
end

