-- ==== Sys2Proof/Machine/Eclipse.lean ====
section
/-! DEFINITION. Eclipse (spec/20_faults_and_recovery.md R603 to R607): entry with its cause, the drain and its end; and what an
entry abandons: a pending commit (spec/02_tick_and_budget.md R74) and a power transition (spec/18_power_and_wake.md R534). -/

namespace Sys2Proof.Machine

/-- A pending commit is cancelled, with nothing applied (R74); a bank scheduled with it is STAGING again (R231). -/
def State.cancelCommit (s : State) : State :=
  if s.tick.commitAt = none then s
  else
    let s := { s with tick := { s.tick with commitAt := none, told := none } }
    let s := { s with mas := { s.mas with banks := s.mas.banks.map (fun (b : Overlay) =>
      if b.state = BankState.pending then { b with state := .staging } else b) } }
    (s.put R.BCHK_STATUS_PENDING false).put R.BCHK_STATUS_LOCKED false

/-- A power request is refused or abandoned with a code (R534) (DEDUCED, log entry 67). -/
def State.pmRefuse (s : State) (code : Nat) : State := ((s.wr R.PM_STAT_REFUSE code).log 0x91 code).raise 245

/-- A power transition in progress is abandoned with a code: the state it began from stays, and admission opens again, after
a drain that took too long at the next boundary (R534, R540, R541) (DEDUCED, log entry 41). -/
def State.pmAbandon (s : State) (code : Nat) : State :=
  match s.pm.phase with
  | .settled | .night => s
  | _ =>
    let s := { s with
      pm := { s.pm with phase := .settled, shut := if code = 3 then s.tick.num + 1 else s.pm.shut }, tick := { s.tick with checks := s.tick.checks.filter (fun c => c != CheckFor.dusk) } }
    (((s.put R.PM_STAT_BUSY false).put R.PM_STAT_DRAIN false).put R.PM_STAT_TW_READY false).pmRefuse code

/-- The open entries of which something holds, as frame and exit. -/
def State.entriesWith (s : State) (p : Entry → Bool) : List (Nat × Nat) :=
  (s.led.entries.filter (fun e => p e.2)).map (fun e => (e.2.frame, e.2.exit))

/-- Entries take QUIESCED (R603, R605) (DEDUCED, log entry 41). -/
def State.quiesceEntries (s : State) (p : Entry → Bool) : State :=
  (s.entriesWith p).foldl (fun s e => s.dispose e.1 e.2 0xB) s

/-- The drain ends: every open entry takes QUIESCED, and their number goes to the log (R605). -/
def State.endDrain (s : State) : State :=
  let n := s.led.entries.length
  ((s.quiesceEntries (fun _ => true)).put R.FLT_STAT_ECL_DRAIN false).log 0xB1 (min n 0xFFFF)

/-- Host frames not yet accepted complete REFUSED with REASON RESET (R604). -/
def State.refuseFetches (s : State) : State :=
  allArr.foldl (fun s a =>
    match a with
    | .rx _ _ => s
    | .host f r =>
      let s := s.dropArr a
      s.modRing f r (fun x => { x with descs := x.descs.map (fun d =>
        match d.st with
        | .reading t _ _ _ => { d with st := .ready (txCpl stRefused 2 false none 0 0 0 t.cookie (s.tick.num + 2) s.now) }
        | _ => d) })) s

/-- What a cause drains (R603, R605): causes 3 and 4 dispose of nothing, 9 of everything at once with the outputs idle, and the others
drain, once the entries `lost` have taken QUIESCED (DEDUCED, log entry 41). -/
def State.eclipseDrain (s : State) (cause : Nat) (lost : Entry → Bool) : State :=
  if cause = 3 ∨ cause = 4 then s.put R.FLT_STAT_ECL_DRAIN false
  else if cause = 9 then
    let outs := s.tu.tout.map (fun o => { o with idle := true, away := false, next := none, endAt := none })
    let s : State := { s.put R.FLT_STAT_ECL_DRAIN false with tu := { s.tu with tout := outs } }
    s.quiesceEntries (fun _ => true)
  else
    let s := (s.quiesceEntries lost).put R.FLT_STAT_ECL_DRAIN true
    if s.rd R.ECL_DRAIN_TICKS = 0 then s.endDrain else s

/-- Entry to Eclipse with a cause (R603, R604): `lost` are the entries that take QUIESCED at once. A second cause of the same
cycle leaves the lowest code, and each is logged (DEDUCED, log entry 41). -/
def State.enterEclipse (s : State) (cause : Nat) (lost : Entry → Bool) : State :=
  if s.bit R.FLT_STAT_ECLIPSE then
    if s.ladder.eclAt = some s.now then
      let old := s.rd R.ECL_CAUSE
      let s := if cause < old then (s.wr R.ECL_CAUSE cause).eclipseDrain cause lost
        else if old = 3 ∨ old = 4 then s
        else s.quiesceEntries lost
      s.log 0xB0 cause
    else s
  else
    let s := (s.wr R.ECL_CAUSE cause).wr64 R.ECL_TICK_LO R.ECL_TICK_HI s.tickNum
    let s := (s.setFlag R.FLT_STAT_ECLIPSE 248).log 0xB0 cause
    let s := { s with ladder := { s.ladder with eclAt := some s.now, drained := 0, keepEcl := false } }
    let s := s.refuseFetches.cancelCommit.pmAbandon 9
    let s : State := { s with ports := s.ports.map (fun q => { q with pauseOut := [] }) }
    s.eclipseDrain cause lost

/-- ECLIPSE_DRAIN_END (R605): no entry is open, or the drain has lasted ECL_DRAIN_TICKS boundaries. -/
def execEclipseDrainEnd (s : State) : Host.Outcome State Fault Refusal :=
  if s.bit R.FLT_STAT_ECL_DRAIN ∧ (s.led.entries = [] ∨ s.ladder.drained ≥ s.rd R.ECL_DRAIN_TICKS) then .next s.endDrain
  else .next s

end Sys2Proof.Machine
end

