-- ==== Sys2Proof/Machine/Staging.lean ====
section
/-! DEFINITION. Registers found by their offset in the tables, and staging as a whole (spec/02_tick_and_budget.md R33,
spec/17_molsum_console.md R519, spec/21_register_map.md R619). -/

namespace Sys2Proof.Machine

/-! ### Registers by offset -/

/-- The indices of a register at a distance from its base. -/
def indexOf : List (Nat × Nat) → Nat → Option (List Nat)
  | [], d => if d = 0 then some [] else none
  | (stride, n) :: t, d => if d / stride < n then (indexOf t (d % stride)).map (d / stride :: ·) else none

/-- The register definitions at an offset of a BAR, with their indices; several where fields of one word lie in several tables. -/
def regsAt (blocks : List (Nat × Nat × List RegDef)) (off : Nat) : List (RegDef × List Nat) :=
  (blocks.filter (fun b => decide (b.1 ≤ off ∧ off ≤ b.2.1))).flatMap (fun b => b.2.2.filterMap (fun d =>
    if d.base ≤ off then (indexOf d.dims (off - d.base)).map (fun i => (d, i)) else none))

/-- A key of the register file is a staged field. -/
def stagedKey (k : Nat) : Bool :=
  (regsAt ownerBlocks (k / 32)).any (fun x => x.1.staged && x.1.fields.any (fun f => f.lo == k % 32))

/-- The staged fields of a register file. -/
def stagedPart (r : RegFile) : RegFile := r.filter (fun x => stagedKey x.1)

/-- The fields of a register file that lie in a range of offsets take their reset values. -/
def regClear (r : RegFile) (lo n : Nat) : RegFile := r.filter (fun x => !decide (32 * lo ≤ x.1 ∧ x.1 < 32 * (lo + n)))

/-- Registers in a range of offsets take their reset values. -/
def State.clearRegs (s : State) (lo n : Nat) : State := { s with regs := regClear s.regs lo n }

/-! ### Dropping staging -/

/-- Every staged register returns to its value in force (R519). -/
def dropRegs (regs force : RegFile) : RegFile :=
  force.foldl (fun r x => mput r x.1 x.2) (regs.filter (fun x => !stagedKey x.1))

/-- Staging is discarded: registers, the bank in STAGING, templates, flows and loaded keys (R346, R519) (DEDUCED, log entry 55). -/
def State.stageDrop (s : State) : State :=
  { s with
    regs := dropRegs s.regs s.force
    mas := { s.mas with banks := s.mas.banks.map (fun (b : Overlay) => if b.state = BankState.staging then Overlay.reset else b) }
    buf := { s.buf with tplStg := [] }
    led := { s.led with flowStg := [] }
    dge := { s.dge with slots := s.dge.slots.map (fun x =>
      (x.1, if x.2.staged then { x.2 with other := KeyBank.reset, staged := false } else x.2)) } }

/-! ### Readiness (spec/19_startup_fuses_update.md) -/

/-- The bytes of a slot (R569). -/
def State.slot (s : State) (k : Nat) : List Byte := if k = 0 then s.boot.slotA else s.boot.slotB

/-- n bytes of the serial NOR device from an offset: a byte not programmed is erased. -/
def norBytes (l : List Byte) (o n : Nat) : List Byte := (List.range n).map (fun k => l.getD (o + k) 0xFF)

/-- Bytes programmed into erased space at an offset. -/
def norPut (l : List Byte) (o : Nat) (v : List Byte) : List Byte := norBytes l 0 o ++ v ++ l.drop (o + v.length)

/-- READY is set; a trial image's timer starts (R329, R583). -/
def State.becomeReady (s : State) : State :=
  let t := leNat (norBytes (s.slot (s.rd R.BOOT_STAT_SLOT)) 20 2)
  let was := s.bit R.HIF_STAT_READY
  let s := s.put R.HIF_STAT_READY true
  if was = false ∧ s.bit R.BOOT_STAT_TRIAL ∧ t ≠ 0 then { s with boot := { s.boot with trialEnd := some (s.now + t * 1000000000 * unitsPerNs) } } else s

end Sys2Proof.Machine
end

