-- ==== Sys2Proof/Machine/Image.lean ====
section
/-! DEFINITION. Fuses, the serial NOR device, the Uriraon image and the journal (spec/19_startup_fuses_update.md R565 to R586): the
values in use, what makes an image valid, and how slot states are written. -/

namespace Sys2Proof.Machine

/-! ### Fuses (R565, R566, R585) -/

/-- The security version words. -/
def svWords : List Nat := (List.range 16).map (· + 40)

/-- The fused security version (R585) (DEDUCED, log entry 69). -/
def State.fusedSv (s : State) : Nat :=
  (svWords.map (fun i => if (s.fuse i).testBit 32 then s.fuse i % 2 ^ 32 else 0)).foldl max 0

/-- The free security version words, lowest first (R585, R586) (DEDUCED, log entry 69). -/
def State.svFree (s : State) : List Nat :=
  svWords.filter (fun i => s.fuse i == 0 && !s.fuseBad i && !s.boot.spent.testBit i)

/-- MGC programs the lowest free word with a security version; the first `marginal` words tried stay marginal (R586) (DEDUCED, log entry 69). -/
def State.raiseSv (s : State) (sv marginal : Nat) : State :=
  let l := s.svFree
  let bad := l.take marginal
  let s := bad.foldl (fun s i => { s with boot := { s.boot with spent := setBitAt s.boot.spent i true } }.log 0xA4 i) s
  match l.drop marginal with
  | [] => s.put R.BOOT_STAT_SV_FULL true
  | i :: _ =>
    let s := { s with boot := { s.boot with fuse := mput s.boot.fuse i (sv % 2 ^ 32 + 2 ^ 32) } }.log 0xA4 i
    s.wr R.FUSED_SV s.fusedSv

/-! ### ECDSA over P-256 (R573) -/

/-- The prime, the order and the coefficient b of P-256 (PRESUMED, log entry 13). -/
def p256 : Nat := 2 ^ 256 - 2 ^ 224 + 2 ^ 192 + 2 ^ 96 - 1
def n256 : Nat := 0xFFFFFFFF00000000FFFFFFFFFFFFFFFFBCE6FAADA7179E84F3B9CAC2FC632551
def b256 : Nat := 0x5AC635D8AA3A93E7B3EBBD55769886BC651D06B0CC53B0F63BCE3C3E27D2604B
/-- The base point of P-256 (PRESUMED, log entry 13). -/
def g256 : Nat × Nat := (0x6B17D1F2E12C4247F8BCE6E563A440F277037D812DEB33A0F4A13945D898C296,
  0x4FE342E2FE1A7F9B8EE7EB4A7C0F9E162BCE33576B315ECECBB6406837BF51F5)

/-- x to a power of w bits, modulo m. -/
def powMod (m : Nat) : Nat → Nat → Nat → Nat
  | 0, _, _ => 1 % m
  | w + 1, x, e =>
    let r := powMod m w (x * x % m) (e / 2)
    if e % 2 = 1 then r * x % m else r

/-- The inverse modulo a prime. -/
def invMod (m x : Nat) : Nat := powMod m 256 (x % m) (m - 2)

/-- The sum of two points of P-256; none is the point at infinity. -/
def addPt : Option (Nat × Nat) → Option (Nat × Nat) → Option (Nat × Nat)
  | none, q => q
  | p, none => p
  | some (x1, y1), some (x2, y2) =>
    let m := p256
    if x1 = x2 ∧ (y1 + y2) % m = 0 then none
    else
      let l := if x1 = x2 then 3 * (x1 * x1 + m - 1) * invMod m (2 * y1) % m
        else (y2 + m - y1) * invMod m (x2 + m - x1) % m
      let x3 := (l * l + 2 * m - x1 - x2) % m
      some (x3, (l * (x1 + m - x3) + m - y1) % m)

/-- A multiple of a point by a number of w bits. -/
def mulPt : Nat → Nat → Option (Nat × Nat) → Option (Nat × Nat)
  | 0, _, _ => none
  | w + 1, k, p =>
    let r := mulPt w (k / 2) (addPt p p)
    if k % 2 = 1 then addPt r p else r

/-- A public key is a point of the curve. -/
def onCurve (x y : Nat) : Bool :=
  decide (x < p256 ∧ y < p256) && y * y % p256 == (x * x * x + (p256 - 3) * x + b256) % p256

/-- SIG is a valid signature of a digest under a public key, by FIPS 186-5 (R573). -/
def ecdsaValid (x y e r v : Nat) : Bool :=
  if onCurve x y = false ∨ r = 0 ∨ n256 ≤ r ∨ v = 0 ∨ n256 ≤ v then false
  else
    let w := invMod n256 v
    match addPt (mulPt 256 (e * w % n256) (some g256)) (mulPt 256 (r * w % n256) (some (x, y))) with
    | none => false
    | some (a, _) => a % n256 == r

/-! ### The image (R572 to R575) -/

/-- A number in n bytes of an image, least significant first. -/
def norNat (l : List Byte) (o n : Nat) : Nat := leNat (norBytes l o n)

/-- A segment: its type, offset, length and destination. -/
structure Seg where
  kind : Nat
  off : Nat
  len : Nat
  dest : Nat
  deriving DecidableEq, Repr

/-- The segments of an image. -/
def segments (l : List Byte) : List Seg :=
  (List.range (norNat l 6 2)).map (fun k =>
    ⟨norNat l (64 + 16 * k) 1, norNat l (68 + 16 * k) 4, norNat l (72 + 16 * k) 4, norNat l (76 + 16 * k) 4⟩)

/-- What is loaded into MGC SRAM: the MGC segments of an image, each at its destination (R580). -/
def mgcSegments (l : List Byte) : List (Nat × List Byte) :=
  ((segments l).filter (fun g => g.kind == 1 || g.kind == 2)).map (fun g => (g.dest, norBytes l g.off g.len))

/-- No two of some ranges overlap. -/
def disjoint : List (Nat × Nat) → Bool
  | [] => true
  | (a, n) :: t => t.all (fun x => decide (a + n ≤ x.1 ∨ x.1 + x.2 ≤ a ∨ n = 0 ∨ x.2 = 0)) && disjoint t

/-- An image is well formed (R572). -/
def wellFormed (l : List Byte) : Bool :=
  let len := norNat l 8 4
  let n := norNat l 6 2
  let segs := segments l
  let mgc := segs.filter (fun g => g.kind == 1 || g.kind == 2)
  norBytes l 0 4 == [0x55, 0x52, 0x49, 0x52] && norNat l 4 2 == 1 && norNat l 24 2 == 0x6416
    && norNat l 60 4 == crc32c (norBytes l 0 60) && norNat l 22 2 == 0 && (norBytes l 26 34).all (· == 0)
    && decide (276 ≤ len ∧ len ≤ 3145728 ∧ len % 4 = 0) && decide (1 ≤ n ∧ n ≤ 16)
    && segs.all (fun g => decide (64 + 16 * n ≤ g.off ∧ g.off + g.len + 132 ≤ len))
    && disjoint (segs.map (fun g => (g.off, g.len)))
    && segs.all (fun g => decide (1 ≤ g.kind ∧ g.kind ≤ 4))
    && (segs.filter (fun g => g.kind == 1)).length == 1 && decide ((segs.filter (fun g => g.kind == 3)).length ≤ 1)
    && mgc.all (fun g => decide (g.dest + g.len ≤ 524288)) && disjoint (mgc.map (fun g => (g.dest, g.len)))

/-- The fused hash of a root key, where the key is usable and not revoked (R566). -/
def State.rootHash (s : State) (k : Nat) : Option (List Byte) :=
  let words := (List.range 5).map (fun i => 5 + 5 * k + i)
  if words.any s.fuseBad ∨ words.all (fun i => s.fuse i == 0) ∨ (s.fuse 1).testBit (5 + k) then none
  else some ((words.flatMap (fun i => leBytes 7 (s.fuse i))).take 32)

/-- An image is authentic (R573). -/
def State.authentic (s : State) (l : List Byte) : Bool :=
  let len := norNat l 8 4
  let pub := norBytes l (len - 128) 64
  let sig := norBytes l (len - 64) 64
  let k := norNat l (len - 132) 4
  decide (k ≤ 1) && s.rootHash k == some (sha 1 pub)
    && ecdsaValid (beNat (pub.take 32)) (beNat (pub.drop 32)) (beNat (sha 1 (norBytes l 0 (len - 128))))
      (beNat (sig.take 32)) (beNat (sig.drop 32))

/-- The security version of an image. -/
def imageSv (l : List Byte) : Nat := norNat l 12 4

/-- Signature and rollback checks are required (R566, R575). -/
def State.secure (s : State) : Bool := (s.fuse 1).testBit 0

/-- An image passes rollback (R574, R575). -/
def State.passesRollback (s : State) (sv : Nat) : Bool := !s.secure || decide (s.fusedSv ≤ sv)

/-- An image is well formed and, where signatures are required, authentic (R575). -/
def State.genuine (s : State) (l : List Byte) : Bool := wellFormed l && (!s.secure || s.authentic l)

/-- An image is valid (R575). -/
def State.imageValid (s : State) (l : List Byte) : Bool := s.genuine l && s.passesRollback (imageSv l)

/-! ### Access to the serial NOR device (R569, R570) -/

/-- A command to the serial NOR device, and the status poll that follows it. -/
def State.norDo (s : State) (op addr : Nat) (bytes : List Byte) : State :=
  (s.emit (.nor op addr bytes)).emit (.nor s.boot.nor.poll 0 [])

/-- Bytes are programmed at an offset, page by page; n bounds the pages. -/
def State.norProgram (s : State) (addr : Nat) : Nat → List Byte → State
  | 0, _ => s
  | n + 1, l =>
    if l = [] then s
    else
      let k := max s.boot.nor.page 1 - addr % max s.boot.nor.page 1
      (s.norDo s.boot.nor.program addr (l.take k)).norProgram (addr + k) n (l.drop k)

/-- n 4 KiB sectors are erased from an offset. -/
def State.norErase (s : State) (addr n : Nat) : State :=
  (List.range n).foldl (fun s k => s.norDo s.boot.nor.erase (addr + 4096 * k) []) s

/-- Where slot k begins (R569). -/
def slotBase (k : Nat) : Nat := 0x010000 + 0x300000 * k

/-! ### The journal (R577, R578) -/

/-- A journal entry: its SEQ, the states of both slots, TRIALS and the security versions. -/
structure Jnl where
  seq : Nat
  a : Nat
  b : Nat
  trials : Nat
  svA : Nat
  svB : Nat
  deriving DecidableEq, Repr

/-- A record before its CRC. -/
def jnlHead (kind seq : Nat) (rest : List Byte) : List Byte :=
  [0x55, 0x4A, BitVec.ofNat 8 kind, 0] ++ leBytes 4 seq ++ rest

/-- The first and the second record of an entry (R578). -/
def jnlFirst (j : Jnl) : List Byte :=
  let r := jnlHead 1 j.seq ([BitVec.ofNat 8 (j.a + 16 * j.b), BitVec.ofNat 8 j.trials, 0, 0] ++ leBytes 4 j.svA ++ leBytes 4 j.svB
    ++ List.replicate 8 0)
  r ++ leBytes 4 (crc32c r)
def jnlSecond (j : Jnl) : List Byte :=
  let r := jnlHead 2 j.seq (leBytes 4 (crc32c ((jnlFirst j).take 28)) ++ List.replicate 16 0)
  r ++ leBytes 4 (crc32c r)

/-- The entry at position k of a sector, where it is valid. -/
def jnlAt (l : List Byte) (k : Nat) : Option Jnl :=
  let r := norBytes l (64 * k) 32
  let t := norBytes l (64 * k + 32) 32
  let good (x : List Byte) (kind : Nat) : Bool :=
    x.take 3 == [0x55, 0x4A, BitVec.ofNat 8 kind] && x.drop 28 == leBytes 4 (crc32c (x.take 28))
  if good r 1 && good t 2 && sliceD r 4 4 == sliceD t 4 4 && sliceD t 8 4 == r.drop 28 then
    let w := norNat l (64 * k + 8) 1
    some ⟨norNat l (64 * k + 4) 4, w % 8, w / 16 % 8, norNat l (64 * k + 9) 1 % 4, norNat l (64 * k + 12) 4, norNat l (64 * k + 16) 4⟩
  else none

/-- The valid entries of the sectors that can be read, with their sector. -/
def State.jnlEntries (s : State) (bad : List (Fin 4)) : List (Nat × Jnl) :=
  ((if bad.contains 0 then [] else [(0, s.boot.j0)]) ++ (if bad.contains 1 then [] else [(1, s.boot.j1)])).flatMap
    (fun (x : Nat × List Byte) => (List.range 64).filterMap (fun k => (jnlAt x.2 k).map (fun j => (x.1, j))))

/-- The latest of some entries (DEDUCED, log entry 79). -/
def latest (l : List (Nat × Jnl)) : Option (Nat × Jnl) :=
  l.foldl (fun m x => match m with
    | some y => if y.2.seq < x.2.seq then some x else some y
    | none => some x) none

/-- The journal state: the latest entry's SEQ and security versions, with the slot states and TRIALS that the registers show. -/
def State.jnl (s : State) : Jnl :=
  let j := ((latest (s.jnlEntries [])).map (·.2)).getD ⟨0, 0, 0, 0, 0, 0⟩
  { j with a := s.rd R.UPD_STATE_A, b := s.rd R.UPD_STATE_B, trials := s.rd R.UPD_STATE_TRIALS }

/-- The slot states as the registers show them. -/
def State.showJnl (s : State) (j : Jnl) : State :=
  ((s.wr R.UPD_STATE_A j.a).wr R.UPD_STATE_B j.b).wr R.UPD_STATE_TRIALS j.trials

/-- Append an entry in the sector of the latest one, or erase the other sector and write its first position (R578). -/
def State.jnlAppend (s : State) (j : Jnl) : State :=
  let e := jnlFirst j ++ jnlSecond j
  let sec := ((latest (s.jnlEntries [])).map (·.1)).getD 0
  let cur := if sec = 0 then s.boot.j0 else s.boot.j1
  let hold (s : State) (x : Nat) (l : List Byte) : State :=
    { s with boot := if x = 0 then { s.boot with j0 := l } else { s.boot with j1 := l } }
  let put (s : State) (x k : Nat) (l : List Byte) : State :=
    ((hold s x (norPut l (64 * k) e)).norProgram (4096 * x + 64 * k) 32 (jnlFirst j)).norProgram (4096 * x + 64 * k + 32) 32 (jnlSecond j)
  match (List.range 64).find? (fun k => (norBytes cur (64 * k) 64).all (· == 0xFF)) with
  | some k => put s sec k cur
  | none => put (s.norErase (4096 * (1 - sec)) 1) (1 - sec) 0 []

/-- Each slot state that changes is logged (R580). -/
def State.logSlots (s : State) (old new : Jnl) : State :=
  let one (s : State) (k o n : Nat) : State := if o = n then s else s.log 0xA2 (k + 2 * o + 16 * n)
  one (one s 0 old.a new.a) 1 old.b new.b

/-- Slot states change by one journal entry (R578); where it cannot be written, they are shown as if it had been (R579) (DEDUCED, log entry 79). -/
def State.jnlWrite (s : State) (ok : Bool) (j : Jnl) : State :=
  let old := s.jnl
  let j := { j with seq := (old.seq + 1) % 2 ^ 32 }
  let s := if ok then (s.jnlAppend j).wr R.JNL_SEQ j.seq else s.put R.BOOT_STAT_JNL_ERR true
  (s.showJnl j).logSlots old j

/-- The state of a slot in an entry, and an entry with it changed. -/
def Jnl.get (j : Jnl) (k : Nat) : Nat := if k = 0 then j.a else j.b
def Jnl.set (j : Jnl) (k v : Nat) : Jnl := if k = 0 then { j with a := v } else { j with b := v }
def Jnl.sv (j : Jnl) (k : Nat) : Nat := if k = 0 then j.svA else j.svB
def Jnl.setSv (j : Jnl) (k v : Nat) : Jnl := if k = 0 then { j with svA := v } else { j with svB := v }

/-- The slot in a state, the lower first. -/
def Jnl.slotIn (j : Jnl) (v : Nat) : Option Nat := ([0, 1] : List Nat).find? (fun k => j.get k == v)

end Sys2Proof.Machine
end

