-- ==== Sys2Proof/Machine/Time.lean ====
section
/-! DEFINITION. Time domains, timed outputs and capture inputs (spec/14_network_time.md R396 to R425, R431). -/

namespace Sys2Proof.Machine

/-! ### Domains (R397 to R408) -/

/-- The values of 48 bits of seconds, in a domain's units (R397). -/
def tdWrap : Nat := 2 ^ 48 * 1000000000 * tdUnit

/-- Change a domain. -/
def State.modTd (s : State) (d : Nat) (g : TDom → TDom) : State := { s with td := lmod s.td d g }

/-- The segments of a domain that a stamp may reach, back to the first that began by an instant (R414). -/
def reachable (from_ : Nat) : List TSeg → List TSeg
  | [] => []
  | x :: t => if x.at_ ≤ from_ then [x] else x :: reachable from_ t

/-- A domain's value and slew are brought up to this instant, so that its rate, its slew, the slew rate or its validity may change (R398);
how it ran is kept for stamps of up to 65.5 µs before (R414) (DESIGN CHOICE, log entry 2). -/
def State.anchor (s : State) (d : Nat) : State :=
  let v := s.tdVal d s.now
  let left := s.adjLeft d
  s.modTd d (fun t => { t with
    val := v % tdWrap, at_ := s.now, adj := left, past := reachable (s.now - 65536 * unitsPerNs) (s.segNow d t :: t.past) })

/-- The state of a domain (R404). -/
def State.domState (s : State) (d : Nat) : Nat := s.rd (R.DOM_STAT_STATE d)

/-- A signed 40-bit rate from a LO and a HI register (R407). -/
def State.rate40 (s : State) (lo hi : Fld) : Int := toSigned 40 (s.rd64 lo hi)

/-- The rate in use: RATE, or HOLD_RATE in HOLDOVER (R398). -/
def State.rateInUse (s : State) (d : Nat) : Int :=
  if s.domState d = 2 then s.rate40 (R.HOLD_RATE_LO d) (R.HOLD_RATE_HI d) else s.rate40 (R.TD_RATE_LO d) (R.TD_RATE_HI d)

/-- A domain changes its state: VALID follows, the change is logged and TIME_d raised, and the rate in use follows (R404,
R406). -/
def State.toDomState (s : State) (d st : Nat) : State :=
  let old := s.domState d
  let s := ((s.anchor d).wr (R.DOM_STAT_STATE d) st).put (R.DOM_STAT_VALID d) (st != 0)
  let s := (s.log 0x58 (d + 4 * old + 16 * st)).raise (219 + d)
  let r := s.rateInUse d
  s.modTd d (fun t => { t with rate := r, holdTicks := 0 })

/-- HOLD_RATE over a history of rates: their mean truncated toward zero once there are 16 (R408). -/
def State.holdRate (s : State) (d : Nat) (h : List Int) : State :=
  let r := if h.length = 16 then ofSigned 40 ((h.foldl (· + ·) 0).tdiv 16) else 0
  let s := s.wr64 (R.HOLD_RATE_LO d) (R.HOLD_RATE_HI d) r
  (s.wr (R.DOM_STAT_SYNC_CNT d) h.length).put (R.DOM_STAT_RATE_UNTRAINED d) (decide (h.length < 16))

/-- TD_NS_READ (R402, R617): NS of this instant, and the reader's latches of SEC and the fraction from the same snapshot. -/
def State.tdNsRead (s : State) (rd : Reader) (d : Nat) : Nat × State :=
  let sec := s.tdSec d
  let frac := s.tdVal d s.now % tdUnit * 256 / tdUnit
  (s.tdNs d % 1000000000, ((s.setLatch rd (R.TD_SEC_LO d) (sec % 2 ^ 32)).setLatch rd (R.TD_SEC_HI d) (sec / 2 ^ 32)).setLatch rd
    (R.TD_FRAC d) frac)

def execTdNsRead (rd : Reader) (d : Dom) (s : State) : Host.Outcome State Fault Refusal :=
  .next (s.answer rd (match rd with
    | .tenant n => 0x1000000 * (n.val + 1) + 0xA000 + 16 * d.val
    | _ => (R.TD_NS d).off) (s.tdNsRead rd d))

/-- A write to a register of TU during a reset of TU is discarded (R431, R624). -/
def State.tuReject (s : State) (f : Fld) : State := s.reject f.off 7

/-- SYNC_TIMEOUT boundaries have passed in LOCKED with no rate write (R404, R406). -/
def State.syncDue (s : State) (d : Nat) : Bool :=
  s.domState d == 1 && decide (((s.td[d]?).map (·.sinceRate)).getD 0 ≥ s.rd (R.SYNC_TIMEOUT d))

/-- LOCKED ends for want of a rate (R404, R406). -/
def State.syncTimeout (s : State) (d : Nat) : State := if s.syncDue d then (s.toDomState d 2).inc (R.HOLDOVER_CNT d) else s

/-- HOLDOVER has lasted HOLD_MAX ticks: HOLD_RATE is copied into RATE, and the domain is FREE (R404, R406). -/
def State.holdExpire (s : State) (d : Nat) : State :=
  if s.domState d = 2 ∧ s.rd (R.HOLD_MAX d) ≠ 0 ∧ ((s.td[d]?).map (·.holdTicks)).getD 0 ≥ s.rd (R.HOLD_MAX d) then
    (s.wr64 (R.TD_RATE_LO d) (R.TD_RATE_HI d) (s.rd64 (R.HOLD_RATE_LO d) (R.HOLD_RATE_HI d))).toDomState d 0
  else s

/-- The changes of a domain that are due since a tick boundary come before a write (R399). -/
def State.domDue (s : State) (d : Nat) : State := (s.holdExpire d).syncTimeout d

/-- A rate is taken (R404, R407, R408): a sync interval, which also ends HOLDOVER. -/
def State.takeRate (s : State) (d n : Nat) : State :=
  let s := s.domDue d
  let r := toSigned 40 (n + 2 ^ 32 * s.rd (R.TD_RATE_HI d))
  if r.natAbs > 0x7A1200000 then s.reject (R.TD_RATE_LO d).off 1
  else
    let s := (s.anchor d).wr (R.TD_RATE_LO d) n
    let h := (r :: ((s.td[d]?).map (·.hist)).getD []).take 16
    let s := s.modTd d (fun t => { t with hist := h, sinceRate := 0 })
    let s := s.holdRate d h
    if s.domState d = 2 then s.toDomState d 1
    else
      let u := s.rateInUse d
      s.modTd d (fun t => { t with rate := u })

/-- TD_RATE_LO_WRITE (R407). -/
def execTdRateLoWrite (d : Dom) (v : Dword) (s : State) : Host.Outcome State Fault Refusal :=
  if s.tuUp = false then .next (s.tuReject (R.TD_RATE_LO d)) else .next (s.takeRate d v.toNat)

/-- SET_VALID is accepted (R405). -/
def State.maySetValid (s : State) (d : Nat) : Bool :=
  s.domState d == 0 && !s.bit (R.DOM_STAT_RATE_UNTRAINED d)
    && decide (((s.td[d]?).map (·.sinceRate)).getD 0 < s.rd (R.SYNC_TIMEOUT d))

/-- A write of 1 to SET_VALID (R405): no effect and no flag while the domain is valid. -/
def State.setValid (s : State) (d : Nat) : State :=
  let s := s.domDue d
  if s.domState d ≠ 0 then s
  else if s.maySetValid d then s.toDomState d 1
  else s.put (R.DOM_STAT_VALID_REFUSED d) true

def execSetValid (d : Dom) (s : State) : Host.Outcome State Fault Refusal :=
  if s.tuUp = false then .next (s.tuReject (R.TD_CTRL_SET_VALID d)) else .next (s.setValid d)

/-- A write of 1 to CLR_VALID (R404, R406, R408): RATE stays, the history of rates is emptied. -/
def State.clrValid (s : State) (d : Nat) : State :=
  let s := s.domDue d
  let s := if s.domState d = 0 then s else s.toDomState d 0
  (s.modTd d (fun t => { t with hist := [] })).holdRate d []

def execClrValid (d : Dom) (s : State) : Host.Outcome State Fault Refusal :=
  if s.tuUp = false then .next (s.tuReject (R.TD_CTRL_CLR_VALID d)) else .next (s.clrValid d)

/-- SYNC_TIMEOUT (R404, R406): in LOCKED, SYNC_TIMEOUT boundaries have passed with no rate write. -/
def execSyncTimeout (d : Dom) (s : State) : Host.Outcome State Fault Refusal := .next (s.syncTimeout d)

/-- HOLD_MAX_EXPIRE (R404, R406). -/
def execHoldMaxExpire (d : Dom) (s : State) : Host.Outcome State Fault Refusal := .next (s.holdExpire d)

/-! ### Timed outputs (R417 to R423) -/

/-- A timed output. -/
def State.out (s : State) (i : Nat) : Tout := s.tu.tout.getD i ⟨false, none, none, false⟩

/-- Change a timed output. -/
def State.modOut (s : State) (i : Nat) (g : Tout → Tout) : State := { s with tu := { s.tu with tout := lmod s.tu.tout i g } }

/-- The domain of a timed output. -/
def State.outDom (s : State) (i : Nat) : Nat := s.rd (R.TOUT_CFG_DOM i)

/-- An output misses an edge: MISS, whose level is source 225 (R419, R420, R422) (DEDUCED, log entry 38). -/
def State.outMiss (s : State) (i : Nat) : State :=
  s.setLevel (R.TOUT_CTRL_MISS i) 225 ((List.range 8).any (fun k => s.bit (R.TOUT_CTRL_MISS k)))

/-- The tick period in force, in ns (R40). -/
def State.periodNs (s : State) : Nat := s.period / unitsPerNs

/-- A tick-mode output fits a period (R418). -/
def State.tickFits (s : State) (i period : Nat) : Bool :=
  decide (s.rd (R.TOUT_PERIOD i) < period)
    && decide (64 * (s.rd (R.TOUT_PERIOD i) + s.rd (R.TOUT_WIDTH i)) ≤ 63 * period)

/-- TOUT_COMP in ns, signed (R421). -/
def State.outComp (s : State) (i : Nat) : Int := toSigned 16 (s.rd (R.TOUT_COMP i))

/-- The edge of a tick-mode output in the tick that runs (R417): PERIOD ns after its boundary. -/
def State.tickEdge (s : State) (i : Nat) : Nat := s.tick.start + s.rd (R.TOUT_PERIOD i) * unitsPerNs

/-- A TOUT_PERIOD that the mode reserves (R418): it is judged as ARM acts (R623). -/
def State.badPeriod (s : State) (i : Nat) : Bool :=
  (s.rd (R.TOUT_CFG_MODE i) == 2 && decide (s.rd (R.TOUT_PERIOD i) < 16))
    || (s.rd (R.TOUT_CFG_MODE i) == 4 && decide (s.rd (R.TOUT_PERIOD i) ≥ s.periodNs))

/-- A write of 1 to ARM (R418, R420): with a reserved period it is rejected, and a period that the refusals of R418 name too also
sets ARM_REFUSED (DEDUCED, log entry 38). -/
def State.outArm (s : State) (i : Nat) : State :=
  let mode := s.rd (R.TOUT_CFG_MODE i)
  let d := s.outDom i
  let start := s.rd64 (R.TOUT_START_LO i) (R.TOUT_START_HI i)
  let now := s.short d
  let ahead := (start + 2 ^ 40 - now) % 2 ^ 40
  let per := s.rd (R.TOUT_PERIOD i)
  let bad := (mode == 2 && decide (s.rd (R.TOUT_WIDTH i) ≥ per)) || (mode == 4 && !s.tickFits i s.periodNs)
  let arm (n : Option Nat) : State := (s.put (R.TOUT_CTRL_ARMED i) true).modOut i (fun o => { o with next := n })
  let s := if s.badPeriod i then s.reject (R.TOUT_CTRL_ARM i).off 1 else s
  if bad then s.put (R.TOUT_CTRL_ARM_REFUSED i) true
  else if s.badPeriod i then s
  else if mode = 1 ∨ mode = 3 then
    if inFuture start now then arm (some (s.tdNs d + ahead))
    else
      let s := (s.put (R.TOUT_CTRL_ARMED i) false).modOut i (fun o => { o with next := none })
      (s.outMiss i).inc (R.TOUT_SKIP_MISS_CNT i)
  else if mode = 2 then
    if inFuture start now then arm (some (s.tdNs d + ahead))
    else
      let past := 2 ^ 40 - ahead
      arm (some (s.tdNs d + ((past + per - 1) / max per 1 * per - past)))
  else if mode = 4 then arm (if s.tickEdge i > s.now then some (s.tickEdge i) else none)
  else arm none

/-- TOUT_ARM (R418). -/
def execToutArm (i : ToutPin) (s : State) : Host.Outcome State Fault Refusal :=
  if s.tuUp = false then .next (s.tuReject (R.TOUT_CTRL_ARM i)) else .next (s.outArm i)

/-- A write of 1 to DISARM (R418): the output is idle from the next cycle on. -/
def State.outDisarm (s : State) (i : Nat) : State :=
  ((s.upTo s.nextCycle).put (R.TOUT_CTRL_ARMED i) false).modOut i (fun o => { o with away := false, next := none, endAt := none })

/-- TOUT_DISARM (R418). -/
def execToutDisarm (i : ToutPin) (s : State) : Host.Outcome State Fault Refusal :=
  if s.tuUp = false then .next (s.tuReject (R.TOUT_CTRL_DISARM i)) else .next (s.outDisarm i)

/-- The pending edge of a sequence after the one just due (R417). -/
def State.outNext (s : State) (i : Nat) : Option Nat :=
  if s.rd (R.TOUT_CFG_MODE i) = 2 then ((s.out i).next).map (· + s.rd (R.TOUT_PERIOD i)) else none

/-- An edge is not driven (R422, R431): counted, and the end of a pulse or level output (DEDUCED, log entry 38). -/
def State.outSuppress (s : State) (i : Nat) (skip : Bool) : State :=
  let mode := s.rd (R.TOUT_CFG_MODE i)
  let s := if skip then s.inc (R.TOUT_SKIP i) else s
  let n := s.outNext i
  let s := s.modOut i (fun o => { o with next := n })
  if mode = 1 ∨ mode = 3 then (s.outMiss i).put (R.TOUT_CTRL_ARMED i) false else s

/-- An edge is driven now (R417, R421). -/
def State.outDrive (s : State) (i : Nat) : State :=
  let mode := s.rd (R.TOUT_CFG_MODE i)
  let n := s.outNext i
  if mode = 3 then
    let lvl := s.bit (R.TOUT_CFG_LEVEL i)
    (s.put (R.TOUT_CTRL_ARMED i) false).modOut i (fun o => { o with away := lvl, next := none })
  else
    s.modOut i (fun o => { o with away := true, next := n, endAt := some (s.now + s.rd (R.TOUT_WIDTH i) * unitsPerNs) })

/-- A pending edge falls: it is driven, or suppressed by a reset of TU, by REQ_VALID, or by Eclipse with cause 9 (R422, R431,
R605). -/
def State.outEdge (s : State) (i : Nat) : State :=
  let mode := s.rd (R.TOUT_CFG_MODE i)
  let invalid := s.bit (R.TOUT_CFG_REQ_VALID i)
    && (if mode = 4 then s.bit R.TICK_STAT_TICK_UNSYNCED else !s.tdValid (s.outDom i))
  if (s.out i).idle then s.modOut i (fun o => { o with next := none })
  else if s.tuUp = false then s.outSuppress i (mode == 2 || mode == 4)
  else if invalid then s.outSuppress i true
  else s.outDrive i

/-- The first cycle of the 250 MHz time clock at or after an instant (R396, R421). -/
def timeClock (t : Nat) : Nat := ceilDiv t 256 * 256

/-- The instant at which a pending edge is driven: the first cycle of the time clock at or after target − TOUT_COMP (R421). -/
def State.outInstant (s : State) (i n : Nat) : Nat :=
  let comp := s.outComp i
  timeClock (if s.rd (R.TOUT_CFG_MODE i) = 4 then ((n : Int) - comp * 64).toNat
    else s.tdWhen (s.outDom i) ((((n : Int) - comp).toNat) * tdUnit))

/-- TOUT_EDGE (R417, R421). -/
def execToutEdge (i : ToutPin) (s : State) : Host.Outcome State Fault Refusal :=
  match (s.out i).next with
  | none => .next s
  | some n => .next ((s.upTo (s.outInstant i n)).outEdge i)

/-- TOUT_PULSE_END (R417): WIDTH ns of the local time base after the edge, the output returns to idle; a pulse output disarms. -/
def execToutPulseEnd (i : ToutPin) (s : State) : Host.Outcome State Fault Refusal :=
  match (s.out i).endAt with
  | none => .next s
  | some t =>
    let s := (s.upTo t).modOut i (fun o => { o with away := false, endAt := none })
    .next (if s.rd (R.TOUT_CFG_MODE i) = 1 then s.put (R.TOUT_CTRL_ARMED i) false else s)

/-- A step or set of a domain passes the pending edge of an output (R423): it is driven in the cycle after it, at an instant, and the further instances of a
periodic output that the step passed are counted; an edge that is no more in the future has come (R401). -/
def State.outPassed (s : State) (at_ d i : Nat) : State :=
  let mode := s.rd (R.TOUT_CFG_MODE i)
  match (s.out i).next with
  | none => s
  | some n =>
    if mode = 0 ∨ mode = 4 ∨ s.outDom i ≠ d ∨ inFuture n (s.short d) then s
    else
      let s := ((s.upTo at_).put (R.TOUT_CTRL_STEPPED i) true).outEdge i
      let per := max (s.rd (R.TOUT_PERIOD i)) 1
      match (s.out i).next with
      | none => s
      | some m =>
        if inFuture m (s.short d) then s
        else
          let behind := (s.short d + 2 ^ 40 - m % 2 ^ 40) % 2 ^ 40
          let k := ceilDiv behind per
          (s.add (R.TOUT_SKIP i) k).modOut i (fun o => { o with next := some (s.tdNs d + (k * per - behind)) })

/-- The outputs after a step or set of a domain (R423) (DEDUCED, log entry 38). -/
def State.outsPassed (s : State) (d : Nat) : State := (List.range 8).foldl (fun a i => a.outPassed s.nextCycle d i) s

/-- A tick boundary for the tick-mode outputs (R417). -/
def State.outsTick (s : State) : State :=
  (List.range 8).foldl (fun s i =>
    if s.rd (R.TOUT_CFG_MODE i) = 4 ∧ s.bit (R.TOUT_CTRL_ARMED i) then
      let e := s.tickEdge i
      s.modOut i (fun o => { o with next := if o.idle then none else some e })
    else s) s

/-- The armed tick-mode outputs under a new tick period (R419). -/
def State.outsPeriod (s : State) : State :=
  (List.range 8).foldl (fun s i =>
    if s.rd (R.TOUT_CFG_MODE i) = 4 ∧ s.bit (R.TOUT_CTRL_ARMED i) then
      if s.tickFits i s.periodNs then
        let e := s.tickEdge i
        s.modOut i (fun o => { o with next := if o.idle then none else some e })
      else
        let s := (s.put (R.TOUT_CTRL_ARMED i) false).modOut i (fun o => { o with next := none })
        ((s.put (R.TOUT_CTRL_ARM_REFUSED i) true).outMiss i).inc (R.TOUT_SKIP_MISS_CNT i)
    else s) s

/-! ### Corrections and sets (R409 to R413) -/

/-- GUARD refuses a correction of a signed size (R411). -/
def State.guardHit (s : State) (d : Nat) (amount : Int) : State :=
  let sat := max (-(2 ^ 31 : Int)) (min amount (2 ^ 31 - 1))
  (((((s.put (R.DOM_STAT_GUARD_HIT d) true).inc (R.GUARD_CNT d)).wr (R.GUARD_LAST d) (ofSigned 32 sat)).log 0x59 d).raise (219 + d))

/-- GUARD applies to a correction (R411). -/
def State.guards (s : State) (d : Nat) (amount : Int) (force : Bool) : Bool :=
  s.bit (R.TD_CFG_POLICY d) && s.tdValid d && !force && decide (amount.natAbs > s.rd (R.GUARD_LIMIT d))

/-- Step a domain by a signed number of ns (R409) (DEDUCED, log entry 38). -/
def State.tdStep (s : State) (d : Nat) (n : Int) : State :=
  let s := s.anchor d
  (s.modTd d (fun t => { t with val := (((t.val : Int) + n * tdUnit) % tdWrap).toNat })).outsPassed d

/-- Add a signed number of ns to what a slew has left (R409). -/
def State.tdSlew (s : State) (d : Nat) (n : Int) : State :=
  let s := (s.anchor d).modTd d (fun t => { t with adj := t.adj + n * tdUnit })
  s.put (R.DOM_STAT_SLEWING d) (decide (s.adjLeft d ≠ 0))

/-- A write of TD_ADJ (R409, R411): it acts in the cycle after. -/
def State.tdAdj (s : State) (d n : Nat) (slew : Bool) : State :=
  let x := toSigned 32 n
  let t := s
  let s := s.upTo s.nextCycle
  if x = 0 then t
  else if s.guards d x (s.bit (R.TD_ADJ_CTRL_FORCE d)) then s.guardHit d x
  else if slew then s.tdSlew d x else s.tdStep d x

/-- TD_ADJ_STEP (R409): a write of TD_ADJ with MODE 0. -/
def execTdAdjStep (d : Dom) (v : Dword) (s : State) : Host.Outcome State Fault Refusal :=
  if s.bit (R.TD_ADJ_CTRL_MODE d) then .next s
  else if s.tuUp = false then .next (s.tuReject (R.TD_ADJ d))
  else .next (s.tdAdj d v.toNat false)

/-- TD_ADJ_SLEW (R409): a write of TD_ADJ with MODE 1. -/
def execTdAdjSlew (d : Dom) (v : Dword) (s : State) : Host.Outcome State Fault Refusal :=
  if s.bit (R.TD_ADJ_CTRL_MODE d) = false then .next s
  else if s.tuUp = false then .next (s.tuReject (R.TD_ADJ d))
  else .next (s.tdAdj d v.toNat true)

/-- SLEW_DONE (R409): the slew ends exactly at 0. -/
def execSlewDone (d : Dom) (s : State) : Host.Outcome State Fault Refusal :=
  if s.adjLeft d = 0 ∧ s.bit (R.DOM_STAT_SLEWING d) = false then .next s
  else
    let s := s.upTo (s.now + ceilDiv (s.adjLeft d).natAbs (max (s.rd (R.SLEW_PPB d) * 65536) 1))
    .next ((s.anchor d).put (R.DOM_STAT_SLEWING d) false)

/-- A domain takes a whole time in ns in the cycle after, and its slew ends, unless GUARD refuses (R410, R411) (DEDUCED, log entry 38). -/
def State.tdSet (s : State) (d ns : Nat) (force : Bool) : State :=
  let s := s.upTo s.nextCycle
  let diff : Int := (ns : Int) - (s.tdNs d % (2 ^ 48 * 1000000000) : Nat)
  if s.guards d diff force then s.guardHit d diff
  else
    let s := s.anchor d
    let s := (s.modTd d (fun t => { t with val := ns * tdUnit % tdWrap, adj := 0 })).put (R.DOM_STAT_SLEWING d) false
    s.outsPassed d

/-- The time that the set registers of a domain name, in ns (R410). -/
def State.setTime (s : State) (d : Nat) : Nat :=
  s.rd64 (R.TD_SET_SEC_LO d) (R.TD_SET_SEC_HI d) * 1000000000 + s.rd (R.TD_SET_NS d)

/-- SET_GO (R410): FORCE is written with it. -/
def execSetGo (d : Dom) (force : Bool) (s : State) : Host.Outcome State Fault Refusal :=
  if s.tuUp = false then .next (s.tuReject (R.TD_CTRL_SET_GO d))
  else
    let s := s.put (R.TD_CTRL_SET_FORCE d) force
    .next (s.tdSet d (s.setTime d) force)

/-- TU_SNAP (R403): both domains and TICK_NUM in one cycle. -/
def State.tuSnap (s : State) : State :=
  let dom (s : State) (d : Nat) : State :=
    ((s.wr (R.SNAP (3 * d)) (s.tdNs d % 1000000000)).wr (R.SNAP (3 * d + 1)) (s.tdSec d % 2 ^ 32)).wr (R.SNAP (3 * d + 2))
      (s.tdSec d / 2 ^ 32)
  ((dom (dom s 0) 1).wr (R.SNAP 6) (s.tickNum % 2 ^ 32)).wr (R.SNAP 7) (s.tickNum / 2 ^ 32)

def execTuSnap (s : State) : Host.Outcome State Fault Refusal :=
  if s.tuUp = false then .next (s.tuReject R.TU_SNAP) else .next s.tuSnap

/-! ### Queues of stamps (R415, R416, R424, R425) -/

/-- TCAP_EDGE (R424, R425, R431): an edge at the input, and how long its new level lasts in ns. -/
def execTcapEdge (j : TcapPin) (rising : Bool) (width : Nat) (s : State) : Host.Outcome State Fault Refusal :=
  let sel := s.rd (R.TCAP_CFG_EDGE j)
  let fil := s.rd (R.TCAP_CFG_FILTER j)
  if (if rising then sel % 2 = 0 else sel / 2 = 0) ∨ width < (fil + 1) * 4 then .next s
  else if s.tuUp = false ∨ (s.tu.tcap.getD j []).length ≥ 8 then .next (s.inc (R.TCAP_LOST j))
  else
    let x := s.stampAt (4 * (timeClock s.now : Int) - 256 * toSigned 16 (s.rd (R.TCAP_CFG_COMP j)))
    let b (c : Bool) (k : Nat) : Nat := if c then 2 ^ k else 0
    let ns (v : Nat) : Nat := v / tdUnit % 1000000000
    let sec (v : Nat) : Nat := v / tdUnit / 1000000000 % 2 ^ 48
    let w := [1 + b rising 1 + b x.v0 2 + b x.v1 3, ns x.td0, sec x.td0 % 2 ^ 32, sec x.td0 / 2 ^ 32 + 2 ^ 16 * (s.tick.num % 2 ^ 16),
      ns x.td1, sec x.td1 % 2 ^ 32, sec x.td1 / 2 ^ 32, 0]
    let was := !(s.tu.tcap.getD j []).isEmpty
    let s := { s with tu := { s.tu with tcap := lmod s.tu.tcap j (· ++ [w]) } }.timeQueued (8 + j)
    let s := s.wr (R.TCAP_COUNT j) (s.tu.tcap.getD j []).length
    .next (if was then s else s.arrive (221 + j) false)

/-- The words W1 to W7 of a removed entry go to the reader's latches (R416, R617). -/
def State.latchWords (s : State) (rd : Reader) (f : Nat → Fld) (w : List Nat) : State :=
  (List.range 7).foldl (fun s k => s.setLatch rd (f (k + 1)) (w.getD (k + 1) 0)) s

/-- A read of W0 of a stamp queue, of which an entry added in the same cycle is not returned (R416). -/
def State.tsqRead (s : State) (rd : Reader) (p : Nat) : Nat × State :=
  let l := s.tu.tsq.getD p []
  match (if l.length ≤ mgetD s.cyc.queues p 0 then [] else l) with
  | [] => (0, s)
  | w :: t =>
    let s := { s with tu := { s.tu with tsq := lmod s.tu.tsq p (fun _ => t) } }
    (w.headD 0, (s.wr (R.TSQ_COUNT p) t.length).latchWords rd (R.TSQ_W p) w)

/-- A read of W0 of a capture queue (R416, R425). -/
def State.tcapRead (s : State) (rd : Reader) (j : Nat) : Nat × State :=
  let l := s.tu.tcap.getD j []
  match (if l.length ≤ mgetD s.cyc.queues (8 + j) 0 then [] else l) with
  | [] => (0, s)
  | w :: t =>
    let s := { s with tu := { s.tu with tcap := lmod s.tu.tcap j (fun _ => t) } }
    (w.headD 0, (s.wr (R.TCAP_COUNT j) t.length).latchWords rd (R.TCAP_W j) w)

def execTsqW0Read (rd : Reader) (p : Port) (s : State) : Host.Outcome State Fault Refusal :=
  .next (s.ownerAnswer rd (R.TSQ_W p 0).off (s.tsqRead rd p))

def execTcapW0Read (rd : Reader) (j : TcapPin) (s : State) : Host.Outcome State Fault Refusal :=
  .next (s.ownerAnswer rd (R.TCAP_W j 0).off (s.tcapRead rd j))

end Sys2Proof.Machine
end

