-- ==== Sys2Proof/Machine/Calendar.lean ====
section
/-! DEFINITION. TAI, the UTC offset, leap seconds and the civil calendar (spec/14_network_time.md R426 to R430). -/

namespace Sys2Proof.Machine

/-! ### Gregorian dates (R428) -/

/-- A leap year (R428). -/
def leapYear (y : Nat) : Bool := (y % 4 == 0 && y % 100 != 0) || y % 400 == 0

/-- Days of a year. -/
def yearDays (y : Nat) : Nat := if leapYear y then 366 else 365

/-- Days of a month. -/
def monthDays (y m : Nat) : Nat :=
  match m with
  | 2 => if leapYear y then 29 else 28
  | 4 | 6 | 9 | 11 => 30
  | _ => 31

/-- Days from 1970-01-01 to 2000-01-01. -/
def days2000 : Nat := 10957

/-- Days from 2000-01-01 to the first day of a year. -/
def daysToYear : Nat → Nat
  | 0 => 0
  | n + 1 => daysToYear n + yearDays (2000 + n)

/-- Days from the first day of a year to the first of a month. -/
def daysToMonth (y : Nat) : Nat → Nat
  | 0 => 0
  | m + 1 => daysToMonth y m + (if m = 0 then 0 else monthDays y m)

/-- Days since 2000-01-01 of a date (R426). -/
def dayNum (y m d : Nat) : Nat := daysToYear (y - 2000) + daysToMonth y m + (d - 1)

/-- The year of a day since a year's first day, and the day in it. -/
def findYear : Nat → Nat → Nat → Nat × Nat
  | 0, y, d => (y, d)
  | n + 1, y, d => if d < yearDays y then (y, d) else findYear n (y + 1) (d - yearDays y)

/-- The month of a day of a year, and the day in it from 0. -/
def findMonth (y : Nat) : Nat → Nat → Nat → Nat × Nat
  | 0, m, d => (m, d)
  | n + 1, m, d => if d < monthDays y m then (m, d) else findMonth y n (m + 1) (d - monthDays y m)

/-- A civil date and time (R428). -/
structure Civil where
  year : Nat
  month : Nat
  day : Nat
  hour : Nat
  minute : Nat
  second : Nat
  deriving DecidableEq, Repr

/-- The civil date of a number of UTC seconds since 1970, from 2000 on. -/
def civilOf (u : Nat) : Civil :=
  let (y, d) := findYear 400 2000 (u / 86400 - days2000)
  let (m, k) := findMonth y 12 1 d
  ⟨y, m, k + 1, u / 3600 % 24, u / 60 % 60, u % 60⟩

/-! ### Leap seconds (R426, R427) -/

/-- TAI − UTC in seconds (R426) (DEDUCED, log entry 40). -/
def State.utcOffset (s : State) : Int := toSigned 16 (s.rd R.UTC_CFG_OFFSET)

/-- E of R427: the TAI second of 00:00:00 UTC on the day after UTC_LEAP_DAY, with the OFFSET in force (DEDUCED, log entry 40). -/
def State.leapE (s : State) : Int := ((days2000 + s.rd R.UTC_LEAP_DAY + 1) * 86400 : Nat) + s.utcOffset

/-- The TAI second at which the announced leap second applies (R427) (DEDUCED, log entry 40). -/
def State.leapAt (s : State) : Int := if s.bit R.UTC_CFG_LEAP61 then s.leapE + 1 else s.leapE - 1

/-- The announced leap second applies (R427). -/
def State.leapNow (s : State) : State :=
  if s.bit R.UTC_CFG_LEAP61 then
    ((s.wr R.UTC_CFG_OFFSET (ofSigned 16 (s.utcOffset + 1))).put R.UTC_CFG_LEAP61 false).log 0x5A 1
  else ((s.wr R.UTC_CFG_OFFSET (ofSigned 16 (s.utcOffset - 1))).put R.UTC_CFG_LEAP59 false).log 0x5A 0

/-- A leap second is announced. -/
def State.leapSet (s : State) : Bool := s.bit R.UTC_CFG_LEAP61 || s.bit R.UTC_CFG_LEAP59

/-- A flag whose day has passed while TD0 is VALID applies at once (R427). -/
def State.leapPassed (s : State) : State :=
  if s.leapSet ∧ s.tdValid 0 ∧ (s.tdSec 0 : Int) ≥ s.leapAt then s.leapNow else s

/-- LEAP_APPLY (R427): TD0 reaches the second of the leap; while TD0 is not VALID the flag waits. -/
def execLeapApply (s : State) : Host.Outcome State Fault Refusal :=
  if s.leapSet ∧ s.tdValid 0 then .next ((s.upTo (s.tdWhen 0 (s.leapAt.toNat * 1000000000 * tdUnit))).leapNow)
  else .next s

/-! ### The converter (R428 to R430) -/

/-- The civil time of a TAI second, or none out of range (R427, R429) (DEDUCED, log entry 40). -/
def State.toCivil (s : State) (tai : Nat) : Option Civil :=
  let x : Int := tai
  let e := s.leapE
  let six := s.bit R.UTC_CFG_LEAP61 && decide (x = e)
  let shift : Int :=
    if s.bit R.UTC_CFG_LEAP61 && decide (x ≥ e) then 1
    else if s.bit R.UTC_CFG_LEAP59 && decide (x ≥ e - 1) then -1 else 0
  let u := x - s.utcOffset - shift
  if u < (days2000 * 86400 : Nat) ∨ u ≥ ((days2000 + 146097) * 86400 : Nat) then none
  else
    let c := civilOf u.toNat
    some (if six then { c with second := 60 } else c)

/-- The date fields take a civil time, or read 0 out of range (R429). -/
def State.putDate (s : State) (c : Option Civil) : State :=
  let s := s.put R.CAL_STAT_DONE true
  match c with
  | some c =>
    (s.wr R.CAL_DATE0 (c.year + 2 ^ 12 * c.month + 2 ^ 16 * c.day)).wr R.CAL_DATE1
      (c.hour + 2 ^ 8 * c.minute + 2 ^ 16 * c.second)
  | none => ((s.wr R.CAL_DATE0 0).wr R.CAL_DATE1 0).put R.CAL_STAT_RANGE true

/-- The date fields. -/
def State.date (s : State) : Civil :=
  let a := s.rd R.CAL_DATE0
  let b := s.rd R.CAL_DATE1
  ⟨a % 2 ^ 12, a / 2 ^ 12 % 2 ^ 4, a / 2 ^ 16 % 2 ^ 5, b % 2 ^ 5, b / 2 ^ 8 % 2 ^ 6, b / 2 ^ 16 % 2 ^ 6⟩

/-- A date is possible (R430) (DEDUCED, log entry 40). -/
def State.possible (s : State) (c : Civil) : Bool :=
  let leapDay := decide (1 ≤ c.day) && dayNum c.year c.month c.day == s.rd R.UTC_LEAP_DAY && c.hour == 23 && c.minute == 59
  decide (2000 ≤ c.year ∧ c.year ≤ 2399) && decide (1 ≤ c.month ∧ c.month ≤ 12)
    && decide (1 ≤ c.day ∧ c.day ≤ monthDays c.year c.month) && decide (c.hour ≤ 23) && decide (c.minute ≤ 59)
    && (decide (c.second ≤ 59) || (c.second == 60 && leapDay && s.bit R.UTC_CFG_LEAP61))
    && !(leapDay && c.second == 59 && s.bit R.UTC_CFG_LEAP59)

/-- The TAI seconds of a possible date (R430) (DEDUCED, log entry 40). -/
def State.taiOf (s : State) (c : Civil) : Int :=
  ((days2000 + dayNum c.year c.month c.day) * 86400 + c.hour * 3600 + c.minute * 60 + c.second : Nat) + s.utcOffset

/-- CAL_CTRL takes the operation and the domain written with GO (R428). -/
def State.calOp (s : State) (op : Nat) (d : Option Nat) : State :=
  let s := s.wr R.CAL_CTRL_OP op
  match d with
  | some d => s.wr R.CAL_CTRL_DOM d
  | none => s

/-- One operation of the converter (R428 to R430). -/
def State.calGo (s : State) : State :=
  let d := s.rd R.CAL_CTRL_DOM
  let c := s.date
  match s.rd R.CAL_CTRL_OP with
  | 0 => s.putDate (s.toCivil (s.tdSec d))
  | 1 => s.putDate (s.toCivil (s.rd64 R.CAL_SEC_LO R.CAL_SEC_HI))
  | 2 =>
    let s := s.put R.CAL_STAT_DONE true
    if s.possible c then s.wr64 R.CAL_SEC_LO R.CAL_SEC_HI (s.taiOf c % 2 ^ 48).toNat else s.put R.CAL_STAT_DATE_REJECT true
  | _ =>
    let s := s.put R.CAL_STAT_DONE true
    if s.possible c then s.tdSet d ((s.taiOf c % 2 ^ 48).toNat * 1000000000) (s.bit (R.TD_CTRL_SET_FORCE d))
    else s.put R.CAL_STAT_DATE_REJECT true

/-- CAL_TIME_TO_DATE (R428, R429): operation 0. -/
def execCalTimeToDate (d : Dom) (s : State) : Host.Outcome State Fault Refusal :=
  if s.tuUp = false then .next (s.tuReject R.CAL_CTRL_GO) else .next (s.calOp 0 (some d)).calGo

/-- CAL_SEC_TO_DATE (R428, R429): operation 1. -/
def execCalSecToDate (s : State) : Host.Outcome State Fault Refusal :=
  if s.tuUp = false then .next (s.tuReject R.CAL_CTRL_GO) else .next (s.calOp 1 none).calGo

/-- CAL_DATE_TO_SEC (R428, R430): operation 2. -/
def execCalDateToSec (s : State) : Host.Outcome State Fault Refusal :=
  if s.tuUp = false then .next (s.tuReject R.CAL_CTRL_GO) else .next (s.calOp 2 none).calGo

/-- CAL_DATE_SET (R428, R430): operation 3. -/
def execCalDateSet (d : Dom) (s : State) : Host.Outcome State Fault Refusal :=
  if s.tuUp = false then .next (s.tuReject R.CAL_CTRL_GO) else .next (s.calOp 3 (some d)).calGo

end Sys2Proof.Machine
end

