-- ==== Sys2Proof/Machine/Mdio.lean ====
section
/-! DEFINITION. The two MDIO masters (spec/04_port_macs.md, R149 to R154). -/

namespace Sys2Proof.Machine

/-- A master's channels. -/
def State.mdioOf (s : State) (m : Nat) : MdioState := s.mdio.getD m ⟨none, [], none, 0⟩

/-- Change a master's channels. -/
def State.modMdio (s : State) (m : Nat) (g : MdioState → MdioState) : State := { s with mdio := lmod s.mdio m g }

/-- A master is parked: by PARK, and in Night whatever PARK holds (R154) (DEDUCED, log entry 16). -/
def State.parked (s : State) (m : Nat) : Bool := s.bit (R.MDIO_CFG_PARK m) || decide (s.pm.phase = .night)

/-- The time that one attempt of a transaction takes, of its MDC cycles (R149, R151) (DEDUCED, log entry 16). -/
def State.mdioTime (s : State) (m : Nat) (t : MdioTx) : Nat :=
  let n := if t.clause = 1 ∧ (t.op = 1 ∨ t.op = 3) then 128 else 64
  (if s.bit (R.MDIO_CFG_PREAMBLE_SUPPRESS m) then n / 2 else n) * (s.rd (R.MDIO_CFG_DIV m) + 1) * 80 * unitsPerNs

/-- The frames of one attempt leave on MDC and MDIO (R151). -/
def State.mdioSend (s : State) (m : Nat) (t : MdioTx) : State :=
  (s.modMdio m (fun c => { c with since := s.now })).emit (.mdio m t.clause t.op t.phy t.reg t.addr t.data)

/-- An owner transaction completes: GO clears and DONE is set, with its source (R152, R153) (DEDUCED, log entry 16). -/
def State.mdioFinish (s : State) (m : Nat) : State :=
  (s.put (R.MDIO_CMD_GO m) false).setFlag (R.MDIO_STAT_DONE m) (217 + m)

/-- Whether a transaction reads (R151). -/
def MdioTx.reads (t : MdioTx) : Bool :=
  if t.clause = 0 then t.op == 2 else t.op == 3 || t.op == 2

/-! ### The PHY handshakes of MGC (R543, R551) -/

/-- A transaction on the PHY register of PHY_PM_ADDR of a port, in the clause of PHY_LOC: it writes a value, or reads (R149, R543). -/
def State.phyTx (s : State) (p : Nat) (w : Option Nat) : MdioTx :=
  let dev := s.rd (R.PHY_PM_ADDR_DEVAD p)
  let reg := s.rd (R.PHY_PM_ADDR_REG p)
  let prt := s.inf (R.PHY_LOC_PRTAD p)
  if s.inf (R.PHY_LOC_CL45 p) = 1 then ⟨1, if w.isSome then 1 else 3, prt, dev, reg, w.getD 0, 0⟩
  else ⟨0, if w.isSome then 1 else 2, prt, reg % 32, 0, w.getD 0, 0⟩

/-- The value of the handshake that runs. -/
def State.phyValue (s : State) (p : Nat) : Nat :=
  if s.pm.handWake then s.rd (R.PHY_PM_VAL_WAKE p) else s.rd (R.PHY_PM_VAL_SLEEP p)

/-- The handshake of a port is over; where its read-back never matched, its flag is set and code 0x93 logged (R543, R551, R560) (DEDUCED, log entry 68). -/
def State.handEnd (s : State) (p : Nat) (ok : Bool) : State :=
  let s : State := { s with pm := { s.pm with hand := setBitAt s.pm.hand p false } }
  let f := if s.pm.handWake then R.PHY_PM_STAT_WK_FAIL p else R.PHY_PM_STAT_SLP_FAIL p
  if ok then s
  else
    (s.setLevel f 246 ((List.range 6).any (fun q => s.bit (R.PHY_PM_STAT_SLP_FAIL q) || s.bit (R.PHY_PM_STAT_WK_FAIL q)))).log 0x93 p

/-- A transaction of MGC meets a parked master (R154, R525). -/
def State.mgcParked (s : State) (m : Nat) (k : Nat) : State :=
  if k ≥ 2 then if s.pm.hand.testBit (k - 2) then s.handEnd (k - 2) false else s
  else
    let s := (s.put (R.MDIO_STAT_FAIL m) true).setFlag (R.MDIO_STAT_DONE m) (217 + m)
    if s.con.serving = some (.mdio m) then s.conFinish (erReply 22 (txt "parked")) else s

/-! ### The channels (R150, R154) -/

/-- The master takes the next waiting transaction, alternating between its two channels (R150); `lastMgc` says whose ran
last. On a parked master each that waits ends with FAIL (R154) (DEDUCED, log entry 16). -/
def State.mdioNext (s : State) (m : Nat) (lastMgc : Bool) : State :=
  let c := s.mdioOf m
  match c.running with
  | some _ => s
  | none =>
    if s.parked m then
      let s := s.modMdio m (fun c => { c with owner := none, mgc := [] })
      let s := if c.owner.isSome then (s.put (R.MDIO_STAT_FAIL m) true).mdioFinish m else s
      c.mgc.foldl (fun s x => s.mgcParked m x.1) s
    else
      let own := c.owner.map (Prod.mk 0)
      match (if lastMgc then own <|> c.mgc.head? else c.mgc.head? <|> own) with
      | none => s
      | some (k, t) =>
        (s.modMdio m (fun c => { c with
          running := some (k, t)
          owner := if k = 0 then none else c.owner
          mgc := if k = 0 then c.mgc else c.mgc.drop 1 })).mdioSend m t

/-- The owner writes 1 to MDIO_CMD.GO (R151, R152, R154): ignored with GO_IGNORED while GO reads 1; on a parked master it completes
with FAIL. -/
def State.mdioGo (s : State) (m : Nat) (t : MdioTx) : State :=
  if s.bit (R.MDIO_CMD_GO m) then s.put (R.MDIO_STAT_GO_IGNORED m) true
  else
    let s := ((((s.wr (R.MDIO_CMD_CLAUSE m) t.clause).wr (R.MDIO_CMD_OP m) t.op).wr (R.MDIO_CMD_PHYAD m) t.phy).wr
      (R.MDIO_CMD_REGAD m) t.reg).put (R.MDIO_CMD_GO m) true
    if s.parked m then (s.put (R.MDIO_STAT_FAIL m) true).mdioFinish m
    else (s.modMdio m (fun c => { c with owner := some t })).mdioNext m true

/-- MGC puts a transaction on its own channel, after those that wait there (R150, R525, R543). -/
def State.mdioMgc (s : State) (m k : Nat) (t : MdioTx) : State :=
  (s.modMdio m (fun c => { c with mgc := c.mgc ++ [(k, t)] })).mdioNext m false

/-- A step of the handshake of a port goes to the master that PHY_LOC gives (R149, R543). -/
def State.phyStep (s : State) (p : Nat) (w : Option Nat) : State := s.mdioMgc (s.inf (R.PHY_LOC_BUS p)) (2 + p) (s.phyTx p w)

/-- MGC begins the handshake of the ports of a mask: it writes the value to each PHY (R543, R551); a halted MGC does nothing (R34) (DEDUCED, log entry 68). -/
def State.handStart (s : State) (ports : Nat) (wake : Bool) : State :=
  if s.mgcStopped then { s with pm := { s.pm with hand := 0 } }
  else
    let s : State := { s with pm := { s.pm with hand := ports, handAt := s.now, handWake := wake } }
    ((List.range 6).filter ports.testBit).foldl (fun s p => s.phyStep p (some (s.phyValue p))) s

/-- A transaction of a port's handshake has ended: after the write, and until 10 ms have passed, the register is read back until it equals
the value (R543, R551) (DEDUCED, log entry 68). -/
def State.handNext (s : State) (p : Nat) (t : MdioTx) (bad : Bool) (data : Nat) : State :=
  if s.pm.hand.testBit p = false then s
  else if s.mgcStopped then s.handEnd p true
  else if t.reads && !bad && data == s.phyValue p then s.handEnd p true
  else if t.reads && decide (s.pm.handAt + 10000000 * unitsPerNs ≤ s.now) then s.handEnd p false
  else s.phyStep p none

/-- The wake handshake of the PHYs that the sleep handshake handled (R551) (DEDUCED, log entry 68). -/
def State.wakePhys (s : State) : State :=
  let l := (List.range 6).filter (fun p => s.pm.slept.testBit p && s.bit (R.PHY_PM_ADDR_EN p))
  if s.pm.slept = 0 then s else
  { s with pm := { s.pm with slept := 0 } }.handStart (l.foldl (fun a p => setBitAt a p true) 0) true

/-! ### The end of an attempt (R153) -/

/-- MGC's transaction has ended: a console line that waits for it is answered, a handshake goes on (R525, R543) (DEDUCED, log entry 16). -/
def State.mgcDone (s : State) (m k : Nat) (t : MdioTx) (bad : Bool) (data : Nat) : State :=
  if k ≥ 2 then s.handNext (k - 2) t bad data
  else if s.con.serving = some (.mdio m) then
    s.conFinish (if bad then erReply 22 (txt "noack") else okReply (if t.reads then txt "0x" ++ hex 4 data else []))
  else s

/-- The attempt that runs on a master ends (R153): `acked` says whether the PHY drove the second turnaround bit to 0, and
`data` what it drove; on a master that has been parked meanwhile it fails, and is not repeated (R154) (DEDUCED, log entry 16). -/
def State.mdioDone (s : State) (m : Nat) (acked : Bool) (data : Nat) : State :=
  match (s.mdioOf m).running with
  | none => s
  | some (k, t) =>
    let s := s.upTo ((s.mdioOf m).since + s.mdioTime m t)
    let cut := s.parked m
    let bad := cut || (t.reads && !acked)
    let s := if bad && !cut then s.put (R.MDIO_STAT_NO_ACK m) true else s
    if bad && !cut && decide (t.tries < s.rd (R.MDIO_CFG_RETRY m)) then
      let t' := { t with tries := t.tries + 1 }
      (s.modMdio m (fun c => { c with running := some (k, t') })).mdioSend m t'
    else
      let s := s.modMdio m (fun c => { c with running := none })
      if cut && k != 0 then (s.mgcParked m k).mdioNext m true
      else
        let s := if bad then s.put (R.MDIO_STAT_FAIL m) true else s
        if k ≠ 0 then ((s.setFlag (R.MDIO_STAT_DONE m) (217 + m)).mgcDone m k t bad data).mdioNext m true
        else if bad && t.reads then
          let (v, s) := s.draw 16
          ((s.wr (R.MDIO_DATA_RDATA m) v).mdioFinish m).mdioNext m false
        else
          let s := if t.reads then s.wr (R.MDIO_DATA_RDATA m) data else s
          (s.mdioFinish m).mdioNext m false

/-- MDIO_C22_WRITE (R151). -/
def execMdioC22Write (m : MdioMaster) (phy reg : Fin 32) (data : BitVec 16) (s : State) :
    Host.Outcome State Fault Refusal :=
  .next ((s.wr (R.MDIO_DATA_WDATA m) data.toNat).mdioGo m ⟨0, 1, phy, reg, 0, data.toNat, 0⟩)

/-- MDIO_C22_READ (R151). -/
def execMdioC22Read (m : MdioMaster) (phy reg : Fin 32) (s : State) : Host.Outcome State Fault Refusal :=
  .next (s.mdioGo m ⟨0, 2, phy, reg, 0, 0, 0⟩)

/-- MDIO_C45_ADDRESS (R151). -/
def execMdioC45Address (m : MdioMaster) (prt dev : Fin 32) (addr : BitVec 16) (s : State) :
    Host.Outcome State Fault Refusal :=
  .next ((s.wr (R.MDIO_ADDR m) addr.toNat).mdioGo m ⟨1, 0, prt, dev, addr.toNat, 0, 0⟩)

/-- MDIO_C45_WRITE (R151). -/
def execMdioC45Write (m : MdioMaster) (prt dev : Fin 32) (addr data : BitVec 16) (s : State) :
    Host.Outcome State Fault Refusal :=
  .next (((s.wr (R.MDIO_ADDR m) addr.toNat).wr (R.MDIO_DATA_WDATA m) data.toNat).mdioGo m
    ⟨1, 1, prt, dev, addr.toNat, data.toNat, 0⟩)

/-- MDIO_C45_READ (R151). -/
def execMdioC45Read (m : MdioMaster) (prt dev : Fin 32) (addr : BitVec 16) (s : State) :
    Host.Outcome State Fault Refusal :=
  .next ((s.wr (R.MDIO_ADDR m) addr.toNat).mdioGo m ⟨1, 3, prt, dev, addr.toNat, 0, 0⟩)

/-- MDIO_C45_READ_INC (R151). -/
def execMdioC45ReadInc (m : MdioMaster) (prt dev : Fin 32) (s : State) : Host.Outcome State Fault Refusal :=
  .next (s.mdioGo m ⟨1, 2, prt, dev, 0, 0, 0⟩)

end Sys2Proof.Machine
end

