-- ==== Sys2Proof/Machine/HacCheck.lean ====
section
/-! DEFINITION. The static check and the costing of HAC programs (spec/08_henabin_action_code.md R270 to R276; R208): every path of a
program from its ENTRY. -/

namespace Sys2Proof.Machine

/-! ### One path (R274) -/

/-- What a register holds on a path, as far as the program text says: a constant, and whether LDI set it (R275). -/
abbrev Known := Option (Nat × Bool)

/-- An exit that a path names: a constant one, the RESULT of a lookup in a SPACE (none: in any), or one computed at run time. -/
inductive Named where
  | exit (dest sub : Nat)
  | found (space : Option Nat)
  | computed
  deriving DecidableEq, Repr

/-- A job on a path (R275): where it stands, its CRU unit (4 stands for DGE), the fold length or algorithm, HMAC, and the length
that LDI set in its range register. -/
structure PathJob where
  pc : Nat
  unit : Nat
  par : Nat
  hm : Bool
  m : Option Nat
  deriving DecidableEq, Repr

/-- A path as far as it has been followed: lane cycles of each part, lookups, exits, pending jobs, the words it lies on, and the
failures of R274 met (PC and rule). `sp` is the SPACE in force and `found` that of the latest LKX, none where it is not a constant;
`fixed` says that SPACE cannot change (R214). -/
structure Walk where
  pc : Nat
  n : Nat
  res : Bool
  cls : Nat
  rcyc : Nat
  ex : Nat
  tern : Nat
  exits : Nat
  flow : Bool
  g : List Known
  crcs : List (Nat × Nat)
  dig : Bool
  jobs : List PathJob
  base : Option Nat
  sp : Option Nat
  fixed : Bool
  found : Option (Option Nat)
  names : List Named
  words : List Nat
  fails : List (Nat × Nat)
  deriving DecidableEq, Repr

/-- A path at the ENTRY of a program. -/
def Walk.start (entry : Nat) (base : Option Nat) (fixed : Bool) : Walk :=
  ⟨entry, 0, false, 0, 0, 0, 0, 0, false, List.replicate 8 (some (0, false)), [], false, [], base, base, fixed, none, [], [], []⟩

/-- A failure is noted. -/
def Walk.fail (w : Walk) (rule : Nat) : Walk := { w with fails := w.fails ++ [(w.pc, rule)] }

/-- The registers that an instruction's register fields name (R251). -/
def regFields (i : Ins) : List Nat :=
  let v := if i.f3 = 1 then [] else [i.f4]
  let u := if i.f3 = 1 then [] else [i.f2]
  match i.op with
  | 0x10 | 0x11 | 0x12 | 0x13 | 0x30 | 0x31 => [i.f1]
  | 0x20 | 0x21 | 0x22 | 0x23 | 0x24 | 0x25 | 0x26 => [i.f1, i.f2] ++ v
  | 0x27 => [i.f2] ++ v
  | 0x28 => [i.f1] ++ v
  | 0x32 | 0x40 | 0x43 => u
  | 0x41 | 0x44 | 0x46 | 0x61 => [i.f2]
  | 0x50 => [i.f1, i.f2]
  | 0x60 => [i.f2, i.f4, i.imm % 16]
  | _ => []

/-- An instruction reads space D (R240). -/
def readsD (i : Ins) : Bool :=
  (i.op == 0x12 && i.f2 == 6) || (i.op == 0x14 && i.f1 == 6) || (i.op == 0x15 && (i.f1 == 6 || i.f2 == 6))

/-- Set what is known of a register (DEDUCED, log entry 52). -/
def Walk.know (w : Walk) (r : Nat) (v : Known) : Walk := { w with g := lmod w.g r (fun _ => v) }

/-- What is known of a register. -/
def Walk.known (w : Walk) (r : Nat) : Known := w.g.getD r none

/-- A path ends in a trap: in classification it keeps the one exit of R266 (R275). -/
def Walk.trap (w : Walk) : Walk := if w.res then w else { w with exits := 1, names := [] }

/-- The constant length of a range register (R275) (DEDUCED, log entry 52). -/
def Walk.rangeLen (w : Walk) (r : Nat) : Option Nat :=
  match w.known r with
  | some (v, true) => if v / 2 ^ 16 % 2 ^ 16 = 0 then none else some (v / 2 ^ 16 % 2 ^ 16)
  | _ => none

/-- One more exit named on a path, up to 8 (R275). -/
def Walk.name (w : Walk) (x : Named) : Walk := { w with exits := min (w.exits + 1) 8, names := w.names ++ [x] }

/-- What an instruction that does not end its path does to what is known of it (DEDUCED, log entry 52). -/
def Walk.effect (w : Walk) (i : Ins) : Walk :=
  let a := w.known i.f1
  let imm : Known := if i.f3 = 1 then some (i.imm, false) else none
  match i.op with
  | 0x02 => { w with
      res := true, g := (w.known 0) :: List.replicate 7 (some (0, false)), sp := w.base, found := none }
  | 0x10 => w.know i.f1 (some (i.imm, true))
  | 0x11 => w.know i.f1 (a.map (fun x => (x.1 % 2 ^ 32 + i.imm * 2 ^ 32, false)))
  | 0x12 | 0x20 | 0x21 | 0x22 | 0x23 | 0x24 | 0x25 | 0x26 => w.know i.f1 none
  | 0x28 => w.know i.f1 (if i.f3 = 1 then imm else (w.known i.f4).map (fun x => (x.1, false)))
  | 0x30 => { w.know i.f1 none with ex := w.ex + 1, found := some w.sp }
  | 0x31 => { w.know i.f1 none with tern := w.tern + 1 }
  | 0x32 => if w.fixed then w else { w with
      sp := if i.f3 = 1 then some i.imm else (w.known i.f2).map (·.1) }
  | 0x40 => { w with flow := true }
  | 0x41 => match w.known i.f2 with
    | some (v, _) => w.name (.exit (v % 32) (v / 32 % 8))
    | none => w.name .computed
  | 0x42 => match w.found with
    | some sp => { w.name (.found sp) with flow := true }
    | none => { w with exits := min (w.exits + 1) 8, flow := true }
  | 0x50 => w.know i.f1 none
  | 0x60 =>
    let w := if w.crcs.any (fun c => c.1 == i.f1) then w.fail 5 else w
    { w.know (i.imm % 16) none with
      crcs := w.crcs ++ [(i.f1, i.imm % 16)], jobs := w.jobs ++ [⟨w.pc, i.f1, i.f3, false, w.rangeLen i.f4⟩] }
  | 0x61 =>
    let w := if w.dig then w.fail 5 else w
    { w with dig := true, jobs := w.jobs ++ [⟨w.pc, 4, i.f1, i.f3 == 1, w.rangeLen i.f2⟩] }
  | 0x62 => { w with crcs := [], dig := false }
  | _ => w

/-- Every path that goes on from a point, to its end (R274): at most `fuel` instructions more (DEDUCED, log entry 52). -/
def State.paths (s : State) : Nat → Walk → List Walk
  | 0, w => [w]
  | fuel + 1, w =>
    if w.n ≥ 64 then [w.fail 1]
    else
      let i := insOf (s.hacWord w.pc)
      let cyc := ((opInfo i.op).map (·.2)).getD 1
      let w := { w with
        n := w.n + 1, words := w.words ++ [w.pc], cls := if w.res then w.cls else w.cls + cyc
        rcyc := if w.res then w.rcyc + cyc else w.rcyc }
      let w := if !w.res && decide (w.cls > 7) then w.fail 2 else w
      if (opInfo i.op).isNone ∨ badPhase i w.res ∨ fieldsOk i = false ∨ i.op = 0x03 then [w.trap]
      else
        let w := if (regFields i).any (fun r => w.crcs.any (fun c => c.2 == r)) || (readsD i && w.dig) then w.fail 4 else w
        let noFlow := !w.res && decide (w.exits > 0) && !w.flow
        if i.op = 0x01 then
          if noFlow then [w.trap] else [if w.crcs.isEmpty && !w.dig then w else w.fail 6]
        else if i.op = 0x02 ∧ noFlow then [w.trap]
        else
          let go (w' : Walk) (pc : Nat) : List Walk :=
            if pc > 16383 then [w'.fail 3] else s.paths fuel { w' with pc := pc }
          if i.op = 0x04 then
            let target := w.pc + 1 + i.imm % 2 ^ 14
            if i.f1 = 0 then go w target else go w (w.pc + 1) ++ go w target
          else go (w.effect i) (w.pc + 1)

/-! ### Bindings (R271, R274) -/

/-- The bindings in PCOST_SEL encoding, in ascending order. -/
def bindingSels : List Nat := List.range 6 ++ (List.range 68).map (· + 16)

/-- ENTRY and EN of a binding under a configuration. -/
def bindOf (g : Fld → Nat) (sel : Nat) : Nat × Bool :=
  if sel < 6 then (g (R.PROG_P_ENTRY sel), g (R.PROG_P_EN sel) == 1)
  else
    let f := (sel - 16) / 4
    let r := (sel - 16) % 4
    (g (R.PROG_F_ENTRY f r), g (R.PROG_F_EN f r) == 1)

/-- The SPACE that a binding's source starts with, and whether it cannot change (R214). -/
def spaceOf (g : Fld → Nat) (sel : Nat) : Nat × Bool :=
  if sel < 6 then (g (R.PROF_SEL_P_SPACE sel), false)
  else
    let f := (sel - 16) / 4
    if f < 16 then (f, true) else (g (R.PROF_SEL_F_SPACE 16 ((sel - 16) % 4)), false)

/-- The paths of a binding; none where its EN is 0. -/
def State.bindPaths (s : State) (g : Fld → Nat) (sel : Nat) : List Walk :=
  let (entry, en) := bindOf g sel
  let (sp, fixed) := spaceOf g sel
  if en then s.paths 65 (Walk.start entry (some sp) fixed) else []

/-- The first failure of a list: the lowest PC, then the lowest rule number (R274) (DEDUCED, log entry 52). -/
def firstFail (l : List (Nat × Nat)) : Option (Nat × Nat) :=
  l.foldl (fun o x => match o with
    | none => some x
    | some y => if x.1 < y.1 ∨ (x.1 = y.1 ∧ x.2 < y.2) then some x else some y) none

/-- The first failure under R274, with its binding (DEDUCED, log entry 52). -/
def State.hacFail (s : State) (g : Fld → Nat) : Option (Nat × Nat × Nat) :=
  bindingSels.findSome? (fun sel =>
    (firstFail (((s.bindPaths g sel).map (·.fails)).flatten)).map (fun x => (sel, x)))

/-- HAC_CHK_FAIL of a failure (R274). -/
def chkFail (x : Option (Nat × Nat × Nat)) : Nat :=
  match x with
  | some (sel, pc, rule) => sel + 2 ^ 8 * rule + 2 ^ 16 * pc
  | none => 0

/-! ### Costs (R275, R276) -/

/-- The largest value over the paths. -/
def maxOf (l : List Walk) (g : Walk → Nat) : Nat := l.foldl (fun n w => max n (g w)) 0

/-- A job's cost per frame and per byte, in 1/64 of a unit (R56, R65, R275, R435). -/
def jobCost (j : PathJob) (m : Option Nat) : Nat × Nat :=
  if j.unit < 4 then
    match m with
    | some m => (64 * ceilDiv (j.par + m) 8, 0)
    | none => (64 + 8 * j.par, 8)
  else
    match m with
    | some m => (64 * digestUnits j.par m j.hm, 0)
    | none =>
      if shaWide j.par then (17 + 128 + (if j.hm then 128 else 0), 1)
      else (9 + 64 + (if j.hm then 64 else 0), 1)

/-- A job's constant length, if every path that reaches it has one (R275). -/
def constLen (l : List Walk) (j : PathJob) : Option Nat :=
  if l.all (fun w => w.jobs.all (fun k => k.pc != j.pc || k.m.isSome)) then j.m else none

/-- The largest per-frame and per-byte cost of a unit over the paths, each by itself (R275). -/
def unitCost (l : List Walk) (u : Nat) : Nat × Nat :=
  let total (part : Nat × Nat → Nat) (w : Walk) : Nat :=
    ((w.jobs.filter (fun j => j.unit == u)).map (fun j => part (jobCost j (constLen l j)))).sum
  (maxOf l (total (·.1)), maxOf l (total (·.2)))

/-- PCOST_CYC, PCOST_LKP and PCOST_JOB of a binding (R275). -/
def pcostOf (l : List Walk) : Nat × Nat × Nat :=
  let unit (u b : Nat) : Nat := if l.any (fun w => w.jobs.any (fun j => j.unit == u)) then 2 ^ b else 0
  (6 + maxOf l (fun w => w.cls + w.rcyc) + 2 ^ 16 * maxOf l (·.cls) + 2 ^ 24 * maxOf l (·.n),
    maxOf l (·.ex) + 2 ^ 16 * maxOf l (·.tern),
    maxOf l (·.exits) + unit 0 4 + unit 1 5 + unit 2 6 + unit 3 7 + unit 4 8)

/-! ### Live words (R272) -/

/-- A word lies on a path of a binding of a configuration. -/
def State.wordOn (s : State) (r : RegFile) (w : Nat) : Bool :=
  bindingSels.any (fun sel => (s.bindPaths (regGet r) sel).any (fun p => p.words.contains w))

/-- A store word is live: a binding in force reaches it, or one of an older epoch that has frames unresolved (R272). -/
def State.wordLive (s : State) (w : Nat) : Bool := s.wordOn s.force w || s.oldForce.any (fun x => s.wordOn x.2 w)

/-- A write of HAC_HI (R72, R270, R272, R606, R624). -/
def State.hacHi (s : State) (w v : Nat) : State :=
  let off := (R.HAC_HI w).off
  if s.bitAt R.ENG_RST_STAT 6 then s.reject off 7
  else if s.bit R.FLT_STAT_ECLIPSE then s.reject off 5
  else if s.tick.commitAt.isSome then (s.reject off 2).put R.BCHK_STATUS_LOCKED true
  else if s.wordLive w then s.reject off 4
  else
    let q : Qword := BitVec.ofNat 64 (v % 2 ^ 32 * 2 ^ 32 + s.mas.hacLo)
    { s with mas := { s.mas with store := if q = 0 then mdel s.mas.store w else mput s.mas.store w q } }

/-- HAC_RETIRE_END (R272): once no frame of an older epoch is unresolved, the words of older bindings are live no more; a
configuration with frames that still await a disposition is kept for them (R38) (DEDUCED, log entry 48). -/
def execHacRetireEnd (s : State) : Host.Outcome State Fault Refusal :=
  if s.frames.all (fun x => x.2.resolved || x.2.epoch == s.tick.epoch)
      && allArr.all (fun a => match (s.arr a).bind (·.ctx) with
        | some c => c.epoch == s.tick.epoch
        | none => true) then
    let old := (s.oldForce ++ s.kept).filter (fun x => s.frames.any (fun f => f.2.epoch == x.1))
    .next ({ s with oldForce := [], kept := old }.put R.HAC_STAT_RETIRING false)
  else .next s

end Sys2Proof.Machine
end

