-- ==== Sys2Proof/Machine/Budget.lean ====
section
/-! DEFINITION. The budget check (spec/02_tick_and_budget.md R54 to R69, R124, R378, R392, R475, R516, R674): demands, ceilings, the
horizon, and the consistency of staging with the registers that R675 names. Every figure is exact: demands are counted in
1/`demUnit` of a work unit. -/

namespace Sys2Proof.Machine

/-- A configuration under the check: how a staged field reads, whether it is the one in staging, and how the exact-match table will
read (R66, R75, R232). -/
structure Cfg where
  g : Fld → Nat
  staged : Bool
  exact : List (Nat × ExactEntry)
  dusk : Bool

/-- Parts of a byte in which byte bounds are counted: 1/(512 * 8 * 10^6). -/
def bytePart : Nat := 4096000000

/-- Parts of a work unit in which demands are counted. -/
def demUnit : Nat := 256 * bytePart

/-- The period of a configuration in ns (R40). -/
def Cfg.p (c : Cfg) : Nat := 15625 * 2 ^ c.g R.TICK_CFG_PERIOD

/-- T′ = 65/64 × P in units of 1/512 ns (R64). -/
def Cfg.t (c : Cfg) : Nat := 65 * 8 * c.p

/-- A source of work (R64, R65): its frame count, its bytes in parts, its paths, the tenant ring or port it is, and the rings of
functions that it may reach. -/
structure WorkSrc where
  ring : Option (Nat × Nat)
  n : Nat
  bytes : Nat
  paths : List Walk
  allowed : List (Nat × Nat)

/-- The frame count of a source (R64): the interval term, and another bound. -/
def frameCount (t interval other : Nat) : Nat :=
  if interval = 0 then other + 1 else min (t / (512 * interval) + 1) (other + 1)

/-- The wire rate that a port is costed at, in kb/s (R124). -/
def State.costRate (s : State) (c : Cfg) (p : Nat) : Nat :=
  let r := Machine.rateKb (c.g (R.PORT_CFG_RATE_MAX p))
  if s.bit R.THERM_STAT_DERATE then min r 5000000 else r

/-- Receive rings that a tenant may enable, and the owner's. -/
def Cfg.rxRings (c : Cfg) (f : Nat) : List (Nat × Nat) :=
  (List.range (if f = 16 then 4 else c.g (R.QUOTA_RX_RINGS f))).map (fun r => (f, r))

/-- The receive rings that frames of a port can reach through its address slots (R138 to R140). -/
def Cfg.portRings (c : Cfg) (p : Nat) : List (Nat × Nat) :=
  let slots := (List.range 32).filter (fun i => c.g (R.SLOT_ADDR_HI_SLOT_VALID p i) == 1)
  let cand := slots.foldl (fun m i => Nat.lor m (c.g (R.SLOT_TENANT_MAP p i))) 0
  let own := c.g (R.PORT_CFG_PROMISC p) == 1 || slots.any (fun i => c.g (R.SLOT_ADDR_HI_SLOT_OWNER p i) == 1)
  (((List.range 16).filter (fun f => cand.testBit f)).map c.rxRings).flatten ++ (if own then c.rxRings 16 else [])

/-- A port as a source of work (R58, R64, R124). -/
def State.portSrc (s : State) (c : Cfg) (p : Nat) : Option WorkSrc :=
  if c.g (R.PORT_CFG_IF p) = 0 then none
  else
    let kb := s.costRate c p
    let bytes := ((List.range 8).map (fun k =>
      let rate := c.g (R.ENV_RATE p k)
      if rate = 0 then 0
      else min (c.g (R.ENV_BURST p k) * bytePart + rate * c.t * 1000) (kb * c.t + c.g (R.MAXLEN p) * bytePart))).sum
    some ⟨none, frameCount c.t (c.g (R.ENV_MIN_INTERVAL p)) (c.t * kb / (512 * 672 * 1000000)), bytes, s.bindPaths c.g p,
      c.portRings p⟩

/-- A transmit ring as a source of work (R62, R64): the rings of every tenant within TX_RINGS; the owner's with EN = 1. -/
def State.ringSrc (s : State) (c : Cfg) (f r : Nat) : Option WorkSrc :=
  let sel := 16 + 4 * f + r
  if (f < 16 ∧ r ≥ c.g (R.QUOTA_TX_RINGS f)) ∨ (f = 16 ∧ (bindOf c.g sel).2 = false) then none
  else
    let bytes := c.g (R.TENV_BURST f r) * bytePart + c.g (R.TENV_RATE f r) * c.t * 1000
    some ⟨some (f, r), frameCount c.t (c.g (R.TENV_MIN_INTERVAL f r)) (bytes / (64 * bytePart)), bytes, s.bindPaths c.g sel,
      ((List.range 17).map c.rxRings).flatten⟩

/-- Every source of work (R64). -/
def State.workSrcs (s : State) (c : Cfg) : List WorkSrc :=
  (List.range 6).filterMap (s.portSrc c)
    ++ ((List.range 17).map (fun f => (List.range 4).filterMap (s.ringSrc c f))).flatten

/-! ### Where the frames of a source can go (R65, R223, R254) -/

/-- The exits (DEST, SUB) that a named exit can be. -/
def Cfg.dests (c : Cfg) : Named → List (Nat × Nat)
  | .exit d sub => [(d, sub)]
  | .found sp => (c.exact.filter (fun e => match sp with
      | some k => e.2.space == k
      | none => true)).map (fun e => let w := beNat (e.2.result.take 8); (w % 32, w / 32 % 8))
  | .computed => ((List.range 6).map (fun d => (List.range 8).map (fun q => (d, q)))).flatten
      ++ ((List.range 17).map (fun f => (List.range 4).map (fun r => (8 + f, r)))).flatten

/-- The receive rings that a path can deliver to, each once. -/
def Cfg.ringsOf (c : Cfg) (w : WorkSrc) (p : Walk) : List (Nat × Nat) :=
  (((p.names.map c.dests).flatten.filter (fun d => decide (8 ≤ d.1))).map (fun d => (d.1 - 8, d.2))
    |>.filter w.allowed.contains).eraseDups

/-- The port queues that a path can send to, each once. -/
def Cfg.queuesOf (c : Cfg) (p : Walk) : List (Nat × Nat) :=
  ((p.names.map c.dests).flatten.filter (fun d => decide (d.1 < 6))).eraseDups

/-- How many exits of a path can be of a kind: those named whose destinations meet it, and no more than there are. -/
def Cfg.countOf (c : Cfg) (p : Walk) (all : List (Nat × Nat)) (shift : Nat) : Nat :=
  min (p.names.filter (fun x => (c.dests x).any (fun d => decide (shift ≤ d.1) && all.contains (d.1 - shift, d.2)))).length all.length

/-- The receive deliveries that one frame of a source can make (DEDUCED, log entry 53). -/
def Cfg.deliveries (c : Cfg) (w : WorkSrc) : Nat := maxOf w.paths (fun p => c.countOf p (c.ringsOf w p) 8)

/-- The port exits that one frame of a source can take. -/
def Cfg.portExits (c : Cfg) (w : WorkSrc) : Nat := maxOf w.paths (fun p => c.countOf p (c.queuesOf p) 0)

/-- The receive rings that the frames of a source can reach. -/
def Cfg.reach (c : Cfg) (w : WorkSrc) : List (Nat × Nat) := ((w.paths.map (c.ringsOf w)).flatten).eraseDups

/-- A frame of the source can go to the receive ring of a tenant with Early Look permitted (R392). -/
def Cfg.early (c : Cfg) (w : WorkSrc) : List Nat :=
  if w.ring.isSome then []
  else (((c.reach w).map (·.1)).filter (fun f => decide (f < 16) && c.g (R.QUOTA_EL_PERMIT f) == 1)).eraseDups

/-! ### Interrupt messages (R65, R475) -/

/-- The frames of a source that can raise a ring's source. -/
def State.msgsOf (s : State) (c : Cfg) (w : WorkSrc) (i : Nat) : Nat :=
  let tx := match w.ring with
    | some (f, r) => decide (i = (if f = 16 then 160 + r else 10 * f + r))
        || (decide (i = (if f = 16 then 168 else 10 * f + 9)) && s.bit (R.RING_CFG_TS_EN f r) && decide (c.portExits w > 0))
    | none => false
  let rx := (c.reach w).any (fun d => i == (if d.1 = 16 then 164 + d.2 else 10 * d.1 + 4 + d.2))
  let el := (c.early w).any (fun f => i == 10 * f + 8)
  if tx || rx || el then w.n else 0

/-- The messages of the ring sources, and SYS_MSG_MAX for the system sources (R475). -/
def State.messages (s : State) (c : Cfg) (l : List WorkSrc) : Nat :=
  ((List.range 170).map (fun i =>
    let n := (l.map (fun w => s.msgsOf c w i)).sum
    let mod := c.g (R.ROUTE_MOD i)
    if mod = 0 then n else min n (c.t / (512000 * mod) + 3))).sum + c.g R.SYS_MSG_MAX

/-! ### Demands and ceilings (R54 to R57, R65, R66) -/

/-- The demand on engine code k (1 MAS, 2 exact-match, 3 ternary, 4 LED, 5 HIF fetch, 6 HIF write-back, 7 DGE, 8 CRU, 9 IRC), in parts;
the CRU figure is that of the most loaded unit (DEDUCED, log entry 53). -/
def State.workDemand (s : State) (c : Cfg) (l : List WorkSrc) (k : Nat) : Nat :=
  let sum (f : WorkSrc → Nat) : Nat := (l.map f).sum
  let job (u : Nat) : Nat := sum (fun w =>
    let (a, b) := unitCost w.paths u
    w.n * a * (4 * bytePart) + w.bytes * b * 4)
  match k with
  | 1 => sum (fun w => w.n * (6 + maxOf w.paths (fun p => p.cls + p.rcyc))) * demUnit
  | 2 => sum (fun w => w.n * maxOf w.paths (·.ex)) * demUnit
  | 3 => sum (fun w => w.n * maxOf w.paths (·.tern)) * demUnit
  | 4 => (sum (fun w => w.n * 2 * maxOf w.paths (·.exits)) + (if c.g R.NETCON_CFG_PORTS = 0 then 0 else 16)) * demUnit
  | 5 => sum (fun w => if w.ring.isSome then w.n * 2 * demUnit + w.bytes else 0)
  | 6 => sum (fun w =>
      let d := c.deliveries w
      let host := match w.ring with
        | some (f, r) => w.n * (1 + (if s.bit (R.RING_CFG_TS_EN f r) then c.portExits w else 0))
        | none => if (c.early w).isEmpty then 0 else 2 * w.n
      (host + d * 2 * w.n) * demUnit + d * w.bytes) + s.messages c l * demUnit
  | 7 => job 4
  | 8 => ([0, 1, 2, 3].map job).foldl max 0
  | _ => s.messages c l * demUnit

/-- The capacity of an engine in 16ths of a unit per nominal tick of the default period (R54, R57, R210, R327). -/
def State.capacity16 (s : State) (c : Cfg) (k : Nat) : Nat :=
  let lanes := ((List.range 4).filter s.laneUp).length
  let clock := if c.dusk then 4 else 16
  match k with
  | 1 => 50000 * lanes * clock
  | 2 => 100000 * clock
  | 3 => 50000 * clock
  | 4 => 100000 * clock
  | 5 | 6 => s.hostCapacity16
  | 7 => 2500 * clock
  | 8 => 50000 * clock
  | _ => 3125 * clock

/-- The ceiling of an engine in a tick of the period (R55). -/
def State.ceiling (s : State) (c : Cfg) (k : Nat) : Nat := ceiling16 (s.capacity16 c k) (c.g R.TICK_CFG_PERIOD)

/-! ### The horizon (R67, R298) -/

/-- The gate entries of a port as offsets in ns: start, end, gates; one entry that opens all where GATE_EN is 0 (R292, R294). -/
def Cfg.segs (c : Cfg) (p : Nat) : List (Nat × Nat × Nat) :=
  if c.g (R.QPORT_CFG_GATE_EN p) = 0 then [(0, c.p, 0xFF)]
  else
    let n := c.g (R.GCL_ADMIN_LEN p)
    let l := (List.range n).map (fun e => c.g (R.GCL_ADMIN p e))
    (l.zipIdx.foldl (fun (a : Nat × List (Nat × Nat × Nat)) x =>
      let e := if x.2 + 1 = n then c.p else min (a.1 + gclInterval x.1) c.p
      (e, if a.1 < e then a.2 ++ [(a.1, e, gclGates x.1)] else a.2)) (0, [])).2

/-- The windows of a queue in a tick: its runs of open gate (R281, R293). -/
def queueWindows (l : List (Nat × Nat × Nat)) (q : Nat) : List (Nat × Nat) :=
  l.foldl (fun w x =>
    if x.2.2.testBit q then
      match w.getLast? with
      | some (a, b) => if b = x.1 then w.dropLast ++ [(a, x.2.1)] else w ++ [(x.1, x.2.1)]
      | none => [(x.1, x.2.1)]
    else w) []

/-- The queues marked TS (R67). -/
def Cfg.tsQueues (c : Cfg) : List (Nat × Nat) :=
  ((List.range 6).map (fun p => (List.range 8).map (fun q => (p, q)))).flatten.filter (fun x => c.g (R.Q_CFG_TS x.1 x.2) == 1)

/-- The horizon H of a port in 1/256 ns (R67, R276). -/
def Cfg.horizon (c : Cfg) (l : List WorkSrc) (p : Nat) : Nat :=
  let ts := c.tsQueues
  let lc := ((l.filter (fun w => w.paths.any (fun x => (c.queuesOf x).any ts.contains))).map
    (fun w => w.n * maxOf w.paths (·.rcyc))).sum
  80 * lc + 5 * c.g (R.MAXLEN p)

/-- The first time-scheduled queue with a window that opens before H: H in 1/256 ns and the window's offset (R67). -/
def Cfg.horizonFail (c : Cfg) (l : List WorkSrc) : Option (Nat × Nat) :=
  c.tsQueues.findSome? (fun x =>
    let h := c.horizon l x.1
    ((queueWindows (c.segs x.1) x.2).find? (fun w => decide (256 * w.1 < h))).map (fun w => (h, w.1)))

/-! ### Consistency (R68 and the requirements that later chapters add, R675) -/

/-- A register named by er 34, with its indices. -/
abbrev RegName := String × List Nat

/-- The first of a list of things that fails. -/
def failing (l : List Nat) (bad : Nat → Bool) (mk : Nat → RegName) : Option RegName := (l.find? bad).map mk

/-- TICK_PHASE and the residence caps (R68). -/
def Cfg.badTick (c : Cfg) : Option RegName :=
  if c.g R.TICK_CFG_PHASE ≥ c.p then some ("tick_cfg", [])
  else failing (List.range 48) (fun i => let x := c.g (R.Q_CFG_CAP (i / 8) (i % 8)); decide (x < 2 ∨ x > 16))
    (fun i => ("q_cfg", [i / 8, i % 8]))

/-- Pause and flow control of a port (R170, R176). -/
def Cfg.badPause (c : Cfg) (p : Nat) : Option RegName :=
  let caps := (List.range 8).map (fun q => c.g (R.Q_CFG_CAP p q))
  if c.g (R.FC_CFG_RX_MODE p) ≠ 0 ∧ c.g (R.FC_WD_PAUSE_WD_HOLD p) < caps.foldl max 0 then some ("fc_wd", [p])
  else if c.g (R.FC_CFG_TX_MODE p) = 0 then none
  else if c.g (R.FC_REFRESH p) * Machine.rateKb (c.g (R.PORT_CFG_RATE_MAX p)) ≥ c.g (R.FC_TX_QUANTA p) * 512 * 1000 then
    some ("fc_refresh", [p])
  else
    (failing (List.range 8) (fun k => c.g (R.FC_THR_XOFF p k) != 0 && decide (c.g (R.FC_THR_XON p k) ≥ c.g (R.FC_THR_XOFF p k)))
      (fun k => ("fc_thr", [p, k]))) <|>
    (if c.g R.FC_GLOBAL_XON_FREE ≤ c.g R.FC_GLOBAL_XOFF_FREE then some ("fc_global", []) else none)

/-- A staged template with fewer than 8 fixed bytes (R199). -/
def State.badTpl (s : State) (c : Cfg) : Option RegName :=
  if c.staged then (s.buf.tplStg.find? (fun t => t.2.valid && decide (t.2.nfix < 8))).map (fun t => ("tpl_sel", [t.1])) else none

/-- A program that fails R208 or R274. -/
def State.badProg (s : State) (c : Cfg) : Option RegName :=
  (s.hacFail c.g).map (fun x =>
    if x.1 < 6 then ("prog_p", [x.1]) else ("prog_f", [(x.1 - 16) / 4, (x.1 - 16) % 4]))

/-- A staged exact-match entry outside its buckets, or that another valid entry duplicates (R217). -/
def State.badExact (s : State) (c : Cfg) : Option RegName :=
  if c.staged then
    (((s.mas.banks.filter (·.state == .staging)).map (·.exact)).flatten.find? (fun x => x.2.valid &&
      (!(exactSlots x.2.space x.2.key).contains x.1
        || c.exact.any (fun y => y.1 != x.1 && y.2.space == x.2.space && y.2.key == x.2.key)))).map
      (fun x => ("tbl_stg_idx", [x.1]))
  else none

/-- Two ranges overlap. -/
def overlap (b1 n1 b2 n2 : Nat) : Bool := decide (n1 > 0 ∧ n2 > 0 ∧ b1 < b2 + n2 ∧ b2 < b1 + n1)

/-- The first tenant, ascending, whose range leaves its table or overlaps that of a lower-numbered tenant (R222, R446). -/
def badRange (base num : Nat → Nat) (size : Nat) : Option Nat :=
  (List.range 16).find? (fun n => decide (num n > 0 ∧ base n + num n > size)
    || (List.range n).any (fun k => overlap (base k) (num k) (base n) (num n)))

/-- Partitions (R222, R446): policers, counters, and key slots without a console key. -/
def State.badPart (s : State) (c : Cfg) : Option RegName :=
  let pol := badRange (fun n => c.g (R.PART_POL_POL_BASE n)) (fun n => c.g (R.PART_POL_POL_NUM n)) 512
  let cnt := badRange (fun n => c.g (R.PART_CNT_CNT_BASE n)) (fun n => c.g (R.PART_CNT_CNT_NUM n)) 1024
  let key := badRange (fun n => c.g (R.KEY_PART_BASE n)) (fun n => c.g (R.KEY_PART_COUNT n)) 64
  let con := (List.range 16).find? (fun n => (List.range (c.g (R.KEY_PART_COUNT n))).any (fun i =>
    let x := s.keySlot (c.g (R.KEY_PART_BASE n) + i)
    x.force.con || (x.staged && x.other.con)))
  (pol.map (fun n => ("part", [n]))) <|> (cnt.map (fun n => ("part", [n]))) <|> (key.map (fun n => ("key_part", [n])))
    <|> (con.map (fun n => ("key_part", [n])))

/-- The first index at which a running sum exceeds a limit. -/
def sumOver (l : List Nat) (lim : Nat) : Option Nat :=
  (List.range l.length).find? (fun i => decide (((l.take (i + 1))).sum > lim))

/-- The gate list of a port (R295 items 1 to 4). -/
def Cfg.badList (c : Cfg) (p : Nat) : Option RegName :=
  if c.g (R.QPORT_CFG_GATE_EN p) = 0 then none
  else
    let n := c.g (R.GCL_ADMIN_LEN p)
    let l := (List.range n).map (fun e => c.g (R.GCL_ADMIN p e))
    if n = 0 ∨ n > 256 then some ("gcl_admin_len", [p])
    else if gclInterval (l.getD (n - 1) 0) ≠ 0 then some ("gcl_admin", [p, n - 1])
    else
      ((sumOver (l.dropLast.map gclInterval) (63 * c.p / 64)).map (fun e => ("gcl_admin", [p, e])))
      <|> failing (List.range 8) (fun q => l.all (fun w => !(gclGates w).testBit q)) (fun q => ("q_cfg", [p, q]))

/-- A time-scheduled queue fails requirement 2, 3, 4 or 5 of R298. -/
def Cfg.badTs (c : Cfg) (p q : Nat) : Bool :=
  let kb := Machine.rateKb (c.g (R.PORT_CFG_RATE_MAX p))
  let segs := c.segs p
  let ts (k : Nat) : Bool := c.g (R.Q_CFG_TS p k) == 1
  let pre := c.g (R.QPORT_CFG_PREEMPT_EN p) == 1
  let exp := c.g (R.Q_CFG_EXPRESS p q) == 1
  let ws := queueWindows segs q
  let openIn (a b k : Nat) : Bool := segs.any (fun x => decide (x.1 < b ∧ a < x.2.1) && x.2.2.testBit k)
  let two := ws.any (fun w => ([0, 1, 2, 3, 4, 5, 6, 7] : List Nat).any (fun k => decide (k > q) && !ts k && openIn w.1 w.2 k))
  let gap := (8 + c.g (R.PORT_CFG_TX_IPG p)) * 8000000
  let near (a : Nat) (x : Nat × Nat × Nat) : Bool :=
    decide (x.1 < x.2.1) && ((decide (x.1 < a) && decide (x.2.1 * kb + gap > a * kb)) || decide (x.2.1 * kb + gap > (c.p + a) * kb))
  let three := !(exp && pre) && ws.any (fun w =>
    ([0, 1, 2, 3, 4, 5, 6, 7] : List Nat).any (fun k => !ts k && segs.any (fun x => near w.1 x && x.2.2.testBit k)))
  let four := match ws.head? with
    | none => false
    | some w =>
      let need := (((List.range 8).filter (fun k => decide (k ≥ q) && ts k && openIn w.1 w.2 k)).map
        (fun k => c.g (R.Q_TS_BYTES p k))).sum
        + (if pre && exp then 143 + 64 * c.g (R.QPORT_CFG_ADD_FRAG p) else 0)
        + (if c.g (R.FC_CFG_TX_MODE p) = 0 then 0 else 168)
      decide (need * 8000000 > (w.2 - w.1) * kb)
  two || three || four || (pre && !exp)

/-- A CRU's parameters (R454) (DEDUCED, log entry 53). -/
def Cfg.badCru (c : Cfg) (u : Nat) : Option RegName :=
  let w := c.g (R.CRU_CFG_WIDTH u)
  let v (lo hi : Nat → Fld) : Nat := c.g (lo u) + 2 ^ 32 * c.g (hi u)
  let bad (lo hi : Nat → Fld) (nl nh : String) : Option RegName :=
    if v lo hi < 2 ^ w then none else if c.g (hi u) ≥ 2 ^ (w - 32) then some (nh, [u]) else some (nl, [u])
  if v R.POLY_LO R.POLY_HI = 0 then some ("poly_lo", [u])
  else bad R.POLY_LO R.POLY_HI "poly_lo" "poly_hi" <|> bad R.INIT_LO R.INIT_HI "init_lo" "init_hi"
    <|> bad R.XOROUT_LO R.XOROUT_HI "xorout_lo" "xorout_hi"

/-- From GO to Dusk on, a port above 100 Mb/s (R536). -/
def Cfg.badDusk (c : Cfg) : Option RegName :=
  if c.dusk && c.staged then
    failing (List.range 6) (fun p => c.g (R.PORT_CFG_IF p) != 0 && decide (c.g (R.PORT_CFG_RATE_MAX p) > 1)) (fun p => ("port_cfg", [p]))
  else none

/-- The first staged value that is not consistent, in the order of the chapters (R68, R675) (DEDUCED, log entry 53). -/
def State.inconsistent (s : State) (c : Cfg) : Option RegName :=
  c.badTick <|> c.badDusk <|> (List.range 6).findSome? c.badPause <|> s.badTpl c <|> s.badProg c <|> s.badExact c <|> s.badPart c
    <|> ((sumOver ((List.range 6).map (fun p => c.g (R.Q_SLOTS_MAX p))) 16384).map (fun p => ("q_slots_max", [p])))
    <|> (List.range 6).findSome? c.badList
    <|> (c.tsQueues.find? (fun x => c.badTs x.1 x.2)).map (fun x => ("q_cfg", [x.1, x.2]))
    <|> (List.range 6).findSome? (fun p =>
      (sumOver ((List.range 8).map (fun q => if c.g (R.Q_CFG_SHAPER_EN p q) = 1 then c.g (R.Q_IDLE_SLOPE p q) else 0))
        (Machine.rateKb (c.g (R.PORT_CFG_RATE_MAX p)))).map (fun q => ("q_idle_slope", [p, q])))
    <|> (List.range 4).findSome? c.badCru
    <|> failing (List.range 384) (fun i => decide (1 ≤ c.g (R.ROUTE_POLICY i) ∧ c.g (R.ROUTE_POLICY i) ≤ 2) && c.g (R.SET i) == 0)
      (fun i => ("route", [i]))

/-! ### The check (R66, R69, R674) -/

/-- The outcome of a check: the engine code of the first failure (0: it passes), and the demand and ceiling of that engine, or of the
engine with the largest fraction of its ceiling; and the register of an inconsistency. -/
structure Verdict where
  code : Nat
  engine : Nat
  demand : Nat
  ceiling : Nat
  reg : RegName
  deriving DecidableEq, Repr

/-- The engine whose demand is the largest fraction of its ceiling, the lowest code among equals (R520). -/
def largestShare : List (Nat × Nat × Nat) → Option (Nat × Nat × Nat)
  | [] => none
  | x :: t =>
    match largestShare t with
    | none => some x
    | some y => if x.2.1 * y.2.2 ≥ y.2.1 * x.2.2 then some x else some y

/-- The check of a configuration (R66 to R69) (DEDUCED, log entry 53). -/
def State.verdict (s : State) (c : Cfg) : Verdict :=
  let l := s.workSrcs c
  let figs := (List.range 9).map (fun i => (i + 1, s.workDemand c l (i + 1), s.ceiling c (i + 1)))
  match figs.find? (fun x => decide (x.2.1 > x.2.2 * demUnit)) with
  | some (k, d, m) => ⟨k, k, ceilDiv d demUnit, m, ("", [])⟩
  | none =>
    match c.horizonFail l with
    | some (h, o) => ⟨10, 10, ceilDiv h 256, o, ("", [])⟩
    | none =>
      match s.inconsistent c with
      | some r => ⟨11, 11, 0, 0, r⟩
      | none =>
        match largestShare figs with
        | some (k, d, m) => ⟨0, k, ceilDiv d demUnit, m, ("", [])⟩
        | none => ⟨0, 1, 0, 0, ("", [])⟩

/-- The exact-match entries that an epoch sees, those that are valid. -/
def State.validExact (s : State) (look : Nat → ExactEntry) : List (Nat × ExactEntry) :=
  let keys := (s.mas.exact.map (·.1) ++ (s.mas.banks.map (fun b => b.exact.map (·.1))).flatten).eraseDups
  (keys.map (fun i => (i, look i))).filter (fun x => x.2.valid)

/-- The capacities of Dusk apply: in Dusk and Twilight, and from GO to Dusk on (R57, R535, R536). -/
def State.duskCheck (s : State) : Bool :=
  s.rd R.PM_STAT_STATE != 0 || (match s.pm.phase with
    | .duskCheck | .duskAt _ => true
    | _ => false)

/-- The configuration in staging (R64). -/
def State.stagedCfg (s : State) : Cfg :=
  let stg := (s.mas.banks.filter (·.state == .staging)).map (·.exact)
  ⟨s.rd, true, s.validExact (fun i => (firstIn stg i).getD (s.exactAt s.tick.epoch i)), s.duskCheck⟩

/-- The configuration in force (R75, R535). -/
def State.forceCfg (s : State) : Cfg := ⟨s.inf, false, s.validExact (s.exactAt s.tick.epoch), s.duskCheck⟩

end Sys2Proof.Machine
end

