-- ==== Sys2Proof/Machine/Flr.lean ====
section
/-! DEFINITION. PCIe functions (spec/11_host_functions_and_tenants.md): VF Enable, function-level resets, quiesce, the resets of
the link, readiness, the transfer units, and EL_EN (spec/13_early_look.md R382). -/

namespace Sys2Proof.Machine

/-! ### What a reset or a quiesce ends (R343, R347) -/

/-- DEST of a function's exits (R95) (DEDUCED, log entry 56). -/
def destOf (f : Nat) : Nat := if f < 16 then 8 + f else 24

/-- The exits for a function whose entries stand in RESOLVING, WRITING or COMPLETING (R343). -/
def State.hostExits (s : State) (f : Nat) : List (Nat × Nat) :=
  s.entriesWith (fun e => e.dest == destOf f && (e.stage == 1 || e.stage == 4 || e.stage == 5))

/-- Steps 3 and 4 of R343: entries bound for the function take FLR_ABORT, and its fetches in progress are abandoned, their cells
freed (DEDUCED, log entry 56). -/
def State.abortFn (s : State) (f : Func) : State :=
  let s := (s.hostExits f).foldl (fun s e => s.dispose e.1 e.2 7) s
  let s := ([0, 1, 2, 3] : List TxRing).foldl (fun s r => s.dropArr (.host f r)) s
  { s with hif := { s.hif with posted := s.hif.posted.filter (fun p => p.fn != f.val) } }

/-- A function's rings hold no descriptor, its event and Early Look records are gone (R344, R394) (DEDUCED, log entry 56). -/
def State.clearRings (s : State) (f : Func) : State :=
  let s := (List.range 11).foldl (fun s r => s.modRing f r (fun x => { x with descs := [], skipped := 0, bells := [] })) s
  let s := if f.val < 16 then s.elClose f else s
  { s with events := mdel s.events f.val }

/-- Interrupt sources are cleared and masked (R476). -/
def State.clearSources (s : State) (l : List Nat) : State := l.foldl (fun s i => s.setSrc i IrqSrc.reset) s

/-- A reader's latches take their reset values: 0 for every LO and HI pair (R617) (DEDUCED, log entries 56, 71). -/
def State.clearLatches (s : State) (rd : Reader) : State :=
  { s with latches := s.latches.filter (fun x => x.1 % 32 != readerNum rd) }

/-- A function's configuration space takes its reset values, but for the sticky bits of AER (R327, R328, R335, R344, R347) (PRESUMED, log entry 14). -/
def State.clearConfig (s : State) (f : Nat) : State :=
  let s := s.setPci f { PciFn.reset with aer := (s.pci f).aer }
  if f = 16 then { s with hif := { s.hif with ltrOn := false, vfWant := 0, ari := false, pageSize := 1, bar := 0, vfBar := 0 } } else s

/-- A function is quiesced (R347, R348): its Bus Master Enable is 0, it is in D3hot, or it is a tenant and the owner is. -/
def State.quiesced (s : State) (f : Nat) : Bool := !(s.pci f).bme || (s.pci f).d3 || (decide (f < 16) && (s.pci 16).d3)

/-- HIF_QUIESCED shows the functions that are quiesced. -/
def State.showQuiesced (s : State) : State :=
  s.wr R.HIF_QUIESCED ((List.range 17).foldl (fun m f => setBitAt m f (s.quiesced f)) 0)

/-- What changes the quiesced state of functions: those that become quiesced transfer nothing from now on (R347, R348). -/
def State.requiesce (s : State) (quiet : State → Func → State) (t : State) : State :=
  ((List.finRange 17).filter (fun (g : Func) => !s.bitAt R.HIF_QUIESCED g && t.quiesced g && (g.val == 16 || decide (g.val < s.hif.numVfs)))).foldl
    quiet t.showQuiesced

/-- A configuration request to a function: Retry Status until READY, Unsupported Request from an absent tenant, and else its effect,
which during a reset of the function is `busy` (R329, R333, R345). -/
def State.cfgRequest (s : State) (f : Nat) (t busy : State) : State :=
  if s.bit R.HIF_STAT_READY = false then s.emit (.config f .retry)
  else if s.addressable f = false then s.emit (.config f .unsupported)
  else if s.bitAt R.HIF_FLR_STAT f then busy
  else t

/-! ### Function-level reset of a tenant (R342 to R345) -/

/-- A reset of a tenant begins (R343, R344); while one runs, another is ignored (DEDUCED, log entry 56). -/
def State.flrTenant (s : State) (n : Tenant) : State :=
  if s.bitAt R.HIF_FLR_STAT n then s
  else
    let f : Func := n.castSucc
    let s := (s.putAt R.HIF_FLR_STAT n true).abortFn f
    let s := ((s.clearRings f).mbxClear n).clearRegs (0x1000000 * (n + 1)) 0x1000000
    let s := s.clearSources ((List.range 10).map (fun b => 10 * n.val + b) ++ [170 + n.val])
    ((s.setStream n Stream.reset).clearLatches (.tenant n)).clearConfig n |>.showQuiesced

/-- FLR_INITIATE (R342 to R344): Initiate Function Level Reset is written in Tn's Device Control. -/
def execFlrInitiate (n : Tenant) (s : State) : Host.Outcome State Fault Refusal := .next (s.cfgRequest n (s.flrTenant n) s)

/-- VF Enable is cleared: every present tenant is reset and absent from then on (R333, R342). -/
def State.vfClear (s : State) : State :=
  let s := ((List.finRange 16).filter (fun n => decide (n.val < s.hif.numVfs))).foldl (fun s n => s.flrTenant n) s
  { s with hif := { s.hif with numVfs := 0 } }

/-- VF_ENABLE_CLEAR (R333). -/
def execVfEnableClear (s : State) : Host.Outcome State Fault Refusal := .next (s.cfgRequest 16 s.vfClear s)

/-- A write that sets VF Enable, with NumVFs and ARI Capable Hierarchy as they stand (R332). -/
def State.vfEnable (s : State) : State :=
  let n := s.hif.vfWant
  if s.hif.numVfs ≠ 0 then s
  else if s.bit R.HIF_STAT_READY ∧ s.bit R.HIF_STAT_FW_LATE = false ∧ 1 ≤ n ∧ n ≤ 16 ∧ (s.hif.ari ∨ n ≤ 7) then
    { s with hif := { s.hif with numVfs := n, vfAt := s.now } }
  else s.put R.HIF_STAT_SRIOV_ERR true

/-- NumVFs, ARI Capable Hierarchy and System Page Size can be written only while VF Enable is 0 (R332). -/
def State.vfSetUp (s : State) (num : Nat) (ari : Bool) (page : Nat) : State :=
  if s.hif.numVfs ≠ 0 then s else { s with hif := { s.hif with vfWant := num, ari := ari, pageSize := page } }

/-- VF_ENABLE_SET (R332): NumVFs, ARI Capable Hierarchy and VF Enable are written (PRESUMED, log entry 14). -/
def execVfEnableSet (num : BitVec 16) (ari : Bool) (s : State) : Host.Outcome State Fault Refusal :=
  .next (s.cfgRequest 16 (s.vfSetUp num.toNat ari s.hif.pageSize).vfEnable s)

/-! ### Transfer units and the trained link (R75, R326, R327) -/

/-- MPS and MRRS change: HIF_LINK.UNIT follows, and the check is rerun. -/
def State.setUnits (s : State) (mps mrrs : Nat) : State :=
  if mps = s.hif.mps ∧ mrrs = s.hif.mrrs then s
  else
    { s with hif := { s.hif with mps := mps, mrrs := mrrs }, tick := { s.tick with rerun := true } }.wr R.HIF_LINK_UNIT
      (if mps = 0 ∨ mrrs = 0 then 1 else 2)

/-- MPS_MRRS_CHANGE (R326, R327): the codes of 128, 256 and 512 bytes are those supported (PRESUMED, log entry 14). -/
def execMpsMrrsChange (mps mrrs : Fin 3) (s : State) : Host.Outcome State Fault Refusal := .next (s.cfgRequest 16 (s.setUnits mps mrrs) s)

/-! ### Reset of the owner (R346), and of every function (R328) -/

/-- The owner's interrupt sources: all that no tenant owns (R460). -/
def ownerSources : List Nat := (List.range 10).map (· + 160) ++ (List.range 198).map (· + 186)

/-- A reset of the owner begins (R346): VF Enable clears, its rings, MSI-X table, mailbox and sources are cleared, its entries take
FLR_ABORT without an event record, staging is discarded and a pending commit is cancelled (DEDUCED, log entry 55). -/
def State.ownerReset (s : State) : State :=
  let s := (s.putAt R.HIF_FLR_STAT 16 true).vfClear.abortFn 16
  let s := ((s.clearRings 16).mbxClear 16).clearSources ownerSources
  let s := ((s.clearRegs 0x52000 (0x40 * 11)).clearRegs 0xB0000 0x2000).clearRegs (R.mbxBase 16) 0x300
  let s := if s.ownerHolds16 then s.setStream 16 Stream.reset else s
  ((((s.clearLatches .owner).clearConfig 16).showQuiesced.setUnits 0 2).cancelCommit).stageDrop

/-- A reset of the owner is asked for; while one runs, another is ignored (DEDUCED, log entry 55). -/
def State.ownerFlr (s : State) : State := if s.bitAt R.HIF_FLR_STAT 16 then s else s.ownerReset

/-- OWNER_FLR (R346): Initiate Function Level Reset is written in the owner's Device Control. -/
def execOwnerFlr (s : State) : Host.Outcome State Fault Refusal := .next (s.cfgRequest 16 s.ownerFlr s)

/-- The bit of a function in HIF_FLR is written 1 (R342); an absent tenant has nothing to reset (DEDUCED, log entry 56). -/
def State.hifFlr (s : State) (f : Func) : State :=
  if h : f.val < 16 then
    if f.val < s.hif.numVfs then s.flrTenant ⟨f.val, h⟩ else s
  else s.ownerFlr

/-- FLR_DONE (R341, R345): the reset of a function completes; a console line that asked for it is answered (R525). -/
def execFlrDone (f : Func) (s : State) : Host.Outcome State Fault Refusal :=
  if s.bitAt R.HIF_FLR_STAT f = false then .next s
  else
    let s := ((s.putAt R.HIF_FLR_STAT f false).log 0x50 f).raise 238
    let s := if f.val < 16 ∧ s.hif.quotaReset.testBit f then
        { s with hif := { s.hif with quotaReset := setBitAt s.hif.quotaReset f false } }.put (R.TEN_STAT_QUOTA_RESET f) true
      else s
    .next (if s.con.serving = some (.tenant f) then s.conFinish (okReply []) else s)

/-- Every function is reset, whatever reset of it runs, and configuration space takes its reset values (R328). -/
def State.resetFunctions (s : State) : State := s.ownerReset

/-- The link is down: HIF_LINK reports none (R326) (DEDUCED, log entry 57). -/
def State.linkDown (s : State) : State := (s.wr R.HIF_LINK_SPEED 0).wr R.HIF_LINK_WIDTH 0

/-- In Night, while a test-mode reset is held and while the link's supplies are low, the link's side does nothing: only the pin is
seen (R544, R635, R663) (DEDUCED, log entry 57). -/
def State.linkDead (s : State) : Bool := s.pm.phase == .night || s.testHeld || s.sxLow

/-- PERST_ASSERT (R328) (DEDUCED, log entry 57). -/
def execPerstAssert (s : State) : Host.Outcome State Fault Refusal :=
  let s : State := { s with pm := { s.pm with perstLow := true } }
  if s.linkDead then .next s
  else .next ({ s with hif := { s.hif with perstAt := none } }.resetFunctions.linkDown)

/-- PCIE_LINK_RESET (R328): a hot reset keeps the speed and width last trained; after a link disable or a loss there is no link (DEDUCED, log entry 57). -/
def execPcieLinkReset (c : LinkReset) (s : State) : Host.Outcome State Fault Refusal :=
  if s.linkDead then .next s
  else
    match c with
    | .hotReset => .next s.resetFunctions
    | .linkDisable | .linkDown => .next s.resetFunctions.linkDown

/-- PERST_DEASSERT (R75, R329): the link trains; its speed and width are the commands' words; PE_WAKE_N is released (R549) (DEDUCED, log entry 57). -/
def execPerstDeassert (speed : Fin 4) (width : Fin 3) (s : State) : Host.Outcome State Fault Refusal :=
  if s.linkDead then .next { s with pm := { s.pm with perstLow := false } }
  else
    let low := s.pm.perstLow
    let s := (s.wr R.HIF_LINK_SPEED (speed + 1)).wr R.HIF_LINK_WIDTH (2 ^ width.val)
    let s := s.wr R.HIF_LINK_UNIT (if s.hif.mps = 0 ∨ s.hif.mrrs = 0 then 1 else 2)
    .next { s with
      tick := { s.tick with rerun := true }
      pm := { s.pm with perstLow := false, wakeOut := false }
      hif := { s.hif with perstAt := if low ∨ s.hif.perstAt = none then some s.now else s.hif.perstAt } }

/-- READY_TIMEOUT (R329): 900 ms after the deassertion with no first configuration applied (DEDUCED, log entries 77, 91). -/
def execReadyTimeout (s : State) : Host.Outcome State Fault Refusal :=
  match s.hif.perstAt with
  | some t =>
    if s.bit R.HIF_STAT_READY then .next s
    else .next ((s.upTo (t + 900000000 * unitsPerNs)).becomeReady.put R.HIF_STAT_FW_LATE true)
  | none => .next s

/-! ### Quiesce (R347, R348, R381) -/

/-- Descriptors of a quiesced function whose reservations and fetches have ended complete with ABORTED_BY_RESET (R381) (DEDUCED, log entry 24). -/
def State.abortDescs (s : State) (f : Func) (ended : List (Nat × Nat)) : State :=
  let due := s.tick.num + 2
  (List.range 11).foldl (fun s r => s.modRing f r (fun x => { x with descs := x.descs.map (fun d =>
    match d.st with
    | .fetching _ => if r < 4 then { d with st := .ready (txCpl stAborted 0 false none 0 0 0 0 due s.now) } else d
    | .reading t _ _ _ => { d with st := .ready (txCpl stAborted 0 false none 0 0 0 t.cookie due s.now) }
    | .reserved h i => if ended.contains (h, i) then { d with st := .ready (bareCpl stAborted due s.now) } else d
    | .ready c => match c.exit with
      | some e => if ended.contains e then { d with st := .ready (bareCpl stAborted due s.now) } else d
      | none => d
    | _ => d) })) s

/-- A function transfers nothing from now on: steps 1, 3 and 4 of R343 (DEDUCED, log entry 24). -/
def State.quiesceFn (s : State) (f : Func) : State :=
  let ended := s.hostExits f
  ((s.abortFn f).abortDescs f ended)

/-- The host changes what quiesces a function (R347, R348): D3hot of the owner quiesces every present tenant too. -/
def State.setPower (s : State) (f : Nat) (bme d3 : Bool) : State :=
  s.requiesce State.quiesceFn (s.setPci f { s.pci f with bme := bme, d3 := d3 })

/-- QUIESCE (R347, R348): Bus Master Enable is cleared, or D3hot is written. -/
def execQuiesce (f : Func) (why : QuiesceCause) (s : State) : Host.Outcome State Fault Refusal :=
  .next (s.cfgRequest f (match why with
    | .busMaster => s.setPower f false (s.pci f).d3
    | .d3hot => s.setPower f (s.pci f).bme true) s)

/-- UNQUIESCE (R347, R348): the function's own causes are gone; a tenant stays quiesced while the owner is in D3hot. -/
def execUnquiesce (f : Func) (s : State) : Host.Outcome State Fault Refusal := .next (s.cfgRequest f (s.setPower f true false) s)

/-! ### Early Look permission (R382, R383) -/

/-- A write of EL_FLOW by a tenant: the flow is the one in EL_FLOW_SEL (DEDUCED, log entry 59). -/
def State.elFlow (s : State) (n : Nat) (en : Bool) : State :=
  let x := s.rd (R.EL_FLOW_SEL n)
  let r := s.flow x
  let no := decide (s.inf (R.QUOTA_EL_PERMIT n) = 0)
  let s := if no then s.put (R.TEN_STAT_QUOTA_HIT n) true else s
  if r.fn ≠ n then s.tenViol n else if no then s else s.setFlow x { r with elEn := en }

end Sys2Proof.Machine
end

