-- ==== Sys2Proof/Machine/Redundant.lean ====
section
/-! DEFINITION. Generation and recovery functions (spec/10_redundant_streams.md R311 to R325): resets, the reset timer, latent
error detection, and what a commit does to them. The draw and the recovery itself stand with acceptance and resolution. -/

namespace Sys2Proof.Machine

/-- GEN_RESET (R315). -/
def execGenReset (g : GenFn) (s : State) : Host.Outcome State Fault Refusal :=
  .next (s.unlessReset 6 (R.GEN_RESET g) (s.wr (R.GEN_SEQ g) 0))

/-- TAKE_ANY set and HISTORY cleared (R318, R321). -/
def State.takeAny (s : State) (f : Nat) : State := (s.put (R.REC_STAT_TAKE_ANY f) true).wr (R.REC_HISTORY f) 0

/-- REC_RESET (R321). -/
def execRecReset (f : RecFn) (s : State) : Host.Outcome State Fault Refusal :=
  .next (s.unlessReset 6 (R.REC_RESET f) (s.takeAny f))

/-- REC_RESET_TIMER (R318): RESET_TICKS boundaries have passed since the latest frame passed; the timer restarts with the next (DEDUCED, log entry 60). -/
def execRecResetTimer (f : RecFn) (s : State) : Host.Outcome State Fault Refusal :=
  match mget s.mas.recTimer f with
  | none => .next s
  | some t =>
    if s.tick.num < t + s.inf (R.REC_RESET_TICKS f) then .next s
    else .next (({ s with mas := { s.mas with recTimer := mdel s.mas.recTimer f } }.takeAny f).inc (R.REC_RESETS f))

/-- LATENT of some function is set: the level of source FRER_LATENT. -/
def State.anyLatent (s : State) : Bool := ([0, 1, 2, 3] : List Nat).any (fun w => s.rd (R.LAT_SUMMARY w) != 0)

/-- A boundary that closes a whole number of intervals since the boundary at which the configuration took effect (R322) (DEDUCED, log entry 91). -/
def State.latentDue (s : State) (f ticks : Nat) : Bool :=
  let n := s.tick.num - mgetD s.mas.latFrom f 0
  s.inf (R.REC_CFG_LAT_EN f) == 1 && decide (s.now = s.tick.start ∧ 0 < n ∧ n % ticks = 0)

/-- The latency test of a function, where it is due at this boundary and has not run (R322) (DEDUCED, log entry 59). -/
def State.latentTest (s : State) (f : Nat) : State :=
  if s.latentDue f (s.inf (R.LAT_TEST_TICKS f)) = false ∨ mgetD s.mas.latTested f 0 = s.tick.num then s
  else
    let s : State := { s with mas := { s.mas with latTested := mput s.mas.latTested f s.tick.num } }
    let (lp, ld) := mgetD s.mas.latCounts f (0, 0)
    let x : Nat := ((lp * (s.inf (R.REC_CFG_LAT_PATHS f) - 1) : Nat) - (ld : Int)).natAbs
    if x ≤ s.inf (R.LAT_DIFF f) then s
    else
      let was := s.anyLatent
      let s := (s.setLevel (R.REC_STAT_LATENT f) 230 was).putAt (R.LAT_SUMMARY (f / 32)) (f % 32) true
      (s.inc (R.REC_LAT_CNT f)).log 0x61 f

/-- LATENT_TEST (R322) (DEDUCED, log entry 59). -/
def execLatentTest (f : RecFn) (s : State) : Host.Outcome State Fault Refusal := .next (s.latentTest f)

/-- LATENT_RESET (R322): a test that is due at the same boundary runs first (DEDUCED, log entry 59). -/
def execLatentReset (f : RecFn) (s : State) : Host.Outcome State Fault Refusal :=
  if s.latentDue f (s.inf (R.LAT_RESET_TICKS f)) then
    let s := s.latentTest f
    .next { s with mas := { s.mas with latCounts := mdel s.mas.latCounts f } }
  else .next s

/-- The staged fields of a recovery function. -/
def recFields (f : Nat) : List Fld :=
  [R.REC_CFG_EN f, R.REC_CFG_LAT_EN f, R.REC_CFG_HIST_LEN f, R.REC_CFG_LAT_PATHS f, R.REC_RESET_TICKS f, R.LAT_DIFF f,
    R.LAT_TEST_TICKS f, R.LAT_RESET_TICKS f]

/-- A commit that changes a generation or recovery function (R325); `changed` says which fields it changes (DEDUCED, log entry 59). -/
def State.recCommit (s : State) (changed : Fld → Bool) : State :=
  let s := (List.range 64).foldl (fun s g =>
    if changed (R.GEN_CFG_EN g) || changed (R.GEN_CFG_FLOW g) then s.wr (R.GEN_SEQ g) 0 else s) s
  (List.range 128).foldl (fun s f =>
    if (recFields f).any changed then
      { s with mas := { s.mas with
        latCounts := mdel s.mas.latCounts f, latFrom := mput s.mas.latFrom f s.tick.num } }.takeAny f
    else s) s

end Sys2Proof.Machine
end

