-- ==== Sys2Proof/Machine/Commit.lean ====
section
/-! DEFINITION. The commit (spec/02_tick_and_budget.md R37, R49, R69 to R75; spec/17_molsum_console.md R520): the checks that MGC runs,
the scheduling of a commit, what changes at its boundary, each as its own chapter says, and the Eclipse that arises beside one
(spec/20_faults_and_recovery.md R608). -/

namespace Sys2Proof.Machine

/-! ### What a check reports (R69, R73, R274, R275, R520) -/

/-- The engine names of the console (DEDUCED, log entry 58). -/
def engineName (k : Nat) : Tok :=
  txt ((["none", "mas", "exact", "ternary", "led", "hif_fetch", "hif_wb", "dge", "cru", "irc", "horizon"] : List String).getD k "")

/-- `<engine> <demand>/<ceiling>`. -/
def Verdict.share (v : Verdict) : List Byte := engineName v.engine ++ txt " " ++ dec v.demand ++ txt "/" ++ dec v.ceiling

/-- `<register> [<i> [<j>]]`. -/
def regText (r : RegName) : List Byte := txt r.1 ++ (r.2.map (fun i => txt " " ++ dec i)).flatten

/-- The reply of `check` (R520). -/
def Verdict.reply (v : Verdict) (pending : Bool) : ConReply :=
  if v.code = 0 then okReply (txt "pass " ++ v.share)
  else
    let (code, more) := if v.code = 11 then (34, regText v.reg) else (31, v.share)
    if pending then okReply (errorText code ++ txt " " ++ more) else erReply code more

/-- The check's result in its registers (R69); a check of staging also gives HAC_CHK_FAIL and PCOST (R274, R275) (DEDUCED, log entry 54). -/
def State.noteCheck (s : State) (staged : Bool) (v : Verdict) : State :=
  let s := (s.put R.BCHK_STATUS_PASS (v.code == 0)).wr R.BCHK_STATUS_ENGINE v.code
  let s := (s.wr R.BCHK_DEMAND v.demand).wr R.BCHK_CEILING v.ceiling
  if staged then
    let cost := bindingSels.map (fun b => (b, pcostOf (s.bindPaths s.rd b)))
    { s with mas := { s.mas with pcost := cost } }.wr R.HAC_CHK_FAIL (chkFail (s.hacFail s.rd))
  else s

/-- The line that asked for the check still waits for it (DEDUCED, log entry 54). -/
def State.waitsCheck (s : State) (ch : Nat) : Bool :=
  s.con.serving == some .check && (s.con.lines.head?.map (·.ch)) == some ch

/-- The commit is scheduled (R70, R71); a bank in STAGING becomes PENDING (R231). -/
def State.scheduleCommit (s : State) (n : Nat) (told : Option Channel) : State :=
  let s := { s with
    tick := { s.tick with commitAt := some n, told := told }
    mas := { s.mas with banks := s.mas.banks.map (fun (b : Overlay) =>
      if b.state = BankState.staging then { b with state := .pending } else b) } }
  (s.put R.BCHK_STATUS_PENDING true).wr64 R.COMMIT_TICK_LO R.COMMIT_TICK_HI n

/-- The epoch that the next commit opens (R37). -/
def State.nextEpoch (s : State) : Nat := (s.tick.epoch + 1) % 2 ^ 32

/-- The coming tick that a 48-bit number names (R41, R70). -/
def State.tickAt (s : State) (k : Nat) : Nat := s.tick.num + (k + 2 ^ 48 - s.tickNum) % 2 ^ 48

/-- A check for a commit has passed or failed (R70, R72, R73, R520, R606) (DEDUCED, log entry 54). -/
def State.commitChecked (s : State) (ch : Channel) (at_ : Option Nat) (v : Verdict) : State :=
  let n := match at_ with
    | some k => s.tickAt k
    | none => s.tick.num + 2
  if s.bit R.FLT_STAT_ECLIPSE then s.conFinish (erReply 19)
  else if s.tick.commitAt.isSome then s.conFinish (erReply 33)
  else if v.code ≠ 0 then s.conFinish (v.reply false)
  else if n < s.tick.num + 2 ∨ s.tick.num + 2 ^ 24 < n then s.conFinish (erReply 32)
  else
    (s.scheduleCommit n (some ch)).conFinish
      (okReply (txt "epoch " ++ dec s.nextEpoch ++ txt " at tick " ++ dec (n % 2 ^ 48) ++ txt " " ++ v.share))

/-- The level of source BOOT (chapter 19). -/
def State.bootLevel (s : State) : Bool :=
  s.bit R.FUSE_STAT_FUSE_MARGINAL || s.bit R.BOOT_STAT_CFG_FAIL || s.bit R.BOOT_STAT_RECOVERY

/-- The first configuration fails (R588): staging is dropped, READY is set, and the failing record's index, or 0xFFFFFF, shows. -/
def State.configFail (s : State) (idx : Nat) : State :=
  let was := s.bootLevel
  let s : State := { s.stageDrop with boot := { s.boot with phase := .ended, cfg := [], cfgWait := none } }
  (((s.setLevel R.BOOT_STAT_CFG_FAIL 247 was).wr R.CFG_FAIL_IDX idx).becomeReady).log 0xA3 (idx % 2 ^ 16)

/-- BUDGET_CHECK_DONE (R69, R70, R520, R535, R536, R587): MGC completes the oldest check asked of it. -/
def execBudgetCheckDone (s : State) : Host.Outcome State Fault Refusal :=
  match s.tick.checks with
  | [] => .next s
  | c :: t =>
    if s.mgcStopped then .next s
    else
      let dusk := c == .dusk
      let v := s.verdict (if dusk then s.forceCfg else s.stagedCfg)
      let pend := s.tick.commitAt.isSome
      let s := { s with tick := { s.tick with checks := t } }.noteCheck (!dusk) v
      let r := v.reply false
      let s : State := if dusk then s else { s with con := { s.con with lastCheck := some (r.ok, r.text) } }
      match c with
      | .check ch => .next (if s.waitsCheck (chNum ch) then s.conFinish (v.reply pend) else s)
      | .boot =>
        if s.boot.phase ≠ .config then .next s
        else if v.code ≠ 0 ∨ s.bit R.FLT_STAT_ECLIPSE then .next (s.configFail 0xFFFFFF)
        else .next (s.scheduleCommit (s.tick.num + 2) none)
      | .commit ch at_ => .next (if s.waitsCheck (chNum ch) then s.commitChecked ch at_ v else s)
      | .dusk =>
        if s.pm.phase ≠ .duskCheck then .next s
        else if v.code = 0 then .next { s with pm := { s.pm with phase := .duskAt (s.tick.num + 2) } }
        else .next (({ s with pm := { s.pm with phase := .settled } }.put R.PM_STAT_BUSY false).pmRefuse 1)

/-- CHECK_RERUN (R75): the check against the configuration in force; a failure leaves it in force and sets STALE (DEDUCED, log entry 54). -/
def execCheckRerun (s : State) : Host.Outcome State Fault Refusal :=
  if s.tick.rerun = false ∨ s.mgcStopped then .next s
  else
    let v := s.verdict s.forceCfg
    let s := { s with tick := { s.tick with rerun := false } }.noteCheck false v
    if v.code = 0 then .next s else .next ((s.setFlag R.BCHK_STATUS_STALE 235).log 0x12 v.code)

/-! ### What changes at the boundary, part by part -/

/-- The overlay bank that waited comes into force with its policers (R229, R231). -/
def State.commitBanks (s : State) (old e : Nat) : State :=
  let o := s.mas.banks.filter (·.state == .pending)
  let s := { s with mas := { s.mas with banks := s.mas.banks.map (fun (b : Overlay) =>
    if b.state = BankState.pending then { b with state := .active, epoch := e } else b) } }
  o.foldl (fun s b => s.fillPolicers b old) s

/-- Loaded keys and changed CRU parameters come into force, and the banks they replace retire (R445, R454). -/
def State.commitKeys (s : State) (changed : Fld → Bool) (e : Nat) : State :=
  let pars (u : Nat) : List Fld := [R.CRU_CFG_WIDTH u, R.CRU_CFG_REFIN u, R.CRU_CFG_REFOUT u, R.POLY_LO u, R.POLY_HI u, R.INIT_LO u,
    R.INIT_HI u, R.XOROUT_LO u, R.XOROUT_HI u]
  { s with
    dge := { s.dge with slots := s.dge.slots.map (fun x =>
      (x.1, if x.2.staged then ⟨x.2.other, x.2.force, false, some e⟩ else x.2)) }
    crus := s.crus.zipIdx.map (fun x => if (pars x.2).any changed then { x.1 with retiring := some e } else x.1) }

/-- A pending template's new content comes into force (R205). -/
def State.installTpl (s : State) (t : Nat) : State :=
  match mget s.buf.tplPend t with
  | none => s
  | some v =>
    let old := mgetD s.buf.tplForce t ⟨false, 14, 0, []⟩
    { s with buf := { s.buf with
        tplForce := if v = old then s.buf.tplForce else mput s.buf.tplForce t v, tplPend := mdel s.buf.tplPend t } }

/-- A staged template: it waits while frames are folded against its old content, and holds back nothing else (R205, R206). -/
def State.commitTpl (s : State) (t : Nat) (v : Tpl) : State :=
  if v = s.tpl t ∧ (mget s.buf.tplPend t).isNone then s
  else
    let s : State := { s with buf := { s.buf with tplPend := mput s.buf.tplPend t v } }
    if s.tplRefs t = 0 then s.installTpl t else s

/-- Staged templates and flow records (R92, R205). -/
def State.commitTables (s : State) : State :=
  let tpls := s.buf.tplStg
  let flows := s.led.flowStg
  let s : State := { s with buf := { s.buf with tplStg := [] }, led := { s.led with flowStg := [] } }
  let s := tpls.foldl (fun s x => s.commitTpl x.1 x.2) s
  flows.foldl (fun s x => s.setFlow x.1 { s.flow x.1 with fn := x.2.1, en := x.2.2.1, hostseq := x.2.2.2 }) s

/-- Buckets whose depth or rate changes are full, the transmit envelopes of rings among them (R61, R62, R676). -/
def State.commitBuckets (s : State) (changed : Fld → Bool) : State :=
  let s : State := { s with ports := s.ports.zipIdx.map (fun x =>
    { x.1 with buckets := x.1.buckets.zipIdx.map (fun b =>
      if changed (R.ENV_RATE x.2 b.2) || changed (R.ENV_BURST x.2 b.2) then ⟨s.inf (R.ENV_BURST x.2 b.2) * 512000, s.now⟩ else b.1) }) }
  (List.range 17).foldl (fun s f => (List.range 4).foldl (fun s r =>
    if changed (R.TENV_RATE f r) || changed (R.TENV_BURST f r) then
      s.modRing f r (fun x => { x with bucket := ⟨s.inf (R.TENV_BURST f r) * 512000, s.now⟩ })
    else s) s) s

/-- The gate list, the credits and preemption of a port (R294, R296, R303, R305). -/
def State.commitQueues (s : State) (changed : Fld → Bool) (p : Nat) : State :=
  let gate := changed (R.QPORT_CFG_GATE_EN p)
  let len := s.inf (R.GCL_ADMIN_LEN p)
  let list := gate || changed (R.GCL_ADMIN_LEN p) || changed (R.GCL_ADMIN_BASE_LO p) || changed (R.GCL_ADMIN_BASE_HI p)
    || (List.range 256).any (fun e => changed (R.GCL_ADMIN p e))
  let s := s.modPort p (fun q => { q with credits := q.credits.zipIdx.map (fun c =>
    if changed (R.Q_IDLE_SLOPE p c.2) || changed (R.Q_CFG_SHAPER_EN p c.2) then (0, s.now) else c.1) })
  let s := if list then
      (s.modPort p (fun q => { q with gclPend := some ((List.range len).map (fun e => s.inf (R.GCL_ADMIN p e)),
        s.inf (R.GCL_ADMIN_BASE_LO p) + 2 ^ 32 * s.inf (R.GCL_ADMIN_BASE_HI p)) })).put (R.QPORT_STAT_GCL_PEND p) true
    else s
  let s := if gate then s.gateBoundary p else s
  if changed (R.QPORT_CFG_PREEMPT_EN p) then s.verifyStart p
  else if changed (R.QPORT_CFG_VERIFY_DIS p) ∧ s.inf (R.QPORT_CFG_PREEMPT_EN p) = 1 ∧ isUp s p then
    if s.inf (R.QPORT_CFG_VERIFY_DIS p) = 1 then s.setPreempt p true
    else if s.rd (R.QPORT_STAT_VERIFY_STATE p) = 1 then s.verifyStart p
    else s.setPreempt p (s.rd (R.QPORT_STAT_VERIFY_STATE p) == 3)
  else s

/-- A port is DISABLED: no fault is signalled on it (R127). -/
def State.disable (s : State) (p : Nat) : State :=
  let s := (s.linkState p 0).modPort p (fun q => { q with causes := [] })
  (s.put (R.PORT_STAT_LOCAL_FAULT p) false).put (R.PORT_STAT_REMOTE_FAULT p) false

/-- A change of IF or RATE_MAX restarts a port's link from ACQUIRE, or leaves it DISABLED (R125, R127). On a port that is UP or in DEBOUNCE
the restart is taken as a loss of the link, with what R129 gives one, though R129 names only the expiry, PCS_RST and AN_RESTART (DESIGN CHOICE, log entry 93). -/
def State.commitLink (s : State) (changed : Fld → Bool) (p : Nat) : State :=
  let s := if changed (R.PORT_CFG_IF p) || changed (R.PORT_CFG_RATE_MAX p) then
      let s := s.relink p
      if s.inf (R.PORT_CFG_IF p) = 0 then s.disable p else s
    else s
  s.plainPause p

/-- A tenant whose enabled rings exceed its quotas in force (R341). -/
def State.overQuota (s : State) (n : Nat) : Bool :=
  (List.range 10).any (fun r => s.bit (R.RING_CFG_EN n r) && !s.quotaOk n r (s.rd (R.RING_CFG_LOG2_SIZE n r)))

/-- Tenants that a lowered quota resets (R341). -/
def State.commitQuotas (s : State) : State :=
  ((List.finRange 16).filter (fun (n : Fin 16) => s.overQuota n)).foldl (fun s n =>
    let s := s.flrTenant n
    { s with hif := { s.hif with quotaReset := setBitAt s.hif.quotaReset n true } }) s

/-- The first configuration makes the device ready, and ends the view of the cause of an earlier Eclipse (R329, R603); after a wake from
Night MGC wakes the PHYs (R551) (DEDUCED, log entry 68). -/
def State.commitFirst (s : State) (boot : Bool) : State :=
  let s := if s.ladder.keepEcl then
      ({ s with ladder := { s.ladder with keepEcl := false } }.wr R.ECL_CAUSE 0).wr64 R.ECL_TICK_LO R.ECL_TICK_HI 0
    else s
  if boot then
    let s := (s.becomeReady.put R.HIF_STAT_FW_LATE false).wakePhys
    { s with boot := { s.boot with phase := .ended } }
  else s

/-- The pending commit takes effect (R37, R38, R71). -/
def State.commitNow (s : State) : State :=
  match s.tick.commitAt with
  | none => s
  | some n =>
    let old := s.force
    let changed (f : Fld) : Bool := regGet old f != regGet s.regs f
    let was := s.tick.epoch
    let e := s.nextEpoch
    let told := s.tick.told
    let s := s.syncCredits
    let s : State := { s with
      force := stagedPart s.regs, oldForce := s.oldForce ++ [(was, old)]
      tick := { s.tick with epoch := e, commitAt := none, told := none } }
    let s := ((s.wr R.CFG_EPOCH e).put R.HAC_STAT_RETIRING true).put R.BCHK_STATUS_PENDING false
    let s := (s.put R.BCHK_STATUS_LOCKED false).put R.BCHK_STATUS_STALE false
    let per := changed R.TICK_CFG_PERIOD
    let s := s.wr R.TICK_ACTIVE (s.inf R.TICK_CFG_PERIOD + 2 ^ 8 * s.inf R.TICK_CFG_PHASE)
    let s := ((s.commitBanks was e).commitKeys changed e).commitTables.commitBuckets changed
    let s := (List.range 6).foldl (fun s p => (s.commitLink changed p).commitQueues changed p) s
    let s := (s.recCommit changed).commitQuotas
    let s := if per then s.outsPeriod else s
    let s := if changed R.NETCON_CFG2_KEY then
        (List.range 6).foldl (fun s p => s.wr (R.NET_LAST_SEQ p) (s.rd (R.NET_LAST_SEQ p) % 2 ^ 16)) s
      else s
    let s := (s.commitFirst told.isNone).log 0x11 e
    match told with
    | some ch => s.evLine (chNum ch) (txt "commit epoch " ++ dec e ++ txt " tick " ++ dec (n % 2 ^ 48))
    | none => s

/-- A commit is due: the tick it names has begun. -/
def State.commitDue (s : State) : Bool :=
  match s.tick.commitAt with
  | some n => decide (n ≤ s.tick.num)
  | none => false

/-- COMMIT_BOUNDARY (R71): it happens whether or not MGC has halted meanwhile, since every engine changes by itself (R34, R74) (DESIGN CHOICE, log entry 93). -/
def execCommitBoundary (s : State) : Host.Outcome State Fault Refusal := if s.commitDue then .next s.commitNow else .next s

/-! ### What waits for a commit boundary (R603, R608, R622) -/

/-- A commit whose boundary has come takes effect before what follows it (R608, R622) (DEDUCED, log entry 88). -/
def State.boundaryFirst (s : State) : State := if s.commitDue then s.commitNow else s

/-- A cause of Eclipse arises: a boundary whose commit is due is processed first (R608). -/
def State.eclipse (s : State) (cause : Nat) (lost : Entry → Bool) : State := s.boundaryFirst.enterEclipse cause lost

/-- A write of 1 to FLT_CTRL.ECLIPSE_REQ (R603, R607). -/
def State.eclipseReq (s : State) : State := if s.bit R.FLT_STAT_ECLIPSE then s else s.eclipse 10 (fun _ => false)

/-- ECLIPSE_REQ (R603, R607): the owner asks for Eclipse. -/
def execEclipseReq (s : State) : Host.Outcome State Fault Refusal := .next s.eclipseReq

end Sys2Proof.Machine
end

