-- ==== Sys2Proof/Machine/Stripes.lean ====
section
/-! DEFINITION. Reading cells through their stripes, parity and checks, bank faults, the scrub, and templates in change
(spec/06_buffer_and_folding.md R183 to R193, R205). -/

namespace Sys2Proof.Machine

/-! ### Stripes (R178, R182, R183) -/

/-- Stripe k of a cell's 128 bytes, the parity for k = 4 (R178). -/
def stripeOf (b : List Byte) (k : Nat) : List Byte :=
  if k < 4 then sliceD b (32 * k) 32
  else (List.range 32).map (fun i => b.getD i 0 ^^^ b.getD (32 + i) 0 ^^^ b.getD (64 + i) 0 ^^^ b.getD (96 + i) 0)

/-- Stripe k rebuilt from the other four (R178). -/
def rebuilt (l : List (List Byte)) (k : Nat) : List Byte :=
  (List.range 32).map (fun i =>
    ((List.range 5).filter (· != k)).foldl (fun a j => a ^^^ (l.getD j []).getD i 0) (0 : Byte))

/-- What a cell read gives (R183): its data where one step succeeds, the counts, whether data was corrected or rebuilt, and
the first failing stripe. -/
structure CellRead where
  data : Option (List Byte)
  corr : Nat
  unc : Nat
  crcFail : Bool
  rebuild : Bool
  bank : Nat
  deriving DecidableEq, Repr

/-- The steps of R183 over the stripes as read: `lost` are the stripes with an uncorrectable word or in a failed bank. A
failed parity bank costs nothing (edge case "B4 fails"); a cell that fails with no failing stripe names bank 0 (R184) (DEDUCED, DESIGN CHOICE, log entries 42, 93). -/
def cellSteps (cell ccrc : Nat) (l : List (List Byte)) (lost unc : List Nat) (corr : Nat) : CellRead :=
  let join (l : List (List Byte)) : List Byte := (l.take 4).flatten
  let good (l : List (List Byte)) : Bool := ccrcOf cell (join l) == ccrc
  let n := unc.sum
  match lost with
  | [] =>
    if good l then ⟨some (join l), corr, n, false, false, 0⟩
    else
      match (List.range 4).filter (fun k => good (l.set k (rebuilt l k))) with
      | [k] => ⟨some (join (l.set k (rebuilt l k))), corr, n, true, true, k⟩
      | _ => ⟨none, corr, n, true, false, 0⟩
  | [k] =>
    let l' := if k = 4 then l else l.set k (rebuilt l k)
    if good l' then ⟨some (join l'), corr, n, false, decide (k < 4 ∨ unc.getD 4 0 ≠ 0), k⟩
    else ⟨none, corr, n, n == 0, false, k⟩
  | k :: _ => ⟨none, corr, n, n == 0, false, k⟩

/-- A read of a cell that met some faults (R183): words of a bank out of service are not read (DEDUCED, log entry 42). -/
def State.readCell (s : State) (cell : Nat) (c : CellRec) (f : CellFault) : CellRead :=
  let b := sliceD c.bytes 0 128
  let l := (List.range 5).map (stripeOf b)
  let l := f.silent.foldl (fun l x => l.set x.1.val (sliceD x.2 0 32)) l
  let bad (k : Nat) : Bool := s.bitAt R.BUF_STAT_BANK_FAIL k
  let unc := (List.range 5).map (fun k => if bad k then 0 else f.unc.getD k 0)
  cellSteps cell c.ccrc l ((List.range 5).filter (fun k => bad k || unc.getD k 0 != 0)) unc f.corrected

/-- The words and write failures of a read count toward the judgement of the banks (R186). -/
def State.tally (s : State) (f : CellFault) : State :=
  let unc := s.buf.uncTick.zipIdx.map (fun p => if s.bitAt R.BUF_STAT_BANK_FAIL p.2 then p.1 else p.1 + f.unc.getD p.2 0)
  { s with buf := { s.buf with uncTick := unc, writeFail := s.buf.writeFail ++ f.writeFail.filter (· < 5) } }

/-- The counters of a cell read (R183); ECC_CORR_CNT counts each corrected word whichever step the read comes to, where the table names it at
step 1 (DEDUCED, log entry 42). -/
def State.countRead (s : State) (r : CellRead) : State :=
  let s := (s.add R.ECC_CORR_CNT r.corr).add R.ECC_UNC_CNT r.unc
  let s := if r.crcFail then s.inc R.CRC_FAIL_CNT else s
  let s := if r.rebuild then s.inc R.REBUILD_CNT else s
  if r.data.isNone then s.inc R.DATA_FAULT_CNT else s

/-! ### Unreadable cells (R184, R189, R439) -/

/-- The frame that holds a cell. -/
def State.frameOfCell (s : State) (cell : Nat) : Option (Nat × Frame) := s.frames.find? (fun f => f.2.cells.contains cell)

/-- The exits of a frame that still need its data (R184): not yet staged, nor written to the host. -/
def State.needData (s : State) (h : Nat) (f : Frame) : List Nat :=
  (List.range f.exits.length).filter (fun i =>
    match f.exits[i]? with
    | none => false
    | some x =>
      match x.disp, mget s.led.entries x.entry with
      | none, some e =>
        e.stage == 1 || e.stage == 2 || (e.stage == 4 && !s.hif.posted.any (fun w => w.ends.contains (h, i, false)))
      | _, _ => false)

/-- A frame has a job of DGE or CRU that is not complete (R438, R439). -/
def State.openJob (s : State) (h : Nat) : Bool :=
  s.mas.lanes.any (fun l => (l.res.toList ++ l.parked).any (fun x => x.1 == h && x.2.jobs.any (fun j => !j.done)))

/-- A cell of a frame cannot be read (R184); where the frame's open job may have read it, its resolution ends (R439) (DEDUCED, log entry 42). -/
def State.cellLost (s : State) (job : Bool) (cell bank : Nat) : State :=
  match s.frameOfCell cell with
  | none => s.bufFault cell bank
  | some (h, f) =>
    if job && s.openJob h then (s.bufFault cell bank).faultResolution h else s.dataFault h (s.needData h f) cell bank

/-- A cell's link word (R189): uncorrectable in one copy it is rewritten from the other; in both, the frame's chain is broken. -/
def State.linkRead (s : State) (cell : Nat) (n : Fin 3) : State :=
  match n with
  | 0 => s
  | 1 => s.inc R.LINK_ERR_CNT
  | 2 =>
    let h := (s.frameOfCell cell).map (·.1)
    s.eclipse 2 (fun e => some e.frame == h)

/-- CELL_READ (R183, R184, R186, R189): a read of a cell that belongs to a frame. -/
def execCellRead (cell : Cell) (f : CellFault) (s : State) : Host.Outcome State Fault Refusal :=
  match mget s.buf.cells cell.val with
  | some (some c) =>
    let s := (s.tally f).linkRead cell.val f.link
    let r := s.readCell cell.val c f
    let s := s.countRead r
    .next (if r.data.isNone then s.cellLost true cell.val r.bank else s)
  | _ => .next s

/-! ### The scrub (R190 to R193) -/

/-- The instant of the next scrub read: INTERVAL core cycles after the last (R190). -/
def State.scrubNext (s : State) : Nat :=
  match s.buf.scrubRead with
  | some t => t + s.rd R.SCRUB_CFG_INTERVAL * s.cycle
  | none => s.now

/-- BUF_SCRUB_READ (R190, R191, R193): the next cell index; a free cell's stripes, and those of a cell that is taken and not yet
written, are checked for their ECC alone. A read that meets a write of the same cell (`met`) skips it (DEDUCED, log entry 42). -/
def execBufScrubRead (f : CellFault) (met : Bool) (s : State) : Host.Outcome State Fault Refusal :=
  if s.bit R.SCRUB_CFG_EN = false then .next s
  else
    let i := s.buf.scrubAt
    let s := s.upTo s.scrubNext
    let last := decide (i + 1 ≥ cellCount)
    let s := s.put R.BUF_STAT_SCRUB_ACTIVE true
    let s := if last then s.inc R.SCRUB_PASS else s
    let s : State := { s with buf := { s.buf with scrubAt := if last then 0 else i + 1, writeback := none, scrubRead := some s.now } }
    if met then .next s
    else match mget s.buf.cells i with
    | some (some c) =>
      let s := (s.tally f).linkRead i f.link
      let r := s.readCell i c f
      let s := s.countRead r
      if r.data.isNone then .next (s.cellLost false i r.bank)
      else if f.corrected ≠ 0 ∨ r.rebuild then .next { s with buf := { s.buf with writeback := some i } }
      else .next s
    | _ => .next ((s.tally f).add R.ECC_UNC_CNT f.unc.sum)

/-- BUF_SCRUB_WRITEBACK (R192, R193): the corrected cell is written back, all five stripes, unless it has been freed or written
again, or meets a write of the same cell (`met`) (DEDUCED, log entry 42). -/
def execBufScrubWriteback (met : Bool) (s : State) : Host.Outcome State Fault Refusal :=
  match s.buf.writeback with
  | none => .next s
  | some i =>
    let s : State := { s with buf := { s.buf with writeback := none } }
    if met then .next s
    else match mget s.buf.cells i with
    | some (some c) => .next { s with buf := { s.buf with cells := mput s.buf.cells i (some { c with ccrc := ccrcOf i c.bytes }) } }
    | _ => .next s

/-- A tick boundary for the banks (R186, R188): a bank with too many uncorrectable words, or a write failure, goes out of
service; a second one cannot be contained, and the Eclipse that it causes is all it does: its own bit, log entry and source stay as they
are (DEDUCED, log entry 41). -/
def State.judgeBanks (s : State) : State :=
  let hit := (List.range 5).filter (fun b => !s.bitAt R.BUF_STAT_BANK_FAIL b
    && (decide (s.buf.uncTick.getD b 0 > s.rd R.BANK_FAIL_THR) || s.buf.writeFail.contains b))
  let s : State := { s with buf := { s.buf with uncTick := List.replicate 5 0, writeFail := [] } }
  hit.foldl (fun s b =>
    if s.rd R.BUF_STAT_BANK_FAIL ≠ 0 then s.enterEclipse 1 (fun _ => false)
    else ((s.putAt R.BUF_STAT_BANK_FAIL b true).log 0x38 b).raise 226) s

/-! ### Templates in change (R205) -/

/-- TEMPLATE_INSTALL (R205): in the cycle in which REFS of a pending template reaches 0. -/
def execTemplateInstall (t : Template) (s : State) : Host.Outcome State Fault Refusal :=
  if s.tplRefs t = 0 then .next (s.installTpl t) else .next s

end Sys2Proof.Machine
end

