-- ==== Sys2Proof/Machine/Boundary.lean ====
section
/-! DEFINITION. The tick boundary (spec/02_tick_and_budget.md R36, R43 to R50, R76 to R80): the phase of the tick, the judgement of
late work, and what every chapter counts or judges at a boundary; and thermal derating (spec/00_scope.md R5,
spec/18_power_and_wake.md R558, R559). -/

namespace Sys2Proof.Machine

/-! ### Phase and length (R44 to R49) -/

/-- PERIOD and PHASE from this boundary on: those of a commit that is due, else those in force (R40, R49) (DEDUCED, log entry 59). -/
def State.tickCfg (s : State) : Nat × Nat :=
  if s.commitDue then (s.rd R.TICK_CFG_PERIOD, s.rd R.TICK_CFG_PHASE)
  else (s.rd R.TICK_ACTIVE % 8, s.rd R.TICK_ACTIVE / 2 ^ 8 % 2 ^ 18)

/-- The phase error in ns of a boundary now (R45). -/
def phaseError (ns period phase : Nat) : Int :=
  let x := (ns % period + period - phase % period) % period
  if 2 * x ≥ period then (x : Int) - period else x

/-- The new tick's length, and the flags that follow from the phase error (R44 to R48) (DEDUCED, log entry 59). -/
def State.measure (s : State) : State :=
  let (code, phase) := s.tickCfg
  let p := 15625 * 2 ^ code
  let len (n : Nat) (s : State) : State := { s with tick := { s.tick with len := n } }
  if s.tdValid 0 = false then
    ((len (p * unitsPerNs) s).put R.TICK_STAT_TICK_UNSYNCED true).put R.TICK_STAT_TICK_SLEWING false
  else
    let e := phaseError (s.tdNs 0) p phase
    let cut : Int := max (-(p : Int)) (min (e * 64) p)
    let s := (len (((p * 64 : Nat) : Int) - cut).toNat s).wr R.TICK_ERR (ofSigned 32 e)
    let s := if e.natAbs ≤ 32 then s.put R.TICK_STAT_TICK_UNSYNCED false else s
    s.put R.TICK_STAT_TICK_SLEWING (decide (e.natAbs * 64 > p))

/-! ### Late work (R50, R76 to R80) -/

/-- The units (6 DGE, 7 CRU) whose jobs a resolution waits for, or MAS (R50, R263). -/
def Ctx.lateAt (c : Ctx) : List Nat :=
  if c.fin = .waiting ∧ c.jobs.any (fun j => !j.done) then
    (if c.jobs.any (fun j => !j.done && j.unit.isNone) then [6] else [])
      ++ (if c.jobs.any (fun j => !j.done && j.unit.isSome) then [7] else [])
  else [0]

/-- The exit of an entry whose data or completion is still to be written at the boundary that opens tick m, after the end of its
frame's deadline tick (R50); the entry holds only five bits of the tick of acceptance (R95). -/
def State.exitOver (s : State) (m : Nat) (e : Entry) : Option Nat :=
  match mget s.frames e.frame with
  | none => none
  | some f => if (e.stage = 4 ∨ e.stage = 5) ∧ f.accTick + 3 ≤ m then some (f.accTick + 3) else none

/-- A frame whose resolution has missed its deadline by the boundary that opens tick m (R50). -/
def Frame.overdue (f : Frame) (m : Nat) : Bool := !f.resolved && decide (f.accTick + 2 ≤ m)

/-- The deadlines that have passed by the boundary that opens tick m, as bits of OVERRUN_ENG and the deadline's boundary: resolutions,
with the units that a resolution waits for; write-backs of data, completions and event records (R378); interrupt messages of rings (DEDUCED, log entry 58). -/
def State.late (s : State) (m : Nat) : List (Nat × Nat) :=
  let res := s.frames.flatMap (fun x =>
    if x.2.overdue m then
      (match s.ctxOf x.1 with
        | some c => c.lateAt
        | none => [0]).map (fun b => (b, x.2.accTick + 2))
    else [])
  let exits := s.led.entries.filterMap (fun e => (s.exitOver m e.2).map (fun d => (5, d)))
  let cpls := s.hif.rings.flatMap (fun r => r.2.descs.filterMap (fun d =>
    match d.st with
    | .ready c => if c.due + 1 ≤ m then some (5, c.due + 1) else none
    | _ => none))
  let recs := s.events.flatMap (fun x => x.2.filterMap (fun e => if e.due + 1 ≤ m then some (5, e.due + 1) else none))
  let irqs := s.irc.src.filterMap (fun x =>
    match x.2.oldest with
    | some t => if x.1 < 170 ∧ (x.2.latch ∨ x.2.pend) ∧ x.2.mask = false ∧ x.2.insvc = false ∧ t + 1 ≤ m then some (8, t + 1) else none
    | none => none)
  res ++ exits ++ cpls ++ recs ++ irqs

/-- Entries whose frame has missed a deadline of R50 carry LATE from then on (R77, R95). -/
def State.markLate (s : State) : State :=
  { s with led := { s.led with entries := s.led.entries.map (fun e =>
      let missed := (s.exitOver s.tick.num e.2).isSome || ((mget s.frames e.2.frame).map (·.overdue s.tick.num)).getD false
      (e.1, { e.2 with late := e.2.late || missed })) } }

/-- Each engine that holds late work at the boundary is reported (R76, R79) (DEDUCED, log entry 58). -/
def State.judgeLate (s : State) : State :=
  let l := s.late s.tick.num
  let eng := (List.range 9).filter (fun b => l.any (fun x => x.1 == b))
  let s : State := { s.markLate with tick := { s.tick with fresh := (eng.map (2 ^ ·)).sum } }
  if l.isEmpty then s
  else
    let first := (l.map (·.2)).foldl min s.tick.num
    let s := if s.bit R.TICK_STAT_TICK_OVERRUN then s else s.wr R.OVERRUN_FIRST (first % 2 ^ 32)
    let s := (s.setFlag R.TICK_STAT_TICK_OVERRUN 234).inc R.OVERRUN_CNT
    eng.foldl (fun s b => (s.putAt R.TICK_STAT_OVERRUN_ENG b true).log 0x10 (b + 1)) s

/-! ### Judgements of the chapters -/

/-- The watchdogs judge the tick just ended, deadlines grow by held ticks, and classes in XOFF age (R165, R168, R175). The partial tick in
which a class enters XOFF counts as a tick (DESIGN CHOICE, log entry 93). -/
def State.pauseBoundary (s : State) (p : Nat) : State :=
  let s := if (s.port p).heldTick.any id then s.inc (R.PAUSE_HELD_TICKS p) else s
  let q := s.port p
  let heldQ (k : Nat) : Bool := q.heldTick.getD 8 false || q.heldTick.getD (s.prioOf p k) false
  let xoff := s.rd (R.FC_STAT_TX_XOFF p)
  s.modPort p (fun q => { q with
    wdCount := q.wdCount.zipIdx.map (fun x => if q.heldTick.getD x.2 false then x.1 + 1 else x.1 - 1)
    heldTick := q.timers.map (·.isSome)
    queues := q.queues.zipIdx.map (fun x => if heldQ x.2 then
      x.1.map (fun i => if i.started then i else { i with deadline := i.deadline + 1 }) else x.1)
    xoffTicks := q.xoffTicks.zipIdx.map (fun x => if xoff.testBit x.2 then x.1 + 1 else 0) })

/-- Counts of ticks: sync intervals and holdover (R402 to R405), the Eclipse drain (R605), the rebuild of a mirror (R106), the ages of the
FIFOs (R488), and the work of the tick just ended (R483) (DEDUCED, log entry 58). -/
def State.countTicks (s : State) : State :=
  { s with
    td := s.td.zipIdx.map (fun x => { x.1 with
      sinceRate := x.1.sinceRate + 1, holdTicks := if s.domState x.2 = 2 then x.1.holdTicks + 1 else x.1.holdTicks })
    tick := { s.tick with worked := s.tick.work, work := [0, 0, 0, 0, 0, 0, 0], ahead := 0 }
    ladder := if s.bit R.FLT_STAT_ECL_DRAIN then { s.ladder with drained := s.ladder.drained + 1 } else s.ladder
    led := if s.bit R.LED_STAT_REBUILD then { s.led with rebuilt := s.led.rebuilt + 1 } else s.led
    irc := { s.irc with
      sysThisTick := 0
      aged := (s.irc.aged.1 && !s.irc.log.isEmpty, s.irc.aged.2 && !s.irc.tele.isEmpty)
      logAge := if s.irc.log.isEmpty then 0 else s.irc.logAge + 1
      teleAge := if s.irc.tele.isEmpty then 0 else s.irc.teleAge + 1 } }

/-- The units of the last complete tick (R434, R454, registers of chapter 15). -/
def State.showUnits (s : State) : State :=
  let s := s.wr R.DGE_UNITS_LAST (s.dge.units.1 % 2 ^ 12 + 2 ^ 16 * (s.dge.units.2 % 2 ^ 12))
  let s := (List.range 4).foldl (fun s u =>
    s.wr (R.CRU_BLOCKS_LAST u) ((s.cru u).blocks.1 % 2 ^ 16 + 2 ^ 16 * ((s.cru u).blocks.2 % 2 ^ 16))) s
  { s with dge := { s.dge with units := (0, 0) }, crus := s.crus.map (fun c => { c with blocks := (0, 0) }) }

/-! ### Temperature (R5, R558, R559) -/

/-- Derating begins or ends: every port that may run above 5 Gb/s is restarted, and the check is rerun (R558) (DEDUCED, log entry 59). -/
def State.derate (s : State) (on : Bool) : State :=
  let s := s.put R.THERM_STAT_DERATE on
  let s : State := { s with tick := { s.tick with rerun := true }, pm := { s.pm with coolTicks := 0 } }
  ((List.range 6).filter (fun p => s.inf (R.PORT_CFG_IF p) != 0 && decide (s.inf (R.PORT_CFG_RATE_MAX p) > 4))).foldl State.pcsRst
    (s.arrive 244 false)

/-- The sensor is read, in units of 0.25 °C (R5, R558) (DEDUCED, log entry 59). -/
def State.readTemp (s : State) (tj : Int) : State :=
  let s := s.wr R.TEMP (ofSigned 11 tj)
  if s.bit R.THERM_STAT_DERATE then
    { s with pm := { s.pm with coolTicks := if tj ≤ 480 then s.pm.coolTicks + 1 else 0 } }
  else if tj > 500 ∧ s.rd R.DEV_ID / 16 % 16 = 2 then s.derate true
  else s

/-- THERM_DERATE_CLEAR (R5): Tj has stayed at or below 120 °C for 16 ticks (DEDUCED, log entry 59). -/
def execThermDerateClear (s : State) : Host.Outcome State Fault Refusal :=
  if s.bit R.THERM_STAT_DERATE ∧ s.pm.coolTicks ≥ 16 then .next (s.derate false) else .next s

/-! ### The boundary -/

/-- Causes of Eclipse at a boundary (R188, R559); a commit that is due at the same boundary comes first (R608) (DEDUCED, log entry 59). -/
def State.eclipseBoundary (s : State) (tj : Int) : State :=
  let hot := decide (tj > 4 * s.rd R.TJ_ALARM)
  let s := if s.bit R.FLT_STAT_ECLIPSE = false ∧ s.commitDue ∧ (hot ∨ s.judgeBanks.bit R.FLT_STAT_ECLIPSE) then s.commitNow else s
  let s := s.judgeBanks
  if hot then
    let s := s.put R.THERM_STAT_ALARM true
    if s.bit R.HIF_STAT_READY then s.enterEclipse 6 (fun _ => false) else s
  else s

/-- A new tick begins (R36, R41, R43). -/
def State.openTick (s : State) : State :=
  let s := (s.upTo s.nextBoundary).syncCredits
  let s := s.unitsTo (s.now - 1)
  let s : State := { s with tick := { s.tick with num := s.tick.num + 1, start := s.now } }
  { s with tick := { s.tick with sec := s.tdSec 0 } }

/-- TICK_BOUNDARY (R36) (DEDUCED, log entry 58). -/
def execTickBoundary (tj : BitVec 11) (s : State) : Host.Outcome State Fault Refusal :=
  let t := tj.toInt
  let s := s.openTick.judgeLate
  let s := (List.range 6).foldl (fun s p => (s.pauseBoundary p).gateBoundary p) s
  let s := s.countTicks.showUnits.outsTick
  let s := (State.netDrain 8 s).readTemp t
  .next (s.eclipseBoundary t).measure.issueReads

end Sys2Proof.Machine
end

