-- ==== Sys2Proof/Machine/Faults.lean ====
section
/-! DEFINITION. Faults of the ledger's mirrors, of lanes and of engines, and engine resets (spec/03_accepted_work.md R105 to R110,
spec/07_match_action_tables.md R210, spec/20_faults_and_recovery.md R590 to R595 and R608). -/

namespace Sys2Proof.Machine

/-! ### Ledger mirrors (R105 to R108) -/

/-- The flag of a mirror out of service. -/
def mirrorFlag (m : Nat) : Fld := if m = 0 then R.LED_STAT_M0_FAIL else R.LED_STAT_M1_FAIL

/-- A mirror meets an uncorrectable error or a failed write (R106); in the last mirror it cannot be contained (R107) (DEDUCED, log entry 65). -/
def State.mirrorFail (s : State) (m : Nat) : State :=
  if s.bit (mirrorFlag m) then s
  else if s.bit (mirrorFlag (1 - m)) then s.eclipse 3 (fun _ => false)
  else { (s.put (mirrorFlag m) true).put R.LED_STAT_REBUILD true with led := { s.led with rebuilt := 0 } }.log 0x30 m

/-- LED_MIRROR_FAIL (R106, R107). -/
def execLedMirrorFail (m : Mirror) (s : State) : Host.Outcome State Fault Refusal := .next (s.mirrorFail m)

/-- LED_SCRUB (R105, R106, R108): one word of both mirrors is compared. -/
def execLedScrub (w : MirrorState) (s : State) : Host.Outcome State Fault Refusal :=
  match w with
  | .clean => .next s
  | .corrected => .next (s.inc R.MIRROR_ERR_CNT)
  | .uncorrectable m => .next (s.mirrorFail m)
  | .differ =>
    if s.bit R.LED_STAT_M0_FAIL ∨ s.bit R.LED_STAT_M1_FAIL then .next s else .next (s.eclipse 4 (fun _ => false))

/-- LED_REBUILD_DONE (R106, R107): 4 096 flow records and 65 536 entries have been copied, and every word was tested. -/
def execLedRebuildDone (ok : Bool) (s : State) : Host.Outcome State Fault Refusal :=
  if s.bit R.LED_STAT_REBUILD = false ∨ s.led.rebuilt < 16 then .next s
  else
    let m := if s.bit R.LED_STAT_M0_FAIL then 0 else 1
    let s := s.put R.LED_STAT_REBUILD false
    if ok then .next (s.put (mirrorFlag m) false) else .next ((s.put R.LED_STAT_DEGRADED true).log 0x31 m)

/-! ### Lost classifications and resolutions (R102, R109, R210) -/

/-- Frames in arrival of which something holds lose their classification; the flow that it named stays for a RETRACT (R388) (DEDUCED, log entries 11, 32). -/
def State.loseClass (s : State) (p : Arrival → Bool) : State :=
  allArr.foldl (fun s a => s.modArr a (fun v =>
    if p v then { v with lostClass := true, ctx := v.ctx.filter (fun c => c.fin != .running) } else v)) s

/-- A frame is in classification: its program runs (R210). -/
def Arrival.inClass (v : Arrival) : Bool :=
  match v.ctx with
  | some c => c.fin == .running
  | none => false

/-- Resolutions of which something holds are given up, to be run again from the start. -/
def State.rerunWhere (s : State) (p : Ctx → Bool) : State :=
  { s with mas := { s.mas with lanes := s.mas.lanes.map (fun l =>
    { l with res := l.res.filter (fun x => !p x.2), parked := l.parked.filter (fun x => !p x.2) }) } }

/-- LANE_FAULT (R210) (DEDUCED, log entry 65). -/
def execLaneFault (l : Lane) (s : State) : Host.Outcome State Fault Refusal :=
  if s.laneUp l = false then .next s
  else
    let s := s.unitsSync
    let second := s.rd R.MAS_STAT_LANE_FAIL != 0
    let s := (((s.putAt R.MAS_STAT_LANE_FAIL l true).inc R.LANE_FAULT_CNT).log 0x40 l).raise 228
    let s := s.loseClass (fun v => v.inClass && (v.ctx.map (·.lane)) == some l.val)
    let s := s.modLane l (fun _ => ⟨none, [], none⟩)
    let s := { s with tick := { s.tick with rerun := true } }
    .next (if second then s.eclipse 5 (fun e => e.stage == 1) else s)

/-! ### What a reset of each engine does as it begins (R109, R110) -/

/-- MPn (R155): a frame in transmission is cut off with the inverted FCS, and everything staged or part-sent is staged again, while its
entry stays STAGED (R96); frames in arrival are lost (DEDUCED, log entry 11). -/
def State.resetPort (s : State) (p : Nat) : State :=
  let cut (s : State) (t : TxCur) : State :=
    let b := t.bytes.take (s.sentBytes p t)
    let s := s.sendOut p (.frame p t.start (b ++ leBytes 4 (2 ^ 32 - 1 - fcsOf b)))
    if s.looped p then s.spoilRx p else s
  let s := s.syncPort p
  let s := match (s.port p).tx with
    | some t => cut s t
    | none => s
  let s := s.modPort p (fun q => { q with
    tx := none, preempted := none, slots := List.replicate 3 none
    queues := q.queues.map (fun l => l.map (fun x => { x with started := false })) })
  s.loseClass (fun v => match v.src with
    | .port q => q.val == p
    | _ => false)

/-- QSC (R309): credits restart at 0, and the gate list at the first boundary after the reset (DEDUCED, log entry 21). -/
def State.resetQsc (s : State) : State :=
  { s with ports := s.ports.map (fun q => { q with
    credits := List.replicate 8 (0, s.now), gclFrom := s.tick.num + 1 }) }

/-- A descriptor whose work a reset of HIF abandons: it is being fetched or held, or its completion reports no work that was accepted
or reserved (R381). -/
def Desc.dropped (d : Desc) : Bool :=
  match d.st with
  | .fetching _ | .reading _ _ _ _ | .held => true
  | .ready c => !c.stands
  | _ => false

/-- HEAD of a ring returns to its oldest descriptor that is not accepted or reserved; those are fetched again (R381); the aborts of
a ring reset stand (DEDUCED, log entry 66). -/
def State.abandonFetches (s : State) (f r : Nat) : State :=
  if s.bit (R.RING_STAT_RESETTING f r) then s
  else
    match (s.ring f r).descs.find? Desc.dropped with
    | none => s
    | some d => (s.modRing f r (fun x => { x with descs := x.descs.filter (fun y => !y.dropped) })).wr (R.HEAD f r) d.pos

/-- HIF: fetches not accepted are abandoned (R109, R381) (DEDUCED, log entry 66). -/
def State.resetHif (s : State) : State :=
  let s := allArr.foldl (fun s a => match a with
    | .host _ _ => s.dropArr a
    | .rx _ _ => s) s
  (List.range 17).foldl (fun s f => (List.range 11).foldl (fun s r => s.abandonFetches f r) s) s

/-- After a reset of HIF every write that is not acknowledged is made again, in its order (R97, R109). -/
def State.rewrite (s : State) : State :=
  s.hif.posted.foldl (fun s w => w.tlps.foldl (fun s t => s.emit (.write w.fn t.1 t.2.1 t.2.2)) s) s

/-- TU (R431): every output goes to idle. -/
def State.resetTu (s : State) : State :=
  { s.put R.TU_STAT_TU_RESET true with tu := { s.tu with tout := s.tu.tout.map (fun o => { o with away := false, endAt := none }) } }

/-- DGE (R451): frames in classification lose it (R109); one whose classification has closed keeps it, as R394 says (DEDUCED, log entry 66). -/
def State.resetDge (s : State) : State :=
  let s := (s.rerunWhere (fun c => c.jobs.any (fun j => j.unit.isNone))).loseClass Arrival.inClass
  { s with dge := { s.dge with ctxs := s.dge.ctxs.map (fun x => if x.state = 0 then x else x.fault 2) } }

/-- CRUn (R457) (DEDUCED, log entry 66). -/
def State.resetCru (s : State) (u : Nat) : State :=
  (s.rerunWhere (fun c => c.jobs.any (fun j => j.unit == some u && !j.done))).modCru u (fun c =>
    { c with ports := c.ports.map (fun x => if x.state = 0 then x else x.fault 2) })

/-- IRC (R470, R477): moderation timers read as run out. -/
def State.resetIrc (s : State) : State :=
  { s with irc := { s.irc with lastMsg := none, src := s.irc.src.map (fun x => (x.1, { x.2 with lastIssue := none })) } }

/-- MGC (R595 steps 1 and 2): a pending commit is cancelled; an update session, a hold on context 16, a check and the line in service
end; a first configuration in progress ends too (DEDUCED, log entry 65). -/
def State.resetMgc (s : State) : State :=
  let s := s.cancelCommit.inc R.MGC_RST_CNT
  let s := if (s.stream 16).state ≠ 0 then s.setStream 16 ((s.stream 16).fault 2) else s
  let s := { s with
    tick := { s.tick with checks := [] }
    dge := { s.dge with mgcWait := none }
    boot := { s.boot with session := none, cfg := [], cfgWait := none, phase := if s.boot.phase = StartPhase.config then .ended else s.boot.phase } }
  match s.con.serving, s.con.lines with
  | some _, x :: _ => s.conSilent x
  | _, _ => s

/-- What a reset of an engine does as it begins, by its code (R590). -/
def State.resetEngine (s : State) (e : Nat) : State :=
  if e < 6 then s.resetPort e
  else match e with
    | 6 => (s.rerunWhere (fun _ => true)).loseClass (fun _ => true)
    | 7 => s.resetQsc
    | 8 => s.resetHif
    | 9 => s.resetTu
    | 10 => s.resetDge
    | 15 => s.resetIrc
    | 16 => s.resetMgc
    | _ => s.resetCru (e - 11)

/-- Stamps of both domains change their validity at this instant, as a reset of TU begins or ends (R414, R431). -/
def State.anchorTu (s : State) (e : Nat) : State := if e = 9 then (s.anchor 0).anchor 1 else s

/-- A reset of an engine begins, or begins again (R592, R608) (DEDUCED, log entry 11). -/
def State.beginReset (s : State) (e : Nat) : State :=
  let s := s.unitsSync.anchorTu e
  { s.putAt R.ENG_RST_STAT e true with ladder := { s.ladder with resetAt := mput s.ladder.resetAt e s.now } }.resetEngine e

/-- A self-reset of an engine began in this cycle. -/
def State.selfNow (s : State) (e : Nat) : Bool := s.ladder.selfRun.testBit e && mget s.ladder.resetAt e == some s.now

/-- A requested reset; one of an engine that resets already is ignored, and one in the cycle of its self-reset is that reset (R608). -/
def State.engReset (s : State) (e : Nat) : State :=
  if s.selfNow e then s
  else if s.bitAt R.ENG_RST_STAT e then s.put R.FLT_STAT_GO_IGNORED true else (s.putAt R.ENG_RST e true).beginReset e

/-- PORT_CTRL.MAC_RST (R155): ignored without a flag while the reset runs. -/
def State.macReset (s : State) (p : Nat) : State :=
  if s.bitAt R.ENG_RST_STAT p then s else (s.put (R.PORT_CTRL_MAC_RST p) true).beginReset p

/-- ENG_RST (R592): the owner writes the bit of an engine. -/
def execEngRst (e : Engine) (s : State) : Host.Outcome State Fault Refusal := .next (s.engReset e)

/-- MAC_RST (R155). -/
def execMacRst (p : Port) (s : State) : Host.Outcome State Fault Refusal := .next (s.macReset p)

/-- MGC_RESET (R595). -/
def execMgcReset (s : State) : Host.Outcome State Fault Refusal := .next (s.engReset 16)

/-! ### Self-reset and escalation (R593) -/

/-- The engines with parity on their control state (R593) (DEDUCED, log entry 65). -/
def selfResets (e : Nat) : Bool := decide (e < 6) || e == 7 || e == 8 || e == 9 || e == 15

/-- The entries in the hands of an engine, which take QUIESCED when it escalates (R603 cause 7). -/
def engineWork (e : Nat) (x : Entry) : Bool :=
  if e < 6 then x.dest == e
  else if e = 7 then decide (x.dest < 6) && (x.stage == 2 || x.stage == 3)
  else if e = 8 then decide (8 ≤ x.dest) && (x.stage == 4 || x.stage == 5)
  else false

/-- ENGINE_PARITY_FAULT (R593, R608). -/
def execEngineParityFault (e : Engine) (s : State) : Host.Outcome State Fault Refusal :=
  if selfResets e = false then .next s
  else
    let recent := (mgetD s.ladder.selfAt e []).filter (fun t => decide (s.tick.num < t + s.rd R.ESC_WINDOW))
    if recent.length ≥ s.rd R.ESC_LIMIT then .next ((s.eclipse 7 (engineWork e)).log 0xB5 e)
    else
      let s := (s.inc (R.SELF_RST_CNT e)).log 0xB2 e
      .next ({ s with ladder := { s.ladder with
        selfAt := mput s.ladder.selfAt e (s.tick.num :: recent), selfRun := setBitAt s.ladder.selfRun e true } }.beginReset e)

/-! ### The end of a reset (R592, R595) -/

/-- MGC restarts from MGC SRAM, or, where its code has failed its check, from the slot it was booted from (R595) (DEDUCED, log entry 65). -/
def State.restartMgc (s : State) : State :=
  let reload := s.ladder.codeBad
  let ok := !reload || (!s.bit R.BOOT_STAT_RECOVERY && s.imageValid (s.slot (s.rd R.BOOT_STAT_SLOT)))
  let s := { s with ladder := { s.ladder with codeBad := reload && !ok, kickAt := s.now } }
  let s : State := if reload ∧ ok then { s with boot := { s.boot with sram := mgcSegments (s.slot (s.rd R.BOOT_STAT_SLOT)) } } else s
  let s := if ok then s.put R.FLT_STAT_MGC_HALT false else s.setFlag R.FLT_STAT_MGC_HALT 236
  (s.log 0xB4 (if reload then 1 else 0)).flushLines

/-- A reset of an engine ends (R592, R593): the bits of the reset clear; a console line that asked for it is answered (R525); the credits
are 0 after one of QSC (R303) (DEDUCED, log entry 11). -/
def State.resetDone (s : State) (e : Engine) : State :=
  if s.bitAt R.ENG_RST_STAT e = false ∨ (e.val < 6 ∧ s.sxLow) then s
  else
    let s := ((s.anchorTu e).putAt R.ENG_RST_STAT e false).putAt R.ENG_RST e false
    let s : State := { s with ladder := { s.ladder with resetAt := mdel s.ladder.resetAt e } }
    let s := if e.val < 6 then s.put (R.PORT_CTRL_MAC_RST e) false else s
    let s := if e.val = 7 then { s with ports := s.ports.map (fun q => { q with
        gclFrom := s.tick.num + 1, credits := List.replicate 8 (0, s.now) }) } else s
    let s := if e.val = 8 then s.rewrite else s
    let s := if e.val = 10 then s.dgeFree else s
    let s := if 11 ≤ e.val ∧ e.val ≤ 14 then s.modCru (e.val - 11) (fun c => { c with free := s.now }) else s
    let s := if e.val = 9 then s.put R.TU_STAT_TU_RESET false else s
    let s := if e.val = 16 then s.restartMgc else s
    let s := if s.ladder.selfRun.testBit e then
        { s with ladder := { s.ladder with selfRun := setBitAt s.ladder.selfRun e false } }.raise 249
      else s
    if s.con.serving = some (.engine e) then s.conFinish (okReply []) else s

/-! ### MGC (R34, R591, R594) -/

/-- MGC stops (R34): MGC_HALT, with its event and its source (DEDUCED, log entry 65). -/
def State.mgcHalt (s : State) : State := if s.bit R.FLT_STAT_MGC_HALT then s else (s.setFlag R.FLT_STAT_MGC_HALT 236).log 0x68 0

/-- MGC_WATCHDOG_EXPIRE (R594): MGC_WD ms have passed since the latest MGC_KICK. -/
def execMgcWatchdogExpire (s : State) : Host.Outcome State Fault Refusal :=
  if s.mgcStopped then .next s
  else .next (s.upTo (s.ladder.kickAt + s.rd R.MGC_WD * 1000000 * unitsPerNs)).mgcHalt

/-- A write of 1 to MGC_KICK (R594) (DEDUCED, log entry 73). -/
def State.kick (s : State) : State := if s.mgcStopped then s else { s with ladder := { s.ladder with kickAt := s.now } }

/-- MGC_KICK (R594). -/
def execMgcKick (s : State) : Host.Outcome State Fault Refusal := .next s.kick

/-- MGC_SRAM_UNCORRECTABLE (R591, R595): MGC halts, and its code fails the check of its next restart. -/
def execMgcSramUncorrectable (s : State) : Host.Outcome State Fault Refusal :=
  .next { s.mgcHalt with ladder := { s.ladder with codeBad := true } }

/-! ### Queue links, supply and clock (R449, R603) -/

/-- QUEUE_LINK_ERROR (R603 cause 8): a queue of a port cannot be walked. -/
def execQueueLinkError (p : Port) (s : State) : Host.Outcome State Fault Refusal :=
  .next (s.eclipse 8 (fun e => e.dest == p.val))

/-- SUPPLY_CLOCK_ALARM (R449 causes 4 and 5, R603 cause 9): an alarm arises, or has been held through a whole tick. -/
def execSupplyClockAlarm (a : AlarmKind) (held : Bool) (s : State) : Host.Outcome State Fault Refusal :=
  if held then .next (s.eclipse 9 (fun _ => false))
  else .next (s.dgeClear (match a with
    | .supply => 4
    | .clock => 5))

end Sys2Proof.Machine
end

