-- ==== Sys2Proof/Machine/Irq.lean ====
section
/-! DEFINITION. The interrupt controller, the event log's reader and the telemetry stream (spec/16_interrupts_and_event_fifos.md). -/

namespace Sys2Proof.Machine

/-! ### Levels and owners (R460, R461) -/

/-- The function that owns a source. -/
def sourceOwner (i : Nat) : Nat := if i < 160 then i / 10 else if 170 ≤ i ∧ i ≤ 185 then i - 170 else 16

/-- Sources of kind E. -/
def kindE (i : Nat) : Bool :=
  decide (i ≤ 186) || decide (205 ≤ i ∧ i ≤ 210) || ([219, 220, 226, 228, 229, 232, 237, 238, 243, 245, 249] : List Nat).contains i

/-- The condition of a source of kind S. -/
def State.levelS (s : State) (i : Nat) : Bool :=
  if 256 ≤ i then s.bitAt (R.SW_LEVEL ((i - 256) / 32)) (i % 32)
  else if 187 ≤ i ∧ i ≤ 192 then s.bit (R.LINK_CHG_LINK_UP_EV (i - 187)) || s.bit (R.LINK_CHG_LINK_LOST_EV (i - 187))
  else if 193 ≤ i ∧ i ≤ 198 then s.rd (R.PAUSE_WD_STAT_BROKEN (i - 193)) != 0
  else if 199 ≤ i ∧ i ≤ 204 then s.bit (R.QPORT_STAT_CAP_MISS (i - 199))
  else if 211 ≤ i ∧ i ≤ 216 then !(s.tu.tsq.getD (i - 211) []).isEmpty
  else if 221 ≤ i ∧ i ≤ 224 then !(s.tu.tcap.getD (i - 221) []).isEmpty
  else match i with
    | 217 => s.bit (R.MDIO_STAT_DONE 0)
    | 218 => s.bit (R.MDIO_STAT_DONE 1)
    | 225 => (List.range 8).any (fun k => s.bit (R.TOUT_CTRL_MISS k))
    | 227 => s.bit R.BUF_STAT_FREE_LOW
    | 230 => s.anyLatent
    | 231 => s.bit R.DGE_STAT_CLEARED
    | 233 => s.stalled
    | 234 => s.bit R.TICK_STAT_TICK_OVERRUN
    | 235 => s.bit R.BCHK_STATUS_STALE
    | 236 => s.bit R.FLT_STAT_MGC_HALT
    | 239 => decide (s.irc.log.length ≥ s.rd R.EVLOG_WM)
    | 240 => s.bit R.EVLOG_STAT_AGE
    | 241 => decide (s.irc.tele.length ≥ s.rd R.TELE_WM)
    | 242 => s.bit R.TELE_STAT_AGE
    | 244 => s.bit R.THERM_STAT_DERATE
    | 246 => (List.range 6).any (fun p => s.bit (R.PHY_PM_STAT_SLP_FAIL p) || s.bit (R.PHY_PM_STAT_WK_FAIL p))
    | 247 => s.bootLevel
    | 248 => s.bit R.FLT_STAT_ECLIPSE
    | _ => false

/-- The level of a source (R461). -/
def State.level (s : State) (i : Nat) : Bool := if kindE i then (s.src i).latch else s.levelS i

/-- PEND of a source (R463): 1 while its level is 1, and otherwise what software wrote last (DEDUCED, log entry 61). -/
def State.pend (s : State) (i : Nat) : Bool := s.level i || (s.src i).pend

/-! ### Routing and moderation (R466 to R471) -/

/-- A slot is OFFLINE. -/
def State.offline (s : State) (k : Nat) : Bool := s.bit (R.SLOT_STATE_OFFLINE k)

/-- The slots of a source's SET that are online. -/
def State.onlineSet (s : State) (i : Nat) : List Nat :=
  (List.range 16).filter (fun k => (s.inf (R.SET i)).testBit k && !s.offline k)

/-- A slot's rank for lowest priority: IDLE below every priority (R467) (DESIGN CHOICE, log entry 62). -/
def State.slotRank (s : State) (k : Nat) : Nat := if s.bit (R.SLOT_STATE_IDLE k) then 0 else s.rd (R.SLOT_STATE_PRIO k) + 1

/-- The target slot of a source (R467). -/
def State.target (s : State) (i : Nat) : Option Nat :=
  match s.inf (R.ROUTE_POLICY i) with
  | 0 => let k := s.inf (R.ROUTE_SLOT i); if s.offline k then none else some k
  | 1 => let l := s.onlineSet i; l.find? (fun k => l.all (fun j => decide (s.slotRank k ≤ s.slotRank j)))
  | _ =>
    let l := s.onlineSet i
    ((List.range 16).map (fun d => ((s.src i).lastSlot + 1 + d) % 16)).find? (fun k => l.contains k)

/-- The deadline tick of a ring source's oldest unsignalled event has less than 4 µs left (R50, R470). -/
def State.msgUrgent (s : State) (i : Nat) : Bool :=
  match (s.src i).oldest with
  | none => false
  | some t => decide (i < 170) && s.nearEnd t

/-- Which conditions of moderation allow a message to a slot: 0 the timer, 1 only an idle bypass, 2 only a deadline send, 3 both of these
(R470) (DESIGN CHOICE, log entry 62). -/
def State.allowance (s : State) (i slot : Nat) : Option Nat :=
  let x := s.src i
  let m := s.inf (R.ROUTE_MOD i)
  let run : Bool := match x.lastIssue with
    | none => true
    | some t => decide (t + m * 1000 * unitsPerNs ≤ s.now)
  let idle := s.bit (R.SLOT_STATE_IDLE slot) && x.bypassTick != some s.tick.num
  let late := s.msgUrgent i && x.dlTick != some s.tick.num
  if m = 0 ∨ run then some 0
  else if idle then some (if late then 3 else 1)
  else if late then some 2
  else none

/-- The limit of R471 on a system source. -/
def State.sysAllows (s : State) (i : Nat) : Bool :=
  decide (i < 170) || ((s.src i).sentTick != some s.tick.num && decide (s.irc.sysThisTick < s.inf R.SYS_MSG_MAX))

/-- A source asks for a message: pending, not masked, not in service (R466). -/
def State.asks (s : State) (i : Nat) : Bool :=
  s.pend i && !(s.src i).mask && !s.bitAt R.FN_MASK (sourceOwner i) && !(s.src i).insvc

/-- A source is ready: its target slot and what allows its message (R466). -/
def State.ready (s : State) (i : Nat) : Option (Nat × Nat) :=
  if s.asks i ∧ s.sysAllows i then
    match s.target i with
    | none => none
    | some k => (s.allowance i k).map (fun a => (k, a))
  else none

/-! ### Messages (R469, R472, R473) -/

/-- A message to a function's slot is held (R473) (DEDUCED, log entry 61). -/
def State.msgHeld (s : State) (g slot : Nat) : Bool :=
  s.bit (R.MSIX_CTRL_MASK g slot) || (s.pci g).fnMask || s.bitAt R.HIF_QUIESCED g || s.stalled || !s.hifUp

/-- The PBA of a function: a bit per entry that holds a message, masked by the entry or the function (R335, R473). -/
def State.pba (s : State) (g : Nat) : Nat :=
  bits 16 (fun k => (s.bit (R.MSIX_CTRL_MASK g k) || (s.pci g).fnMask)
    && s.irc.src.any (fun x => sourceOwner x.1 == g && (x.2.held.map (·.1)) == some k))

/-- A message is written (R469). -/
def State.writeMsg (s : State) (i slot vec : Nat) : State :=
  let g := sourceOwner i
  s.emit (.message i slot (s.rd64 (R.MSIX_ADDR_LO g slot) (R.MSIX_ADDR_HI g slot)) vec)

/-- A source's message is issued to a slot (R465, R468, R470 to R473); one that both conditions allow counts for neither and uses the idle
bypass (DESIGN CHOICE, log entry 62). -/
def State.issueMsg (s : State) (i slot how : Nat) : State :=
  let g := sourceOwner i
  let x := s.src i
  let t := some s.tick.num
  let held := s.msgHeld g slot
  let y : IrqSrc := { x with
    pend := false, insvc := true, lastIssue := some s.now, oldest := none, lastSlot := slot, sentTick := t
    bypassTick := if how % 2 = 1 then t else x.bypassTick, dlTick := if how = 2 then t else x.dlTick
    held := if held then some (slot, x.vec) else none, offlineHeld := false }
  let s := (s.setSrc i y).inc R.MSG_CNT
  let s := if how = 1 then s.inc R.BYPASS_CNT else if how = 2 then s.inc R.DLSEND_CNT else s
  let s := (s.put (R.SLOT_STATE_IDLE slot) false).spend 6 1
  let s : State := { s with irc := { s.irc with
    lastMsg := some s.now, sysThisTick := if i < 170 then s.irc.sysThisTick else s.irc.sysThisTick + 1 } }
  if held then s else s.writeMsg i slot x.vec

/-- Episodes in which a fixed route to an OFFLINE slot holds a source begin and end (R473) (DEDUCED, log entry 61). -/
def State.countOffline (s : State) : State :=
  (List.range 384).foldl (fun s i =>
    let off := s.inf (R.ROUTE_POLICY i) == 0 && s.offline (s.inf (R.ROUTE_SLOT i))
    let x := s.src i
    if off && s.asks i && !x.offlineHeld then (s.setSrc i { x with offlineHeld := true }).inc R.HELD_CNT
    else if x.offlineHeld && !off then s.setSrc i { x with offlineHeld := false }
    else s) s

/-- HELD_CNT as it stands before this cycle: every episode that has begun is counted (R473) (DEDUCED, log entry 61). -/
def State.heldSync (s : State) : State :=
  let t := s.countOffline
  let n := regGet s.cyc.regs R.HELD_CNT + (t.rd R.HELD_CNT - s.rd R.HELD_CNT)
  { t with cyc := { s.cyc with regs := regPut s.cyc.regs R.HELD_CNT n } }

/-- The source whose message goes next: the highest SPRIO, then the lowest number (R472) (DEDUCED, log entry 61). -/
def State.nextMsg (s : State) : Option (Nat × Nat × Nat) :=
  (List.range 384).foldl (fun m i =>
    match s.ready i with
    | none => m
    | some (k, a) =>
      match m with
      | some (j, _) => if s.inf (R.ROUTE_SPRIO j) < s.inf (R.ROUTE_SPRIO i) then some (i, k, a) else m
      | none => some (i, k, a)) none

/-- IRQ_MESSAGE_ISSUE (R466 to R473): at most one message in 16 core cycles, none during a reset of IRC. -/
def execIrqMessageIssue (s : State) : Host.Outcome State Fault Refusal :=
  let soon : Bool := match s.irc.lastMsg with
    | none => false
    | some t => decide (s.now < t + 16 * s.cycle)
  let s := s.countOffline
  if s.bitAt R.ENG_RST_STAT 15 ∨ soon then .next s
  else
    match s.nextMsg with
    | none => .next s
    | some (i, k, a) => .next (s.issueMsg i k a)

/-- IRQ_HELD_RELEASE (R335, R473): a held message is written once nothing holds it. -/
def execIrqHeldRelease (src : IrqSource) (s : State) : Host.Outcome State Fault Refusal :=
  let g := sourceOwner src
  match (s.src src).held with
  | none => .next s
  | some (k, v) =>
    if s.msgHeld g k then .next s
    else .next ((s.setSrc src { s.src src with held := none }).writeMsg src k v)

/-- The in-service bit and, for kind E, the event latch clear; an event of the same cycle stays latched (R461, R465) (DEDUCED, log entry 61). -/
def State.endOfInt (s : State) (i : Nat) : State :=
  let x := s.src i
  if (mget s.cyc.srcs i).isSome then s.setSrc i { x with insvc := false }
  else s.setSrc i { x with insvc := false, latch := false, oldest := none }

/-- Software writes PEND of a source (R463) (DEDUCED, log entry 61). -/
def State.pendWrite (s : State) (i : Nat) (b : Bool) : State := s.setSrc i { s.src i with pend := b }

/-- A read of CNT by a function; the owning one clears it, but for arrivals of the same cycle, which it does not return (R462). -/
def State.cntRead (s : State) (f i : Nat) : Nat × State :=
  let (before, n) := mgetD s.cyc.srcs i ((s.src i).cnt, 0)
  if sourceOwner i = f then
    let t := s.setSrc i { s.src i with cnt := n }
    (before, if n = 0 then t else { t with cyc := { t.cyc with srcs := mput t.cyc.srcs i (0, n) } })
  else (before, s)

/-- A read of a source's CNT (R462): the owner and MGC see every source, a tenant its own. -/
def State.irqCount (s : State) (rd : Reader) (src : IrqSource) : State :=
  match rd with
  | .tenant n =>
    if sourceOwner src ≠ n then s
    else s.answer rd (R.TCNT n (if src.val < 160 then src.val % 10 else 10)).off (s.cntRead n src)
  | _ => s.answer rd (R.CNT src).off (s.cntRead 16 src)

/-! ### The event log's reader (R482) -/

/-- An entry as 64 bits (R479). -/
def LogEntry.word (e : LogEntry) : Nat := e.low % 2 ^ 40 + 2 ^ 40 * (e.subj % 2 ^ 16) + 2 ^ 56 * e.code

/-- The oldest entry is removed. -/
def State.logTake (s : State) : Option (LogEntry × State) :=
  match s.irc.log with
  | [] => none
  | e :: t => some (e, { s with irc := { s.irc with
      log := t, lastRemoved := e, logAge := 0, aged := (false, s.irc.aged.2)
      seenMark := if e.code = 1 then (e.subj % 2 ^ 7 * 2 ^ 40 + e.low, e.subj.testBit 15) else s.irc.seenMark } })

/-- A read of EVLOG_LO: of the log as it stood before its cycle (R482). -/
def State.logRead (s : State) (rd : Reader) : Nat × State :=
  match (if s.irc.log.length ≤ s.cyc.log then none else s.logTake) with
  | some (e, t) => (e.word % 2 ^ 32, t.setLatch rd R.EVLOG_HI (e.word / 2 ^ 32))
  | none => (s.irc.lastRemoved.word % 2 ^ 32, s.put R.EVLOG_STAT_UNDERRUN true)

/-! ### Telemetry (R483 to R487) -/

/-- The telemetry FIFO's capacity. -/
def teleMax : Nat := 2048

/-- D0 to D3 of a record of a type with a subject, at the boundary just passed. -/
def State.teleHead (s : State) (kind subj : Nat) : List Nat :=
  let b (c : Bool) (k : Nat) : Nat := if c then 2 ^ k else 0
  let ts := s.tdVal 0 s.tick.start / tdUnit % 2 ^ 40
  [kind + b (s.tdValid 0) 8 + b (s.bit R.TICK_STAT_TICK_OVERRUN) 9 + b s.stalled 10 + 2 ^ 12 * subj + 2 ^ 16 * s.irc.teleSeq,
    (s.tick.num + 2 ^ 48 - 1) % 2 ^ 32, ts % 2 ^ 32, ts / 2 ^ 32]

/-- A record is put at the end of the FIFO and takes the next SEQ; its source asserts when the watermark is reached (DEDUCED, log entry 64). -/
def State.telePut (s : State) (r : List Nat) : State :=
  let l := s.irc.tele ++ [r]
  let s : State := { s with
    irc := { s.irc with tele := l, teleSeq := (s.irc.teleSeq + 1) % 2 ^ 16 }, cyc := { s.cyc with tele := s.cyc.tele + 1 } }
  if l.length = s.rd R.TELE_WM then s.arrive 241 false else s

/-- A record with D4 to D15 is appended, with a LOST record ahead of it where one is due; or it is dropped (R483, R485). -/
def State.teleAppend (s : State) (kind subj : Nat) (d : List Nat) : State :=
  let s := if s.irc.teleLost ≠ 0 ∧ s.irc.tele.length < teleMax then
      { s with irc := { s.irc with teleLost := 0 } }.telePut
        (s.teleHead 0x0F 0 ++ [s.irc.teleLost % 2 ^ 32] ++ List.replicate 11 0)
    else s
  if s.irc.tele.length < teleMax then s.telePut (s.teleHead kind subj ++ sliceDNat d 12)
  else
    { s with irc := { s.irc with teleLost := s.irc.teleLost + 1, teleSeq := (s.irc.teleSeq + 1) % 2 ^ 16 } }.inc R.TELE_LOST
where
  /-- n numbers of a list, 0 where it is shorter. -/
  sliceDNat (l : List Nat) (n : Nat) : List Nat := (List.range n).map (fun k => l.getD k 0)

/-- TICK_USAGE: the units served in the tick sampled, and what is free. -/
def State.teleUsage (s : State) : State :=
  let w (k : Nat) : Nat := s.tick.worked.getD k 0
  let pair (a b : Nat) : Nat := a % 2 ^ 16 + 2 ^ 16 * (b % 2 ^ 16)
  let blocks (u : Nat) : Nat := let v := s.rd (R.CRU_BLOCKS_LAST u); v % 2 ^ 16 + v / 2 ^ 16
  let dge := s.rd R.DGE_UNITS_LAST
  s.teleAppend 1 0 [w 0 % 2 ^ 32, w 1 % 2 ^ 32, w 2 % 2 ^ 16, w 3 % 2 ^ 31, pair (w 4) (w 5), pair (dge % 2 ^ 16 + dge / 2 ^ 16) (w 6),
    pair (blocks 0) (blocks 1), pair (blocks 2) (blocks 3), s.freeCells + 2 ^ 16 * s.rd R.MGMT_HELD, s.entryFree, s.rd R.CARRY_FREE]

/-- The counts that a PORT_SAMPLE takes differences of: octets in and out, frames in and out, accepted, refused, discarded, held. -/
def State.portCounts (s : State) (p : Nat) : List Nat :=
  let sum (l : List Fld) : Nat := (l.map s.rd).sum
  [s.rd64 (R.RX_OCTETS p) (R.RX_OCTETS_HI p), s.rd64 (R.TX_OCTETS p) (R.TX_OCTETS_HI p), s.rd64 (R.RX_ENDED p) (R.RX_ENDED_HI p),
    s.rd64 (R.TX_FRAMES p) (R.TX_FRAMES_HI p), s.rd (R.ADM_ACC p),
    sum [R.ADM_REF_RESET p, R.ADM_REF_CELLS p, R.ADM_REF_FLOW p, R.ADM_REF_QUEUE p, R.ADM_REF_TENANT p, R.ADM_REF_LEDGER p],
    sum ([R.ADM_DISC_FCS p, R.ADM_DISC_LEN p, R.ADM_DISC_ADDR p] ++ (List.range 8).map (R.ENV_DISC p)), s.rd (R.PAUSE_HELD_TICKS p)]

/-- PORT_SAMPLE: differences since the port's previous sample. -/
def State.telePort (s : State) (p : Nat) : State :=
  let cur := s.portCounts p
  let old := mgetD s.irc.telePrev p []
  let d (k w : Nat) : Nat := (cur.getD k 0 + 2 ^ w - old.getD k 0 % 2 ^ w) % 2 ^ w
  let s : State := { s with irc := { s.irc with telePrev := mput s.irc.telePrev p cur } }
  s.teleAppend 2 p [d 0 64 % 2 ^ 32, d 0 64 / 2 ^ 32, d 1 64 % 2 ^ 32, d 1 64 / 2 ^ 32 % 2 ^ 31, d 2 32, d 3 32, d 4 32, d 5 32, d 6 32,
    d 7 32, s.rd (R.PORT_STAT_STATE p) + 2 ^ 8 * bits 9 (s.heldIdx p)]

/-- The sketch's estimate of a telemetry flow (R237). -/
def State.estimate (s : State) (x : Nat) : Nat :=
  min (min (s.sketchAt 0 x) (s.sketchAt 1 x)) (min (s.sketchAt 2 x) (s.sketchAt 3 x))

/-- FLOW_SAMPLE: the next four telemetry flows, in a circular order. -/
def State.teleFlows (s : State) : State :=
  let n := s.rd R.TELE_FLOW_N
  let x (k : Nat) : Nat := s.rd (R.TELE_FLOW ((s.irc.teleCursor + k) % n))
  let c := (s.irc.teleCursor + 4) % n
  let s := s.sketchSync
  let e (k : Nat) : Nat := s.estimate (x k)
  { s with irc := { s.irc with teleCursor := c } }.teleAppend 3 0 [x 0, e 0, x 1, x 2, e 1, e 2, x 3, e 3]

/-- The oldest record is removed (DEDUCED, log entry 64). -/
def State.teleTake (s : State) : Option (List Nat × State) :=
  match s.irc.tele with
  | [] => none
  | r :: t => some (r, { s with irc := { s.irc with tele := t, teleAge := 0, aged := (s.irc.aged.1, false) } })

/-- MGC sends the records to the channel that holds telemetry (R484, R500, R524) (DEDUCED, log entry 64). -/
def State.teleConsole : Nat → State → State
  | 0, s => s
  | n + 1, s =>
    match s.con.tele, s.teleTake with
    | some ch, some (r, t) =>
      if s.rd R.TELE_CFG_DEST = 2 ∧ s.mgcStopped = false then
        State.teleConsole n (t.evLine ch (txt "tele " ++ hexBytes ((r.map (leBytes 4)).flatten)))
      else s
    | _, _ => s

/-- TELE_SAMPLE (R483): once at a boundary whose number is a multiple of PERIOD (DEDUCED, log entry 64). -/
def execTeleSample (s : State) : Host.Outcome State Fault Refusal :=
  if s.bit R.TELE_CFG_EN = false ∨ s.irc.teleTick = some s.tick.num ∨ s.tickNum % s.rd R.TELE_CFG_PERIOD ≠ 0 then .next s
  else
    let s : State := { s with irc := { s.irc with teleTick := some s.tick.num } }
    let s := if s.bitAt R.TELE_CFG_TYPES 0 then s.teleUsage else s
    let s := if s.bitAt R.TELE_CFG_TYPES 1 then
        ((List.range 6).filter (fun p => s.bitAt R.TELE_CFG_PORTS p)).foldl State.telePort s
      else s
    let s := if s.bitAt R.TELE_CFG_TYPES 2 ∧ s.rd R.TELE_FLOW_N ≠ 0 then s.teleFlows else s
    .next (State.teleConsole teleMax s)

/-- A read of TELE_D_0 (R486): the oldest record in register mode, of the FIFO as it stood before its cycle, else the idle record (DEDUCED, log entry 64). -/
def State.teleRead (s : State) (rd : Reader) : Nat × State :=
  let (r, s) : List Nat × State := match (if s.rd R.TELE_CFG_DEST = 0 ∧ s.cyc.tele < s.irc.tele.length then s.teleTake else none) with
    | some x => x
    | none => ((s.teleHead 0 0).take 1 ++ [s.tick.num % 2 ^ 32], s)
  (r.headD 0, (List.range 15).foldl (fun s k => s.setLatch rd (R.TELE_D (k + 1)) (r.getD (k + 1) 0)) s)

/-- One more record fits in the write-back capacity of the tick above the budget ceiling (R55, R487). -/
def State.ringRoom (s : State) : Bool :=
  let n := if s.irc.ringMoves.1 = s.tick.num then s.irc.ringMoves.2 else 0
  decide (s.fetchCeiling + n < s.fetchCapacity)

/-- TLR_MOVE (R358, R487): the oldest record is written to the telemetry ring. -/
def execTlrMove (s : State) : Host.Outcome State Fault Refusal :=
  let h := s.rd R.TLR_HEAD
  let n := 2 ^ s.rd R.TLR_LOG2
  if s.rd R.TELE_CFG_DEST ≠ 1 ∨ (h + 2 ^ 16 - s.rd R.TLR_TAIL) % 2 ^ 16 ≥ n ∨ s.mayWrite 16 = false ∨ s.stalled ∨ s.ringRoom = false then .next s
  else
    match s.teleTake with
    | none => .next s
    | some (r, s) =>
      let ph := if h.testBit (s.rd R.TLR_LOG2) then 0 else 2 ^ 31
      let r := lmod (lmod r 7 (· + ph)) 15 (· + ph)
      let s := s.emit (.write 16 false (s.rd64 R.TLR_BASE_LO R.TLR_BASE_HI + 64 * (h % n)) ((r.map (leBytes 4)).flatten))
      let k := if s.irc.ringMoves.1 = s.tick.num then s.irc.ringMoves.2 + 1 else 1
      .next (({ s with irc := { s.irc with ringMoves := (s.tick.num, k) } }.wr R.TLR_HEAD (h + 1)).raise 243)

/-- A write of TLR_TAIL (R12, R357, R487): an invalid value is a reserved encoding (DEDUCED, log entry 64). -/
def State.tlrTail (s : State) (v : Nat) : State :=
  let t := s.rd R.TLR_TAIL
  if (v + 2 ^ 16 - t) % 2 ^ 16 ≤ (s.rd R.TLR_HEAD + 2 ^ 16 - t) % 2 ^ 16 then s.wr R.TLR_TAIL v else s.reject R.TLR_TAIL.off 1

/-- FIFO_AGE_EXPIRE (R488): a count that has reached its limit sets AGE once. -/
def execFifoAgeExpire (which : Fifo) (s : State) : Host.Outcome State Fault Refusal :=
  match which with
  | .evlog =>
    if s.rd R.EVLOG_AGE_TICKS ≠ 0 ∧ s.irc.log ≠ [] ∧ s.irc.logAge ≥ s.rd R.EVLOG_AGE_TICKS ∧ s.irc.aged.1 = false then
      .next ({ s with irc := { s.irc with aged := (true, s.irc.aged.2) } }.setFlag R.EVLOG_STAT_AGE 240)
    else .next s
  | .tele =>
    if s.rd R.TELE_AGE_TICKS ≠ 0 ∧ s.irc.tele ≠ [] ∧ s.irc.teleAge ≥ s.rd R.TELE_AGE_TICKS ∧ s.irc.aged.2 = false then
      .next ({ s with irc := { s.irc with aged := (s.irc.aged.1, true) } }.setFlag R.TELE_STAT_AGE 242)
    else .next s

end Sys2Proof.Machine
end

