-- ==== Sys2Proof/Machine/Power.lean ====
section
/-! DEFINITION. Power states and wake (spec/18_power_and_wake.md R528 to R554). -/

namespace Sys2Proof.Machine

/-! ### Requests and their ends (R533, R534, R538, R560) -/

/-- HIF sends an LTR message with the values of the state; in Twilight the link is in L2 (R538, R541). -/
def State.ltr (s : State) : State :=
  if s.hif.ltrOn ∧ s.rd R.PM_STAT_STATE ≤ 1 then s.emit (.ltr (if s.rd R.PM_STAT_STATE = 0 then 10000 else 1000000)) else s

/-- LTR Mechanism Enable is set in the owner's configuration space (R538). -/
def State.ltrEnable (s : State) : State := { s with hif := { s.hif with ltrOn := true } }.ltr

/-- LTR_MECHANISM_ENABLE (R538). -/
def execLtrMechanismEnable (s : State) : Host.Outcome State Fault Refusal := .next (s.cfgRequest 16 s.ltrEnable s)

/-- A transition is in progress from GO (R533). -/
def State.pmBusy (s : State) (ph : PmPhase) : State := { s.put R.PM_STAT_BUSY true with pm := { s.pm with phase := ph } }

/-- A transition has completed (R534, R538, R560). -/
def State.pmDone (s : State) (old new : Nat) : State :=
  let s : State := { s with pm := { s.pm with phase := .settled } }
  let s := ((s.put R.PM_STAT_BUSY false).put R.PM_STAT_DRAIN false).put R.PM_STAT_TW_READY false
  (((s.wr R.PM_STAT_REFUSE 0).log 0x90 (new + 16 * old)).raise 245).ltr

/-- GO with a target (R152, R533, R606): the write is rejected in Eclipse and ignored while a transition is in progress (DEDUCED, log entry 67). -/
def State.pmGo (s : State) (target : Nat) (act : State → State) : State :=
  if s.bit R.FLT_STAT_ECLIPSE then s.reject R.PM_CTRL_GO.off 5
  else
    let s := s.wr R.PM_CTRL_TARGET target
    if s.bit R.PM_STAT_BUSY then s.put R.PM_STAT_GO_IGNORED true else act s

/-! ### Day and Dusk (R535 to R537) -/

/-- The Dusk entry begins (R535). -/
def State.duskEntry (s : State) : State :=
  if s.tick.commitAt.isSome then s.pmRefuse 8
  else if (List.range 6).any (fun p => s.inf (R.PORT_CFG_IF p) != 0 && decide (s.inf (R.PORT_CFG_RATE_MAX p) > 1)) then s.pmRefuse 2
  else { s.pmBusy .duskCheck with tick := { s.tick with checks := s.tick.checks ++ [.dusk] } }

/-- PM_REQ_DAY (R533, R537). -/
def State.reqDay (s : State) : State :=
  match s.rd R.PM_STAT_STATE with
  | 0 => s
  | 1 => s.pmBusy (.ramp s.now true)
  | _ => s.pmRefuse 7

/-- DUSK_SWITCH (R536): at the boundary found for it the core clock is 200 MHz and the bias ramp begins. -/
def execDuskSwitch (s : State) : Host.Outcome State Fault Refusal :=
  match s.pm.phase with
  | .duskAt n =>
    if n ≤ s.tick.num ∧ s.now = s.tick.start then
      .next ({ s with pm := { s.pm with phase := .ramp s.now false } }.wr R.PM_STAT_STATE 1)
    else .next s
  | _ => .next s

/-- BIAS_SETTLED (R531, R536, R537): a ramp ends, within 100 µs. -/
def execBiasSettled (s : State) : Host.Outcome State Fault Refusal :=
  match s.pm.phase with
  | .ramp _ false => .next (s.pmDone 0 1)
  | .ramp _ true => .next { s with pm := { s.pm with phase := .dayAt } }
  | _ => .next s

/-- DUSK_EXIT_SWITCH (R537): at the first boundary after the ramp the core clock is 800 MHz. -/
def execDuskExitSwitch (s : State) : Host.Outcome State Fault Refusal :=
  if s.pm.phase = .dayAt ∧ s.now = s.tick.start then .next ((s.wr R.PM_STAT_STATE 0).pmDone 1 0) else .next s

/-! ### The low-state entry (R539 to R544) -/

/-- A port listens in Twilight (R542). -/
def State.listens (s : State) (p : Nat) : Bool := s.bitAt R.TW_CFG_PORTS p

/-- The listening ports cannot be served (R542) (DEDUCED, log entry 68). -/
def State.listenBad (s : State) : Bool :=
  let l := (List.range 6).filter s.listens
  decide (l.length > 2) || l.any (fun p => s.inf (R.PORT_CFG_IF p) != 1 && s.inf (R.PORT_CFG_IF p) != 2)

/-- The low-state entry begins with the drain (R539). -/
def State.lowEntry (s : State) (night : Bool) : State :=
  if !night && s.listenBad then s.pmRefuse 6
  else if s.tick.commitAt.isSome then s.pmRefuse 8
  else (s.pmBusy (.drain s.tick.num night)).put R.PM_STAT_DRAIN true

/-- DRAIN_COMPLETE (R540, R541): no entry is open and every cell is free. -/
def execDrainComplete (s : State) : Host.Outcome State Fault Refusal :=
  match s.pm.phase with
  | .drain _ night =>
    if s.led.entries = [] ∧ s.freeCells = cellCount then
      .next (({ s with pm := { s.pm with phase := .handOver s.now night false } }.put R.PM_STAT_TW_READY true).raise 245)
    else .next s
  | _ => .next s

/-- DRAIN_TIMEOUT (R540): TW_DRAIN_TICKS ticks have passed. -/
def execDrainTimeout (s : State) : Host.Outcome State Fault Refusal :=
  match s.pm.phase with
  | .drain since _ => if since + s.rd R.TW_DRAIN_TICKS ≤ s.tick.num then .next (s.pmAbandon 3) else .next s
  | _ => .next s

/-- PME_TURN_OFF (R541): answered once TW_READY is set (DEDUCED, log entry 67). -/
def execPmeTurnOff (s : State) : Host.Outcome State Fault Refusal :=
  match s.pm.phase with
  | .handOver since night _ => .next ({ s with pm := { s.pm with phase := .handOver since night true } }.emit .pmeToAck)
  | _ => .next s

/-- L2_WAIT_TIMEOUT (R541): TW_L2_WAIT ms have passed since TW_READY. -/
def execL2WaitTimeout (s : State) : Host.Outcome State Fault Refusal :=
  match s.pm.phase with
  | .handOver since _ _ => .next ((s.upTo (since + s.rd R.TW_L2_WAIT * 1000000 * unitsPerNs)).pmAbandon 4)
  | _ => .next s

/-- A port's PHY is put to sleep on the way to Twilight, or to Night, where no port listens (R543, R544) (DEDUCED, log entry 68). -/
def State.sleeps (s : State) (night : Bool) (p : Nat) : Bool :=
  s.inf (R.PORT_CFG_IF p) != 0 && (night || !s.listens p) && s.bit (R.PHY_PM_ADDR_EN p) && !s.pm.slept.testBit p

/-- The PHY sleep handshake begins, of the PHYs that do not sleep yet (R543, R544) (DEDUCED, log entry 68). -/
def State.phySleep (s : State) (night : Bool) : State :=
  let n := bits 6 (s.sleeps night)
  { s with pm := { s.pm with slept := Nat.lor s.pm.slept n } }.handStart n false

/-- MGC parks the masters named by TW_CFG, or both (R543, R544). -/
def State.parkMasters (s : State) (both : Bool) : State :=
  let s := if both ∨ s.bit R.TW_CFG_PARK_A then s.put (R.MDIO_CFG_PARK 0) true else s
  if both ∨ s.bit R.TW_CFG_PARK_B then s.put (R.MDIO_CFG_PARK 1) true else s

/-- The PMU's patterns. -/
def patRegs (r : RegFile) : RegFile := r.filter (fun x => decide (32 * 0x91000 ≤ x.1 ∧ x.1 < 32 * 0x93000))

/-- Twilight begins: listening ports restart at the Twilight rate, the lanes of the others power down (R543, R547) (DEDUCED, log entry 68). -/
def State.enterTwilight (s : State) : State :=
  let s := { s.wr R.PM_STAT_STATE 2 with pm := { s.pm with twSince := s.tick.num, pats := patRegs s.regs } }
  let s := ((List.range 6).filter (fun p => s.inf (R.PORT_CFG_IF p) != 0)).foldl (fun s p =>
    let s := s.relink p
    if s.listens p then s else s.linkState p 0) s
  let s : State := { s with con := { s.con with rate := 0 } }
  s.pmDone 1 2

/-- The AON registers of a register file (R554) (DEDUCED, log entry 78). -/
def aonRegs (r : RegFile) : RegFile := r.filter (fun x => decide (32 * 0x94000 ≤ x.1 ∧ x.1 < 32 * 0x94200))

/-- The device just after a reset at this instant: time, what waits and what has left go on, and so do the fuses, the serial NOR
device and the pins (DEDUCED, log entry 78). -/
def State.blank (s : State) : State :=
  { State.reset with
    pending := s.pending, now := s.now, base0 := s.now, draws := s.draws, sent := s.sent
    tick := { Tick.reset with start := s.now }
    td := List.replicate 2 { TDom.reset with at_ := s.now }
    pm := { Pm.reset with perstLow := s.pm.perstLow }
    boot := { Boot.reset with fuse := s.boot.fuse, spent := s.boot.spent, j0 := s.boot.j0, j1 := s.boot.j1
                              slotA := s.boot.slotA, slotB := s.boot.slotB }
    pins := s.pins }

/-- What a loss of the CORE and SRAM domains leaves: AON too (R544, R554) (DEDUCED, log entry 78). -/
def State.loseCore (s : State) : State :=
  { s.blank with
    regs := aonRegs s.regs
    cyc := ⟨aonRegs s.regs, [], 0, 0, []⟩
    pm := { Pm.reset with perstLow := s.pm.perstLow, phase := s.pm.phase, wakeOut := s.pm.wakeOut
                          wakeDue := s.pm.wakeDue, slept := s.pm.slept, woke := s.pm.woke, rfBad := s.pm.rfBad } }

/-- Night begins: the clamps engage, CORE, SRAM and SX are gated, and the TAP is held in Test-Logic-Reset (R544, R660) (DEDUCED, log entry 68). -/
def State.enterNight (s : State) : State :=
  let s := (s.parkMasters true).loseCore
  { s with pm := { s.pm with phase := .night, wakeDue := none }, pins := { s.pins with tapIr := 2 } }

/-- The entry goes on once every handshake is over (R543, R544). -/
def State.afterSleep (s : State) : State :=
  match s.pm.phase with
  | .phySleep night =>
    if s.pm.hand ≠ 0 then s
    else if night then s.enterNight
    else (if s.mgcStopped then s else s.parkMasters false).enterTwilight
  | _ => s

/-- L2_REACHED (R543, R544): the link that PME_Turn_Off was sent on is in L2/L3 Ready; the PHY sleep handshake begins (DEDUCED, log entry 67). -/
def execL2Reached (s : State) : Host.Outcome State Fault Refusal :=
  match s.pm.phase with
  | .handOver _ night true =>
    let s := s.linkDown
    .next ({ s with pm := { s.pm with phase := .phySleep night } }.phySleep night).afterSleep
  | _ => .next s

/-- MDIO_DONE (R153, R543): with the last handshake over, the entry that waits for it goes on (DEDUCED, log entry 16). -/
def execMdioDone (m : MdioMaster) (acked : Bool) (data : BitVec 16) (s : State) : Host.Outcome State Fault Refusal :=
  .next (s.mdioDone m acked data.toNat).afterSleep

/-- PM_REQ_TWILIGHT, by the state (R533). -/
def State.reqTwilight (s : State) : State :=
  match s.rd R.PM_STAT_STATE with
  | 0 => s.pmRefuse 7
  | 1 => s.lowEntry false
  | _ => s

/-- Night from Twilight, without drain and hand-over: the handshake of the PHYs that do not sleep yet comes first (R543, R544) (DEDUCED, log entry 68). -/
def State.nightFromTwilight (s : State) : State := ((s.pmBusy (.phySleep true)).phySleep true).afterSleep

/-- PM_REQ_NIGHT, by the state (R533, R544). -/
def State.reqNight (s : State) : State :=
  match s.rd R.PM_STAT_STATE with
  | 0 => s.pmRefuse 7
  | 1 => s.lowEntry true
  | _ => s.nightFromTwilight

/-- TW_NIGHT_EXPIRE (R544). -/
def execTwNightExpire (s : State) : Host.Outcome State Fault Refusal :=
  let n := s.rd R.TW_NIGHT_TICKS
  if s.rd R.PM_STAT_STATE = 2 ∧ s.bit R.PM_STAT_BUSY = false ∧ n ≠ 0 ∧ s.pm.twSince + n ≤ s.tick.num then .next s.nightFromTwilight
  else .next s

/-! ### Wake (R545 to R553) -/

/-- The last-wake record, WAKE_CNT and LW_PEND (R550, R552, R553). -/
def State.wakeRecord (s : State) (src port pat from_ : Nat) : State :=
  let s := s.wr R.WAKE_CNT (s.rd R.WAKE_CNT + 1)
  let t := from_ ≠ 3 && s.tdValid 0
  let n := if t then s.tickNum else 0
  let s : State := { s with pm := { s.pm with woke := some (s.now, src, from_) } }
  let rec0 := src + 2 ^ 4 * port + 2 ^ 8 * pat + (if t then 2 ^ 13 else 0) + 2 ^ 14 * from_ + 2 ^ 16 * (s.rd R.WAKE_CNT % 2 ^ 16)
  (((s.wr R.LW_REC0 rec0).wr R.LW_REC1 (n % 2 ^ 32)).wr R.LW_REC2 (n / 2 ^ 32)).putAt R.LW_PEND (src - 1) true

/-- A wake in Twilight returns the device to Dusk: PHYs and links of the configuration in force are restored (R549, R551) (DEDUCED, log entry 68). -/
def State.leaveTwilight (s : State) : State :=
  let s := (s.wr R.PM_STAT_STATE 1).put R.PM_STAT_DRAIN false
  let s := if s.con.rateNext = none then s.baudWrite (s.rd R.CON_CFG_BAUD) else s
  let s := (s.put (R.MDIO_CFG_PARK 0) false).put (R.MDIO_CFG_PARK 1) false
  let s := s.wakePhys
  let s := ((List.range 6).filter (fun p => s.inf (R.PORT_CFG_IF p) != 0)).foldl (fun s p => s.relink p) s
  s.pmDone 2 1

/-- A period of the AON oscillator, in units of State.now (R546). -/
def aonPeriod : Nat := 1953125

/-- A source that acts in a state, by the code of FROM (R545). -/
def wakeArmed (from_ src : Nat) : Bool := if from_ = 1 then decide (src ≤ 4) || src == 8 else from_ == 2 || decide (src ≤ 4) || src == 7

/-- A source acts in the AON period, or in Dusk and Twilight in the core cycle, of the latest wake (R550). -/
def State.sameWake (s : State) (src : Nat) : Bool :=
  match s.pm.woke with
  | none => false
  | some (t, _, f) =>
    let n := if f = 3 then aonPeriod else s.cycle
    t / n == s.now / n && wakeArmed f src

/-- A source joins a wake: its bit is set, and the record names the lowest code (R550). -/
def State.joinWake (s : State) (src port pat : Nat) : State :=
  let s := s.putAt R.LW_PEND (src - 1) true
  match s.pm.woke with
  | some (t, k, f) =>
    if src < k then
      let r := s.rd R.LW_REC0
      let s := s.wr R.LW_REC0 (r - r % 2 ^ 13 + src + 2 ^ 4 * port + 2 ^ 8 * pat)
      { s with pm := { s.pm with woke := some (t, src, f), wakeDue := s.pm.wakeDue.map (fun _ => src) } }
    else s
  | none => s

/-- A wake source acts (R545, R549, R550, R553): from an entry that it abandons, the PHYs that were put to sleep wake again; REFUSE stays but
for the request of source 9, which succeeds (R534) (DEDUCED, log entries 67, 68). -/
def State.wake (s : State) (src port pat : Nat) : State :=
  if s.sameWake src then s.joinWake src port pat
  else if s.pm.phase = .night then
    if src ≤ 4 ∨ src = 7 then
      match s.pm.wakeDue with
      | some _ => s.putAt R.LW_PEND (src - 1) true
      | none =>
        let s := s.wakeRecord src 0 0 3
        { s with pm := { s.pm with wakeDue := some src, wakeOut := src != 7 } }
    else s
  else match s.rd R.PM_STAT_STATE with
    | 2 =>
      let s := (s.pmAbandon 5).wakeRecord src port pat 2 |>.log 0x92 src
      let s : State := { s with pm := { s.pm with wakeOut := src != 7 } }
      let t := s.leaveTwilight
      if src = 9 then t else t.wr R.PM_STAT_REFUSE (s.rd R.PM_STAT_REFUSE)
    | 1 =>
      if src ≤ 4 ∨ src = 8 then
        let s := match s.pm.phase with
          | .drain _ _ | .handOver _ _ _ => s.pmAbandon 5
          | .phySleep _ => (s.pmAbandon 5).wakePhys
          | _ => s
        ((s.wakeRecord src 0 0 1).log 0x92 src).raise 245
      else s
    | _ => s

/-- TARGET Dusk, by the state (R533, R545) (DEDUCED, log entry 67). -/
def State.reqDusk (s : State) : State :=
  match s.rd R.PM_STAT_STATE with
  | 0 => s.duskEntry
  | 1 => s
  | _ => s.wake 9 0 0

/-- PM_REQ_DAY (R533, R537). -/
def execPmReqDay (s : State) : Host.Outcome State Fault Refusal := .next (s.pmGo 0 State.reqDay)

/-- PM_REQ_DUSK (R533, R535, R545). -/
def execPmReqDusk (s : State) : Host.Outcome State Fault Refusal :=
  .next (s.pmGo 1 State.reqDusk)

/-- PM_REQ_TWILIGHT (R533, R539). -/
def execPmReqTwilight (s : State) : Host.Outcome State Fault Refusal := .next (s.pmGo 2 State.reqTwilight)

/-- PM_REQ_NIGHT (R533, R544). -/
def execPmReqNight (s : State) : Host.Outcome State Fault Refusal := .next (s.pmGo 3 State.reqNight)

/-- WAKE_PIN_EDGE (R546): a debounced edge; EDGE selects which counts. -/
def execWakePinEdge (w : WakePin) (rising : Bool) (s : State) : Host.Outcome State Fault Refusal :=
  let s := s.putAt R.WK_LEVEL w rising
  if (s.rd (R.WK_CFG_EDGE w)).testBit (if rising then 0 else 1) then .next (s.wake (w + 1) 0 0) else .next s

/-- Pattern i matches a frame of a port (R547) (DEDUCED, log entry 68). -/
def patMatches (r : RegFile) (p : Nat) (b : List Byte) (i : Nat) : Bool :=
  let mask := (List.range 128).filter (fun j => (regGet r (R.PAT_MASK i (j / 32))).testBit (j % 32))
  regGet r (R.PAT_CTRL_EN i) == 1 && (regGet r (R.PAT_CTRL_PORTS i)).testBit p && !mask.isEmpty
    && mask.all (fun j => decide (j < b.length)
      && (b.getD j 0).toNat == regGet r (R.PAT i (j / 4)) / 2 ^ (8 * (j % 4)) % 256)

/-- LINK_ENERGY_WAKE (R548). -/
def execLinkEnergyWake (p : Port) (s : State) : Host.Outcome State Fault Refusal :=
  if s.rd R.PM_STAT_STATE = 2 ∧ s.bitAt R.TW_CFG_LE_PORTS p ∧ s.listens p = false then .next (s.wake 6 p 0) else .next s

/-- PERST_WAKE (R545, R549): PE_PERST_N is deasserted after it was asserted, which releases PE_WAKE_N. -/
def execPerstWake (s : State) : Host.Outcome State Fault Refusal :=
  if s.pm.perstLow = false then .next s
  else
    let s : State := { s with pm := { s.pm with perstLow := false, wakeOut := false } }
    if s.pm.phase = .night ∨ s.rd R.PM_STAT_STATE = 2 then .next (s.wake 7 0 0) else .next s

/-- UART_BREAK (R505, R545): a break, which also wakes where it is armed. -/
def execUartBreak (s : State) : Host.Outcome State Fault Refusal :=
  if s.pm.phase = .night then .next s else .next (s.uartBreak.wake 8 0 0)

end Sys2Proof.Machine
end

