-- ==== Sys2Proof/Machine/ConfigSpace.lean ====
section
/-! DEFINITION. The configuration space of the PCIe functions (spec/11_host_functions_and_tenants.md R326, R327, R330 to R335, R345,
R347 to R350): the header, the capabilities in the order of R331, and what the host's writes do. The spec names fields and leaves
their places to the PCI Express specification; the places of the capabilities are the model's (PRESUMED, log entry 14). -/

namespace Sys2Proof.Machine

/-- The PCIe function number of a function: the owner is 0, tenant Tn is n + 1, at the First VF Offset and VF Stride of R331 (R330). -/
def pciNumber (f : Nat) : Nat := if f = 16 then 0 else 1 + 1 * f

/-- A capability: its identifier, its place, and its version where it is an extended one. -/
structure Capability where
  id : Nat
  off : Nat
  ver : Nat
  deriving DecidableEq, Repr

/-- The capabilities of R331 in the first 256 bytes: PCI Power Management, PCI Express and MSI-X, of every function (PRESUMED, log entry 14). -/
def capsLow : List Capability := [⟨0x01, 0x40, 0⟩, ⟨0x10, 0x48, 0⟩, ⟨0x11, 0x84, 0⟩]

/-- The extended capabilities of R331: AER and ARI of every function; ACS, SR-IOV, L1 PM Substates, LTR and Device Serial Number of
the owner (PRESUMED, log entry 14). -/
def capsHigh (f : Nat) : List Capability :=
  [⟨0x0001, 0x100, 2⟩, ⟨0x000E, 0x148, 1⟩]
    ++ (if f = 16 then [⟨0x000D, 0x150, 1⟩, ⟨0x0010, 0x158, 1⟩, ⟨0x001E, 0x198, 1⟩, ⟨0x0018, 0x1A8, 1⟩, ⟨0x0003, 0x1B0, 1⟩] else [])

/-- The capability that follows one in a list, by its place; 0 ends the list. -/
def nextCap : List Capability → Nat → Nat
  | a :: b :: t, o => if a.off = o then b.off else nextCap (b :: t) o
  | _, _ => 0

/-- The first dword of an extended capability. -/
def capHead (f : Nat) (c : Capability) : Nat := c.id + 2 ^ 16 * c.ver + 2 ^ 20 * nextCap (capsHigh f) c.off

/-- A condition as a bit of a dword. -/
def flagAt (b : Bool) (i : Nat) : Nat := if b then 2 ^ i else 0

/-- The uncorrectable errors of a function's AER registers: poisoned, completion timeout, Completer Abort, Unsupported Request. -/
def PciFn.aerBits (x : PciFn) : Nat :=
  flagAt (x.aer.testBit 3) 12 + flagAt (x.aer.testBit 0) 14 + flagAt (x.aer.testBit 2) 15 + flagAt (x.aer.testBit 1) 20

/-- The header of a function (R330): identity, command, revision and class, BAR0, the first capability (DESIGN CHOICE, log entry 37). -/
def State.cfgHeader (s : State) (f off : Nat) : Nat :=
  let own := f == 16
  let x := s.pci f
  match off with
  | 0x00 => if own then s.fuse 2 % 2 ^ 16 + 2 ^ 16 * 0x6416 else 0xFFFFFFFF
  | 0x04 => flagAt x.mse 1 + flagAt x.bme 2 + 2 ^ 20
  | 0x08 => s.rd R.DEV_ID / 2 ^ 8 % 2 ^ 8 + 2 ^ 8 * 0x020000
  | 0x10 => if own then 4 + s.hif.bar % 2 ^ 32 else 0
  | 0x14 => if own then s.hif.bar / 2 ^ 32 else 0
  | 0x2C => Config.subsystem (s.slot (s.rd R.BOOT_STAT_SLOT)) % 2 ^ 32
  | 0x34 => 0x40
  | _ => 0

/-- The capabilities in the first 256 bytes (R326, R327, R331, R335, R349). -/
def State.cfgLow (s : State) (f off : Nat) : Nat :=
  let own := f == 16
  let x := s.pci f
  match off with
  | 0x40 => 0x01 + 2 ^ 8 * nextCap capsLow 0x40 + 2 ^ 16 * 3
  | 0x44 => (if x.d3 then 3 else 0) + 2 ^ 3
  | 0x48 => 0x10 + 2 ^ 8 * nextCap capsLow 0x48 + 2 ^ 16 * 2
  | 0x4C => 2 + 2 ^ 5 + 2 ^ 28
  | 0x50 => flagAt x.ro 4 + (if own then 2 ^ 5 * s.hif.mps + 2 ^ 12 * s.hif.mrrs else 0)
  | 0x54 => 4 + 2 ^ 4 * 4 + 2 ^ 10 * 2
  | 0x58 => 2 ^ 16 * s.rd R.HIF_LINK_SPEED + 2 ^ 20 * s.rd R.HIF_LINK_WIDTH
  | 0x6C => 3 + flagAt own 11
  | 0x70 => x.cto + flagAt (own && s.hif.ltrOn) 10
  | 0x74 => 2 * 15
  | 0x84 => 0x11 + 2 ^ 8 * nextCap capsLow 0x84 + 2 ^ 16 * 15 + flagAt x.fnMask 30
  | 0x88 => if own then 0xB0000 else 0xE000
  | 0x8C => if own then 0xB1000 else 0xF000
  | _ => 0

/-- The extended capabilities (R331, R332, R350). -/
def State.cfgHigh (s : State) (f off : Nat) : Nat :=
  match (capsHigh f).find? (fun c => c.off == off) with
  | some c => capHead f c
  | none =>
    if off = 0x104 then (s.pci f).aerBits
    else if f ≠ 16 then 0
    else
      match off with
      | 0x160 => flagAt (s.hif.numVfs != 0) 0 + flagAt s.hif.ari 4
      | 0x164 => 16 + 2 ^ 16 * 16
      | 0x168 => s.hif.vfWant
      | 0x16C => 1 + 2 ^ 16 * 1
      | 0x170 => 2 ^ 16 * 0x6417
      | 0x174 => 0x1F
      | 0x178 => s.hif.pageSize
      | 0x17C => 4 + s.hif.vfBar % 2 ^ 32
      | 0x180 => s.hif.vfBar / 2 ^ 32
      | 0x19C => 0x1F
      | 0x1B4 => s.fuse 3
      | 0x1B8 => s.fuse 4
      | _ => 0

/-- A dword of a function's configuration space (PRESUMED, log entry 14). -/
def State.cfgWord (s : State) (f off : Nat) : Nat :=
  if off < 0x40 then s.cfgHeader f off else if off < 0x100 then s.cfgLow f off else s.cfgHigh f off

/-- Replace the low or the high word of a 64-bit base address whose lowest w bits are 0. -/
def baseWord (w old : Nat) (hi : Bool) (v : Nat) : Nat :=
  if hi then old % 2 ^ 32 + 2 ^ 32 * v else old / 2 ^ 32 * 2 ^ 32 + v / 2 ^ w * 2 ^ w

/-- What a write to a function's configuration space does (R326, R327, R332 to R335, R342, R347 to R350, R538); other fields are RO (PRESUMED, log entry 14). -/
def State.cfgPut (s : State) (f : Func) (off v : Nat) : State :=
  let own := f.val == 16
  let x := s.pci f
  if off = 0x104 then
    let clear (m b i : Nat) : Nat := if v.testBit b then setBitAt m i false else m
    s.setPci f { x with aer := clear (clear (clear (clear x.aer 12 3) 14 0) 15 2) 20 1 }
  else
    match off with
    | 0x04 => (s.setPci f { x with mse := v.testBit 1 }).setPower f (v.testBit 2) x.d3
    | 0x10 => if own then { s with hif := { s.hif with bar := baseWord 22 s.hif.bar false v } } else s
    | 0x14 => if own then { s with hif := { s.hif with bar := baseWord 22 s.hif.bar true v } } else s
    | 0x44 => if v % 4 = 0 ∨ v % 4 = 3 then s.setPower f x.bme (v % 4 == 3) else s
    | 0x50 =>
      let t := s.setPci f { x with ro := v.testBit 4 }
      let t := if own ∧ v / 2 ^ 5 % 8 ≤ 2 ∧ v / 2 ^ 12 % 8 ≤ 2 then t.setUnits (v / 2 ^ 5 % 8) (v / 2 ^ 12 % 8) else t
      if v.testBit 15 then t.hifFlr f else t
    | 0x70 =>
      let t := if ([0, 1, 2, 5, 6] : List Nat).contains (v % 16) then s.setPci f { x with cto := v % 16 } else s
      if own = false then t else if v.testBit 10 then t.ltrEnable else { t with hif := { t.hif with ltrOn := false } }
    | 0x84 => s.setPci f { x with fnMask := v.testBit 30 }
    | 0x160 =>
      if own = false then s
      else
        let t := s.vfSetUp s.hif.vfWant (v.testBit 4) s.hif.pageSize
        if v.testBit 0 then t.vfEnable else if s.hif.numVfs = 0 then t else t.vfClear
    | 0x168 => if own then s.vfSetUp (v % 2 ^ 16) s.hif.ari s.hif.pageSize else s
    | 0x178 => if own ∧ ([1, 2, 4, 8, 16] : List Nat).contains v then s.vfSetUp s.hif.vfWant s.hif.ari v else s
    | 0x17C => if own then { s with hif := { s.hif with vfBar := baseWord 16 s.hif.vfBar false v } } else s
    | 0x180 => if own then { s with hif := { s.hif with vfBar := baseWord 16 s.hif.vfBar true v } } else s
    | _ => s

/-- Bytes of a dword replaced where their byte enable is 1. -/
def mergeBytes (be old new : Nat) : Nat :=
  leNat ((List.range 4).map (fun k => (leBytes 4 (if be.testBit k then new else old)).getD k 0))

/-- A configuration write of a dword with its byte enables; of write-1-to-clear and of command bits a byte not enabled carries 0. -/
def State.cfgWrite (s : State) (f : Func) (off be v : Nat) : State :=
  s.cfgRequest f (s.cfgPut f off (mergeBytes be (if off = 0x104 then 0 else s.cfgWord f off) v)) s

/-- The offset from which on the offsets of a function's register accesses name its configuration space (PRESUMED, log entry 14). -/
def cfgBase : Nat := 0x400000

/-- A configuration read completes with its dword (R329, R345). -/
def State.cfgRead (s : State) (rd : Reader) (off : Nat) : State :=
  let f : Nat := match rd with
    | .tenant n => n.val
    | _ => 16
  let t := s.emit (.readData rd (cfgBase + off) (s.cfgWord f off))
  s.cfgRequest f t t

end Sys2Proof.Machine
end

