-- ==== Sys2Proof/Machine/View.lean ====
section
/-! DEFINITION. Reading registers (spec/00_scope.md R10 and R11, spec/21_register_map.md R611 to R620): the value of a field that
the device holds outside the register file, the word at an offset of a BAR, and what a read does: latch, remove, clear. -/

namespace Sys2Proof.Machine

/-! ### Values that fields show -/

/-- The words W0 to W3 of a flow record (R91). -/
def FlowRec.word (x : FlowRec) (k : Nat) : Nat :=
  match k with
  | 0 => x.lastAcc
  | 1 => x.lastDel
  | 2 => x.fn + 2 ^ 5 * bit1 x.en + 2 ^ 6 * bit1 x.hostseq + 2 ^ 7 * bit1 x.elEn + 2 ^ 15 * x.inflight
  | _ => min x.nondel 0xFFFF + 2 ^ 16 * x.lastCode

/-- The staged FN, EN and HOSTSEQ of the selected flow (R92, R619). -/
def State.flowStaged (s : State) : Nat × Bool × Bool :=
  let x := s.rd R.FLOW_SEL
  let r := s.flow x
  mgetD s.led.flowStg x (r.fn, r.en, r.hostseq)

/-- The staged content of a template: what waits to be installed, once a commit has made it pending (R205, R619). -/
def State.tplStaged (s : State) (t : Nat) : Tpl :=
  ((mget s.buf.tplStg t) <|> (mget s.buf.tplPend t)).getD (s.tpl t)

/-- The code of an overlay bank's state (chapter 7, registers). -/
def BankState.code : BankState → Nat
  | .free => 0
  | .staging => 1
  | .pending => 2
  | .active => 3
  | .copying => 4

/-- The bank that holds staged table writes (chapter 7, registers: STAGING or PENDING) (DEDUCED, log entry 74). -/
def State.heldBank (s : State) : Overlay :=
  (s.mas.banks.find? (fun o => o.state == .staging || o.state == .pending)).getD Overlay.reset

/-- Word k of an exact-match entry as the newest epoch sees it (R232). -/
def State.exactWindow (s : State) (k : Nat) : Nat := (exactEntryWords (s.exactAt s.tick.epoch (k / 8))).getD (k % 8) 0

/-- A credit in bits, in two's complement (chapter 9, registers). -/
def State.creditBits (s : State) (p q : Nat) : Nat := ofSigned 32 ((s.settleLoads p).creditNow p q / (creditBit : Nat))

/-- Source number of bit b of tenant n (R460). -/
def tenantSource (n b : Nat) : Nat := if b < 10 then 10 * n + b else 170 + n

/-- The head line of a mailbox's reply queue (R509). -/
def State.mbxHead (s : State) (f : Nat) : List Byte :=
  (((s.chan (if f = 16 then 1 else 8 + f)).replies.head?).map (·.2)).getD []

/-- TRIAL_LEFT (R583): whole seconds that remain (DEDUCED, log entry 74). -/
def State.trialLeft (s : State) : Nat :=
  match s.boot.trialEnd with
  | some t => ceilDiv (t - s.now) (1000000000 * unitsPerNs)
  | none => 0

/-- The selected key slot (R443). -/
def State.selKey (s : State) : KeySlot := s.keySlot (s.rd R.KEY_SEL)

/-- A context as CTX_STAT shows it: STATE, HOLDER, REASON (R440). -/
def Stream.stat (x : Stream) : Nat := x.state + 2 ^ 4 * x.holder + 2 ^ 8 * x.reason

/-- INT_N is driven low (R474). -/
def State.intN (s : State) : Bool :=
  s.stalled || s.bit R.FLT_STAT_ECLIPSE
    || (List.range 384).any (fun i => sourceOwner i == 16 && s.bit (R.ROUTE_INTN i) && s.pend i && !(s.src i).mask
      && !s.bitAt R.FN_MASK 16)

/-! ### Fields that the device holds outside the register file -/

/-- A field's value: of a state, for a reader, at indices; in a tenant's BAR the tenant's number stands before them. -/
abbrev Live := State → Reader → List Nat → Nat

/-- Index k of a register. -/
def ix (i : List Nat) (k : Nat) : Nat := i.getD k 0

/-- Fields of the owner's BAR in chapters 2 to 8 (DEDUCED, log entry 74). -/
def ownerLiveA : List (Fld × Live) := [
  (R.TICK_NUM_LO, fun s _ _ => s.tickNum % 2 ^ 32),
  (R.ENTRY_FREE, fun s _ _ => s.entryFree),
  (R.FLOW_REC_W0, fun s _ _ => (s.flow (s.rd R.FLOW_SEL)).word 0),
  (R.FLOW_CFG_FN, fun s _ _ => s.flowStaged.1),
  (R.FLOW_CFG_EN, fun s _ _ => bit1 s.flowStaged.2.1),
  (R.FLOW_CFG_HOSTSEQ, fun s _ _ => bit1 s.flowStaged.2.2),
  (R.RET_HWM, fun s _ _ => mgetD s.led.retention (s.rd R.FLOW_SEL) 0),
  (R.FREE_CELLS, fun s _ _ => s.freeCells),
  (R.FC_STAT_RX_HELD 0, fun s _ i => bits 9 (fun k => s.heldIdx (ix i 0) k)),
  (R.TPL_ATTR_VALID, fun s _ _ => bit1 (s.tplStaged (s.rd R.TPL_SEL)).valid),
  (R.TPL_ATTR_TL, fun s _ _ => (s.tplStaged (s.rd R.TPL_SEL)).tl),
  (R.TPL_ATTR_NFIX, fun s _ _ => (s.tplStaged (s.rd R.TPL_SEL)).nfix),
  (R.TPL_STAT_REFS, fun s _ _ => s.tplRefs (s.rd R.TPL_SEL)),
  (R.TPL_STAT_PEND, fun s _ _ => bit1 (mget s.buf.tplPend (s.rd R.TPL_SEL)).isSome),
  (R.TPL_MASK 0, fun s _ i => (s.tplStaged (s.rd R.TPL_SEL)).mask / 2 ^ (32 * ix i 0)),
  (R.TPL_DATA 0, fun s _ i => leNat (sliceD (s.tplStaged (s.rd R.TPL_SEL)).bytes (4 * ix i 0) 4)),
  (R.MAS_STAT_OVL_BUSY, fun s _ _ => bit1 s.stgBank.isNone),
  (R.MAS_STAT_V0_STATE, fun s _ _ => (s.mas.banks.getD 0 Overlay.reset).state.code),
  (R.MAS_STAT_V1_STATE, fun s _ _ => (s.mas.banks.getD 1 Overlay.reset).state.code),
  (R.TBL_STG_CTRL_GO, fun s _ _ => bit1 (decide (s.now < s.mas.stgGo))),
  (R.TBL_STG_STAT_N_EXACT, fun s _ _ => s.heldBank.exact.length),
  (R.TBL_STG_STAT2, fun s _ _ => s.heldBank.tern.length + 2 ^ 16 * s.heldBank.pol.length),
  (R.SKETCH_CTRL_CLEAR, fun s _ _ => s.rd R.SKETCH_STAT_CLEARING),
  (R.CNT_PKT_LO, fun s _ _ => (s.counter (s.rd R.CNT_SEL)).1 % 2 ^ 32),
  (R.PCOST_CYC, fun s _ _ => (mgetD s.mas.pcost (s.rd R.PCOST_SEL) (0, 0, 0)).1),
  (R.PCOST_LKP, fun s _ _ => (mgetD s.mas.pcost (s.rd R.PCOST_SEL) (0, 0, 0)).2.1),
  (R.PCOST_JOB, fun s _ _ => (mgetD s.mas.pcost (s.rd R.PCOST_SEL) (0, 0, 0)).2.2),
  (R.HAC_LIVE_Q_LIVE, fun s _ _ => bit1 (s.wordLive (s.rd R.HAC_LIVE_Q_W))),
  (R.HAC_LO 0, fun s _ i => (s.hacWord (ix i 0)).toNat % 2 ^ 32),
  (R.HAC_HI 0, fun s _ i => (s.hacWord (ix i 0)).toNat / 2 ^ 32)]

/-- Fields of the owner's BAR in chapters 9 to 14 (DEDUCED, log entry 74). -/
def ownerLiveB : List (Fld × Live) := [
  (R.SLOTS_USED 0, fun s _ i => s.slotsUsed (ix i 0)),
  (R.Q_DEPTH 0 0, fun s _ i => (s.waiting (ix i 0) (ix i 1)).length),
  (R.Q_CREDIT 0 0, fun s _ i => s.creditBits (ix i 0) (ix i 1)),
  (R.HIF_FLR, fun s _ _ => s.rd R.HIF_FLR_STAT),
  (R.TEN_VIOL_O 0, fun s _ i => s.rd (R.TEN_VIOL (ix i 0))),
  (R.EL_STAT_O_OUTSTANDING 0, fun s _ i => s.rd (R.EL_STAT_OUTSTANDING (ix i 0))),
  (R.EL_STAT_O_PERMIT 0, fun s _ i => s.inf (R.QUOTA_EL_PERMIT (ix i 0))),
  (R.RING_CTRL_RESET 16 0, fun s _ i => s.rd (R.RING_STAT_RESETTING 16 (ix i 0))),
  (R.TD_NS 0, fun s _ i => s.tdNs (ix i 0) % 1000000000),
  (R.DOM_STAT_SLEWING 0, fun s _ i => bit1 (decide (s.adjLeft (ix i 0) ≠ 0))),
  (R.ADJ_REMAIN 0, fun s _ i => ofSigned 32 ((s.adjLeft (ix i 0)).tdiv tdUnit)),
  (R.TSQ_W 0 0, fun s _ i => (((s.tu.tsq.getD (ix i 0) []).head?).getD []).headD 0),
  (R.TCAP_W 0 0, fun s _ i => (((s.tu.tcap.getD (ix i 0) []).head?).getD []).headD 0)]

/-- Fields of the owner's BAR in chapter 15 (DEDUCED, log entry 74). -/
def ownerLiveC : List (Fld × Live) := [
  (R.DGE_STAT_CLEARING, fun s _ _ => bit1 s.dge.clearing.isSome),
  (R.KEY_STAT_VALID, fun s _ _ => bit1 s.selKey.force.valid),
  (R.KEY_STAT_ALG, fun s _ _ => s.selKey.force.alg),
  (R.KEY_STAT_STAGED, fun s _ _ => bit1 s.selKey.staged),
  (R.KEY_STAT_RETIRING, fun s _ _ => bit1 s.selKey.retiring.isSome),
  (R.KEY_STAT_CON, fun s _ _ => bit1 s.selKey.force.con),
  (R.KEY_KCV, fun s _ _ => s.selKey.force.kcv),
  (R.KEY_KCV_STG, fun s _ _ => s.selKey.other.kcv),
  (R.SYS_CTRL_FINAL, fun s _ _ => bit1 ((s.stream 16).state == 2 && (s.stream 16).holder == 1)),
  (R.SYS_STAT_STATE, fun s _ _ => (s.stream 16).state),
  (R.SYS_STAT_HOLDER, fun s _ _ => (s.stream 16).holder),
  (R.SYS_STAT_REASON, fun s _ _ => (s.stream 16).reason),
  (R.SYS_STAT_IN_FREE, fun s _ _ => (s.stream 16).room),
  (R.SYS_BYTES_LO, fun s _ _ => (s.stream 16).count % 2 ^ 32),
  (R.SYS_BYTES_HI, fun s _ _ => (s.stream 16).count / 2 ^ 32),
  (R.DIGEST 0, fun s _ i => s.digestWord (ix i 0)),
  (R.CTX_STAT 0, fun s _ i => (s.stream (ix i 0)).stat),
  (R.CRU_STAT_RETIRING 0, fun s _ i => bit1 (s.cru (ix i 0)).retiring.isSome),
  (R.JCTRL_FINAL 0 0, fun s _ i => bit1 ((s.cruPort (ix i 0) (ix i 1)).state == 2)),
  (R.JSTAT_STATE 0 0, fun s _ i => (s.cruPort (ix i 0) (ix i 1)).state),
  (R.JSTAT_REASON 0 0, fun s _ i => (s.cruPort (ix i 0) (ix i 1)).reason),
  (R.JSTAT_IN_FREE 0 0, fun s _ i =>
    let x := s.cruPort (ix i 0) (ix i 1)
    if x.state = 0 then 0 else 64 - x.buf.length),
  (R.JRES_LO 0 0, fun s _ i => (s.cruPort (ix i 0) (ix i 1)).result % 2 ^ 32),
  (R.JRES_HI 0 0, fun s _ i => (s.cruPort (ix i 0) (ix i 1)).result / 2 ^ 32)]

/-- Fields of the owner's BAR in chapters 16 to 20 (DEDUCED, log entry 74). -/
def ownerLiveD : List (Fld × Live) := [
  (R.IRC_STAT_IRC_RESET, fun s _ _ => bit1 (s.bitAt R.ENG_RST_STAT 15)),
  (R.LEVEL 0, fun s _ i => bits 32 (fun b => s.level (32 * ix i 0 + b))),
  (R.PEND 0, fun s _ i => bits 32 (fun b => s.pend (32 * ix i 0 + b))),
  (R.MASK 0, fun s _ i => bits 32 (fun b => (s.src (32 * ix i 0 + b)).mask)),
  (R.INSVC 0, fun s _ i => bits 32 (fun b => (s.src (32 * ix i 0 + b)).insvc)),
  (R.VEC 0, fun s _ i => (s.src (ix i 0)).vec),
  (R.CNT 0, fun s _ i => (s.src (ix i 0)).cnt),
  (R.EVLOG_LO, fun s _ _ => ((s.irc.log.head?).getD s.irc.lastRemoved).word % 2 ^ 32),
  (R.EVLOG_STAT_EMPTY, fun s _ _ => bit1 s.irc.log.isEmpty),
  (R.EVLOG_STAT_COUNT, fun s _ _ => s.irc.log.length),
  (R.TELE_STAT_EMPTY, fun s _ _ => bit1 s.irc.tele.isEmpty),
  (R.TELE_STAT_COUNT, fun s _ _ => s.irc.tele.length),
  (R.MBX_STAT_RPL_AVAIL 16, fun s _ _ => bit1 !(s.chan 1).replies.isEmpty),
  (R.MBX_STAT_HALT 16, fun s _ _ => s.rd R.FLT_STAT_MGC_HALT),
  (R.MBX_CMD_GO 16, fun s _ _ => s.rd (R.MBX_STAT_CMD_BUSY 16)),
  (R.MBX_RPL_LEN 16, fun s _ _ => (s.mbxHead 16).length),
  (R.MBX_RPL 16, fun s _ i => leNat (sliceD (s.mbxHead 16) (4 * ix i 0) 4)),
  (R.PM_CTRL_GO, fun s _ _ => s.rd R.PM_STAT_BUSY),
  (R.FUSE_VAL_LO, fun s _ _ => s.fuse (s.rd R.FUSE_SEL) % 2 ^ 32),
  (R.FUSE_VAL_HI_DATA, fun s _ _ => s.fuse (s.rd R.FUSE_SEL) / 2 ^ 32),
  (R.FUSE_VAL_HI_DEFAULTED, fun s _ _ => bit1 (s.fuseBad (s.rd R.FUSE_SEL))),
  (R.TRIAL_LEFT, fun s _ _ => s.trialLeft),
  (R.MSIX_PBA_LO 16, fun s _ _ => s.pba 16),
  (R.RF 0, fun s _ i => if s.pm.rfBad.contains (ix i 0) then 0 else s.rd (R.RF (ix i 0)))]

/-- Fields of a tenant's BAR. -/
def tenantLive : List (Fld × Live) := [
  (R.TEN_STAT_HOST_STALL 0, fun s _ _ => bit1 s.stalled),
  (⟨0x1000014, 0, 26, 0⟩, fun s _ i =>
    let n := ix i 0
    s.inf (R.QUOTA_TX_RINGS n) + 2 ^ 4 * s.inf (R.QUOTA_RX_RINGS n) + 2 ^ 8 * s.inf (R.QUOTA_RING_LOG2_MAX n)
      + 2 ^ 16 * s.inf (R.QUOTA_FETCH_MAX n) + 2 ^ 24 * s.inf (R.QUOTA_EL_PERMIT n) + 2 ^ 25 * s.inf (R.QUOTA_MBX_EN n)),
  (R.RING_CTRL_RESET 0 0, fun s _ i => s.rd (R.RING_STAT_RESETTING (ix i 0) (ix i 1))),
  (R.EL_FLOW_EL_EN 0, fun s _ i =>
    let x := s.flow (s.rd (R.EL_FLOW_SEL (ix i 0)))
    bit1 (x.fn == ix i 0 && x.elEn)),
  (R.EL_STAT_PERMIT 0, fun s _ i => s.inf (R.QUOTA_EL_PERMIT (ix i 0))),
  (⟨0x100A000, 0, 30, 0⟩, fun s _ i => s.tdNs (ix i 1) % 1000000000),
  (⟨0x100A004, 0, 32, 0⟩, fun s rd i => s.latch rd (R.TD_SEC_LO (ix i 1))),
  (⟨0x100A008, 0, 16, 0⟩, fun s rd i => s.latch rd (R.TD_SEC_HI (ix i 1))),
  (⟨0x100A00C, 0, 8, 0⟩, fun s rd i => s.latch rd (R.TD_FRAC (ix i 1))),
  (⟨0x100A020, 0, 4, 0⟩, fun s _ i =>
    let d := ix i 1
    s.rd (R.DOM_STAT_STATE d) + 4 * s.rd (R.DOM_STAT_VALID d) + 8 * s.rd (R.DOM_STAT_RATE_UNTRAINED d)),
  (⟨0x100A028, 0, 18, 0⟩, fun s _ _ => s.rd R.UTC_CFG_OFFSET + 2 ^ 16 * s.rd R.UTC_CFG_LEAP61 + 2 ^ 17 * s.rd R.UTC_CFG_LEAP59),
  (⟨0x100A02C, 0, 18, 0⟩, fun s _ _ => s.rd R.UTC_LEAP_DAY),
  (R.TLEVEL 0, fun s _ i => bits 11 (fun b => s.level (tenantSource (ix i 0) b))),
  (R.TPEND 0, fun s _ i => bits 11 (fun b => s.pend (tenantSource (ix i 0) b))),
  (R.TMASK 0, fun s _ i => bits 11 (fun b => (s.src (tenantSource (ix i 0) b)).mask)),
  (R.TINSVC 0, fun s _ i => bits 11 (fun b => (s.src (tenantSource (ix i 0) b)).insvc)),
  (R.TVEC 0 0, fun s _ i => (s.src (tenantSource (ix i 0) (ix i 1))).vec),
  (R.TCNT 0 0, fun s _ i => (s.src (tenantSource (ix i 0) (ix i 1))).cnt),
  (R.MBX_STAT_RPL_AVAIL 0, fun s _ i => bit1 !(s.chan (8 + ix i 0)).replies.isEmpty),
  (R.MSIX_PBA_LO 0, fun s _ i => s.pba (ix i 0)),
  (R.MBX_STAT_HALT 0, fun s _ _ => s.rd R.FLT_STAT_MGC_HALT),
  (R.MBX_CMD_GO 0, fun s _ i => s.rd (R.MBX_STAT_CMD_BUSY (ix i 0))),
  (R.MBX_RPL_LEN 0, fun s _ i => (s.mbxHead (ix i 0)).length),
  (R.MBX_RPL 0, fun s _ i => leNat (sliceD (s.mbxHead (ix i 0)) (4 * ix i 1) 4))]

/-- Every field of the owner's BAR that the device holds outside the register file (DEDUCED, log entry 74). -/
def ownerLive : List (Fld × Live) := ownerLiveA ++ ownerLiveB ++ ownerLiveC ++ ownerLiveD

/-- Registers of the owner's BAR that show a reader's latch (R91, R156, R230, R402, R416, R482, R486, R617): their tables' base
offsets, the first and the last of a run of words four bytes apart (DEDUCED, log entry 71). -/
def ownerLatched : List (Nat × Nat) := [
  (0x60114, 0x60114), (0x28014, 0x2801C), (0x10604, 0x10604), (0x1060C, 0x1060C), (0x10614, 0x10614), (0x1061C, 0x1061C),
  (0x10624, 0x10624), (0x10634, 0x10634), (0x10684, 0x10684), (0x1068C, 0x1068C), (0x10694, 0x10694), (0x1069C, 0x1069C),
  (0x106A4, 0x106A4), (0x106B4, 0x106B4), (0x30B08, 0x30B10), (0x60218, 0x60220), (0x82004, 0x82004)]

/-- Registers of a tenant's BAR that show the tenant's latch (DEDUCED, log entry 71). -/
def tenantLatched : List (Nat × Nat) := [(0x4014, 0x401C), (0x5008, 0x5010)]

/-! ### The word at an offset -/

/-- The BAR that a reader addresses: the owner's (none), which MGC reads too, or a tenant's. -/
def readerBar : Reader → Option Nat
  | .tenant n => some n
  | _ => none

/-- The key base of a BAR in the register file. -/
def barBase : Option Nat → Nat
  | none => 0
  | some n => 0x1000000 * (n + 1)

/-- The registers at an offset of a BAR with their indices; the owner has no ring 8 (R610). -/
def barRegs (bar : Option Nat) (off : Nat) : List (RegDef × List Nat) :=
  match bar with
  | none => if 0x52200 ≤ off ∧ off < 0x52240 then [] else regsAt ownerBlocks off
  | some n => (regsAt tenantBlocks off).map (fun x => (x.1, n :: x.2))

/-- A register shows a reader's latch: of the words of a queue entry all but the first (R416), of a record all but D0 (R486) (DEDUCED, log entry 71). -/
def isLatched (bar : Option Nat) (d : RegDef) (i : List Nat) : Bool :=
  let l := if bar.isSome then tenantLatched else ownerLatched
  l.any (fun x => decide (x.1 ≤ d.base ∧ d.base ≤ x.2))
    || (bar.isNone && (((d.base == 0x60410 || d.base == 0x60710) && ix i 1 != 0) || (d.base == 0x82140 && ix i 0 != 0)))

/-- The value of a field of a register at an offset, as a reader sees it (R10, R617, R619). -/
def State.fieldAt (s : State) (rd : Reader) (off : Nat) (d : RegDef) (i : List Nat) (f : FieldDef) : Nat :=
  let bar := readerBar rd
  let live := if bar.isSome then tenantLive else ownerLive
  let fld : Fld := ⟨barBase bar + off, f.lo, f.hi + 1 - f.lo, f.rst i⟩
  if f.acc = .wo then 0
  else if isLatched bar d i then s.latch rd fld
  else
    match live.find? (fun e => e.1.off % 0x1000000 == d.base && e.1.lo == f.lo) with
    | some e => e.2 s rd i % 2 ^ fld.width
    | none => regGet s.regs fld

/-- The word at an offset (R11): unassigned bits read 0 (DESIGN CHOICE, log entry 4). -/
def State.wordAt (s : State) (rd : Reader) (off : Nat) : Nat :=
  ((barRegs (readerBar rd) off).map (fun x => (x.1.fields.map (fun f => 2 ^ f.lo * s.fieldAt rd off x.1 x.2 f)).sum)).sum

/-! ### What a read does -/

/-- A read of FLOW_REC_W0 in the owner's window (R91, R617). -/
def State.flowRead (s : State) (rd : Reader) : Nat × State :=
  let x := s.flow (s.rd R.FLOW_SEL)
  (x.word 0, ((s.setLatch rd R.FLOW_REC_W1 (x.word 1)).setLatch rd R.FLOW_REC_W2 (x.word 2)).setLatch rd R.FLOW_REC_W3 (x.word 3))

/-- A read of FLOW_REC_W0 in a tenant's window: the tenant's own flows only (R338, R613). -/
def State.tenFlowRead (s : State) (n : Nat) (rd : Reader) : Nat × State :=
  let x := s.flow (s.rd (R.T_FLOW_SEL n))
  let own := x.fn == n
  let w (k : Nat) : Nat := if own then x.word k else 0
  let s := if own then s else s.tenViol n
  (w 0, ((s.setLatch rd (R.T_FLOW_REC_W1 n) (w 1)).setLatch rd (R.T_FLOW_REC_W2 n) (w 2)).setLatch rd (R.T_FLOW_REC_W3 n) (w 3))

/-- A read of RET_HWM in a tenant's window (R111, R338, R613). -/
def State.tenHwm (s : State) (n : Nat) : Nat × State :=
  let sel := s.rd (R.T_FLOW_SEL n)
  if (s.flow sel).fn = n then (mgetD s.led.retention sel 0, s) else (0, s.tenViol n)

/-- A read of TICK_NUM_LO (R42). -/
def State.tickRead (s : State) (rd : Reader) : Nat × State :=
  (s.tickNum % 2 ^ 32, s.setLatch rd R.TICK_NUM_HI (s.tickNum / 2 ^ 32))

/-- A read of the LO word of a 64-bit statistic (R156). -/
def State.statRead (s : State) (rd : Reader) (lo hi : Fld) : Nat × State := (s.rd lo, s.setLatch rd hi (s.rd hi))

/-- Differences that telemetry takes are of counts, whatever a read clears (R483). -/
def State.keepTele (s t : State) : State :=
  { t with irc := { t.irc with telePrev := t.irc.telePrev.map (fun x =>
      let a := s.portCounts x.1
      let b := t.portCounts x.1
      (x.1, (List.range 8).map (fun k => (x.2.getD k 0 + b.getD k 0 + 2 ^ 64 - a.getD k 0) % 2 ^ 64))) } }

/-- A read of the register at an offset that clears its RC fields; what hardware has added in the same cycle is not returned and stays (R10,
R620, R621) (DEDUCED, log entry 74). -/
def State.rcRead (s : State) (rd : Reader) (off : Nat) : Nat × State :=
  let l := (barRegs (readerBar rd) off).flatMap (fun x => (x.1.fields.filter (fun f => f.acc == .rc)).map (fun f =>
    (⟨barBase (readerBar rd) + off, f.lo, f.hi + 1 - f.lo, f.rst x.2⟩ : Fld)))
  let old := { s with regs := l.foldl (fun r f => regPut r f (regGet s.cyc.regs f)) s.regs }
  let t := l.foldl (fun s f => (s.wr f (s.rd f - regGet s.cyc.regs f)).found f 0) s
  (old.wordAt rd off, if (readerBar rd).isNone ∧ 0x10000 ≤ off ∧ off < 0x1C000 then s.keepTele t else t)

/-- The LO words of 64-bit statistics by their base offsets (R156). -/
def statBases : List Nat := [0x10600, 0x10608, 0x10610, 0x10618, 0x10620, 0x10630, 0x10680, 0x10688, 0x10690, 0x10698, 0x106A0, 0x106B0]

/-- Registers whose read does more than show their word and clear RC fields, by their tables' base offsets. -/
def ownerReads : List (Nat × (State → Reader → List Nat → Nat → Nat × State)) :=
  statBases.map (fun b => (b, fun s rd _ off => s.statRead rd ⟨off, 0, 32, 0⟩ ⟨off + 4, 0, 32, 0⟩)) ++ [
  (0x60110, fun s rd _ _ => s.tickRead rd),
  (0x28010, fun s rd _ _ => s.flowRead rd),
  (0x30B04, fun s rd _ _ => s.cntPktLo rd),
  (0x30C04, fun s _ _ _ => s.hitWord),
  (0x60214, fun s rd i _ => s.tdNsRead rd (ix i 0)),
  (0x60410, fun s rd i off => if ix i 1 = 0 then s.tsqRead rd (ix i 0) else (s.wordAt rd off, s)),
  (0x60710, fun s rd i off => if ix i 1 = 0 then s.tcapRead rd (ix i 0) else (s.wordAt rd off, s)),
  (0x70240, fun s rd i off => (s.wordAt rd off, if ix i 0 = 15 then s.digestTaken else s)),
  (0x8000C, fun s rd _ off => s.heldSync.rcRead rd off),
  (0x81800, fun s _ i _ => s.cntRead 16 (ix i 0)),
  (0x94100, fun s rd i off => (s.wordAt rd off, if s.pm.rfBad.contains (ix i 0) then s.put R.AON_STAT_RF_BAD true else s)),
  (0x82000, fun s rd _ _ => s.logRead rd),
  (0x82140, fun s rd i off => if ix i 0 = 0 then s.teleRead rd else (s.wordAt rd off, s))]

/-- The same for a tenant's BAR. -/
def tenantReads : List (Nat × (State → Reader → List Nat → Nat → Nat × State)) := [
  (0x4010, fun s rd i _ => s.tenFlowRead (ix i 0) rd),
  (0x4024, fun s _ i _ => s.tenHwm (ix i 0)),
  (0x5004, fun s rd i _ => s.tcntPktLo (ix i 0) rd),
  (0x6080, fun s _ i _ => s.cntRead (ix i 0) (tenantSource (ix i 0) (ix i 1))),
  (0x7004, fun s rd i off => (s.wordAt rd off,
    if (s.flow (s.rd (R.EL_FLOW_SEL (ix i 0)))).fn = ix i 0 then s else s.tenViol (ix i 0))),
  (0xA000, fun s rd i _ => s.tdNsRead rd (ix i 1))]

/-- A read of the register at an offset of a reader's BAR, with everything it does (R338, R611, R617, R620) (DEDUCED, DESIGN CHOICE, log entries 4, 63, 71). -/
def State.readReg (s : State) (rd : Reader) (off : Nat) : Nat × State :=
  if (readerBar rd).isNone ∧ 0x100000 ≤ off ∧ off < 0x200000 then (s.exactWindow ((off - 0x100000) / 4), s)
  else
    match barRegs (readerBar rd) off with
    | [] => (0, if (readerBar rd).isNone then s.inc R.UNMAPPED_CNT else s)
    | (d, i) :: _ =>
      match (if (readerBar rd).isSome then tenantReads else ownerReads).find? (fun e => e.1 == d.base) with
      | some e => e.2 s rd i off
      | none => s.rcRead rd off

/-- The bytes of a word that are enabled, and free values in the place of the others (R615). -/
def State.enabled (s : State) (be v : Nat) : Nat × State :=
  if be % 16 = 15 then (v, s)
  else
    let x := s.draw 32
    ((List.range 4).foldl (fun a k => a + (if be.testBit k then v else x.1) / 2 ^ (8 * k) % 256 * 2 ^ (8 * k)) 0, x.2)

/-- A host's read, or MGC's, completes with its data; during a tenant's reset a read of its BAR completes with 0 (R345, R615). -/
def State.readBy (s : State) (rd : Reader) (off be : Nat) : State :=
  if cfgBase ≤ off ∧ rd ≠ .mgc then s.cfgRead rd (off - cfgBase)
  else
    let x := s.readReg rd off
    s.answer rd (barBase (readerBar rd) + off) (x.2.enabled be x.1)

/-- FLOW_REC_W0_READ (R91, R613). -/
def execFlowRecW0Read (rd : Reader) (s : State) : Host.Outcome State Fault Refusal :=
  .next (match rd with
    | .tenant n => s.answer rd (R.T_FLOW_REC_W0 n).off (s.tenFlowRead n rd)
    | _ => s.answer rd R.FLOW_REC_W0.off (s.flowRead rd))

/-- TICK_NUM_LO_READ (R42): a register of the owner's BAR. -/
def execTickNumLoRead (rd : Reader) (s : State) : Host.Outcome State Fault Refusal :=
  .next (s.ownerAnswer rd R.TICK_NUM_LO.off (s.tickRead rd))

/-- The LO and HI words of a 64-bit statistic of a port (R156). -/
def statPair (c : StatCounter) (p : Nat) : Fld × Fld :=
  match c with
  | .rxOctets => (R.RX_OCTETS p, R.RX_OCTETS_HI p)
  | .rxEnded => (R.RX_ENDED p, R.RX_ENDED_HI p)
  | .rxBcast => (R.RX_BCAST p, R.RX_BCAST_HI p)
  | .rxMcast => (R.RX_MCAST p, R.RX_MCAST_HI p)
  | .rxMacctl => (R.RX_MACCTL p, R.RX_MACCTL_HI p)
  | .rxSize b => (R.RX_SIZE p b, R.RX_SIZE_HI p b)
  | .txOctets => (R.TX_OCTETS p, R.TX_OCTETS_HI p)
  | .txFrames => (R.TX_FRAMES p, R.TX_FRAMES_HI p)
  | .txBcast => (R.TX_BCAST p, R.TX_BCAST_HI p)
  | .txMcast => (R.TX_MCAST p, R.TX_MCAST_HI p)
  | .txMacctl => (R.TX_MACCTL p, R.TX_MACCTL_HI p)
  | .txSize b => (R.TX_SIZE p b, R.TX_SIZE_HI p b)

/-- STAT_LO_READ (R156): a register of the owner's BAR. -/
def execStatLoRead (rd : Reader) (p : Port) (c : StatCounter) (s : State) : Host.Outcome State Fault Refusal :=
  .next (s.ownerAnswer rd (statPair c p).1.off (s.statRead rd (statPair c p).1 (statPair c p).2))

end Sys2Proof.Machine
end

