-- ==== Sys2Proof/Machine/Write.lean ====
section
/-! DEFINITION. Register writes (spec/00_scope.md R10 to R12, spec/21_register_map.md R615 to R625): which writes are discarded and
why, what a write does to the fields of a register, and the registers that act when written. A register whose action has a row
of its own calls the same operation as that row. -/

namespace Sys2Proof.Machine

/-! ### Writes that are discarded (R12, R623 to R625) -/

/-- A value that a field's table allows (R623). -/
def Limit.ok : Limit → Nat → Bool
  | .any, _ => true
  | .range lo hi, v => decide (lo ≤ v ∧ v ≤ hi)
  | .atLeast lo, v => decide (lo ≤ v)
  | .notRange lo hi, v => !decide (lo ≤ v ∧ v ≤ hi)
  | .noneOf l, v => !l.contains v
  | .oneOfRanges l, v => l.any (fun x => decide (x.1 ≤ v ∧ v ≤ x.2))
  | .aligned a, v => v % a == 0
  | .etype, v => !(decide (v < 0x0600) || ([0x0800, 0x8100, 0x8808, 0x88A8, 0x88F7, 0xF1C1] : List Nat).contains v)

/-- The bits of a field in a word. -/
def FieldDef.of (f : FieldDef) (v : Nat) : Nat := v / 2 ^ f.lo % 2 ^ (f.hi + 1 - f.lo)

/-- A field that software writes a value to. -/
def FieldDef.takes (f : FieldDef) : Bool := f.acc == .rw || f.acc == .rwh || f.acc == .wo

/-- Bits hi to lo of a word. -/
def fieldOf (v hi lo : Nat) : Nat := v / 2 ^ lo % 2 ^ (hi + 1 - lo)

/-- A port mode that R123 does not permit: IF, RATE_MAX, AN_EN. -/
def badMode (mode rate an : Nat) : Bool :=
  match mode with
  | 0 => decide (rate > 5)
  | 1 => decide (rate > 5)
  | 2 => decide (rate > 2)
  | 3 => rate != 2
  | 4 => rate != 3 || an != 0
  | _ => true

/-- The highest TJ_ALARM that the grade reported allows (R559). -/
def State.tjMax (s : State) : Nat := if s.rd R.DEV_ID / 16 % 16 = 2 then 155 else 130

/-- Reserved values and combinations that a register's chapter names beside its fields' ranges (R623), by the table's base offset of
the owner's BAR. -/
def State.comboBad (s : State) (base : Nat) (i : List Nat) (v : Nat) : Bool :=
  match base with
  | 0x10000 => badMode (fieldOf v 2 0) (fieldOf v 6 4) (fieldOf v 8 8)
  | 0x1001C => fieldOf v 0 0 != (if ix i 0 < 3 then 0 else 1)
  | 0x20100 => decide (fieldOf v 9 0 + fieldOf v 19 16 > 1024)
  | 0x20118 => decide (fieldOf v 9 0 + fieldOf v 19 16 > 1024)
  | 0x304 => v % 2 == 1 && fieldOf v 1 1 == 0 && (fieldOf v 3 2 == 0 || fieldOf v 3 2 == 3)
  | 0x40800 => fieldOf v 9 8 == 3
  | 0x60248 => fieldOf v 5 4 == 3
  | 0x60340 => fieldOf v 17 16 == 3
  | 0x82100 => fieldOf v 2 1 == 3
  | 0x90028 => decide (fieldOf v 7 0 > s.tjMax)
  | _ => false

/-- A value carries a reserved encoding (R12, R623). -/
def State.reservedIn (s : State) (f : Func) (d : RegDef) (i : List Nat) (v : Nat) : Bool :=
  d.fields.any (fun x => x.takes && !x.lim.ok (x.of v)) || (f.val == 16 && s.comboBad d.base i v)

/-- The engine in whose block an offset of the owner's BAR lies (R610, R625): MPn, MAS, QSC, TU, DGE and CRUn (DEDUCED, log entry 72). -/
def blockEngine (off : Nat) : Option Nat :=
  if 0x10000 ≤ off ∧ off < 0x1C000 then some ((off - 0x10000) / 0x2000)
  else if (0x30000 ≤ off ∧ off < 0x35000) ∨ (0x100000 ≤ off ∧ off < 0x220000) then some 6
  else if 0x40000 ≤ off ∧ off < 0x46000 then some 7
  else if 0x60000 ≤ off ∧ off < 0x60800 then some 9
  else if 0x70000 ≤ off ∧ off < 0x70344 then some 10
  else if 0x78000 ≤ off ∧ off < 0x79000 then some (11 + (off - 0x78000) / 0x400)
  else none

/-- A register of the owner's BAR whose writes are staging writes (R72, R92, R205, R445, R606) (DEDUCED, log entry 72). -/
def isStaging (d : RegDef) : Bool :=
  d.staged || ([0x20204, 0x20210, 0x20280, 0x70100, 0x70104, 0x70140] : List Nat).contains d.base

/-- The value of a register's written fields would change (DEDUCED, log entry 72). -/
def State.changes (s : State) (rd : Reader) (off : Nat) (d : RegDef) (i : List Nat) (v : Nat) : Bool :=
  d.fields.any (fun x => x.takes && x.of v != s.fieldAt rd off d i x)

/-- The state of the object forbids the write (cause 3: R353, R418, R445, R449, R454, R487, and the registers of chapter 18) (DEDUCED, log entry 72). -/
def State.stateBad (s : State) (f : Func) (off : Nat) (d : RegDef) (i : List Nat) (v : Nat) : Bool :=
  let rd : Reader := if h : f.val < 16 then .tenant ⟨f.val, h⟩ else .owner
  let r := if f.val < 16 then ix i 1 else ix i 0
  let b := d.base
  if b = (if f.val < 16 then 0x1000 else 0x52000) ∨ b = (if f.val < 16 then 0x1004 else 0x52004) then
    s.bit (R.RING_CFG_EN f r) && s.changes rd off d i v
  else if f.val < 16 then false
  else if 0x60600 ≤ b ∧ b ≤ 0x60614 then s.bit (R.TOUT_CTRL_ARMED (ix i 0)) && s.changes rd off d i v
  else if b = 0x70100 ∨ b = 0x70104 ∨ b = 0x70140 then s.bit R.KEY_CTRL_GO || s.dge.clearing.isSome
  else if b = 0x70108 ∨ (0x70200 ≤ b ∧ b ≤ 0x70210 ∧ b ≠ 0x70204) then s.dge.clearing.isSome
  else if 0x78000 ≤ b ∧ b ≤ 0x7801C then (s.cru (ix i 0)).retiring.isSome
  else if 0x82120 ≤ b ∧ b ≤ 0x82128 then s.rd R.TELE_CFG_DEST == 1 && s.changes rd off d i v
  else if b = 0x90010 ∨ b = 0x90040 ∨ b = 0x90044 ∨ (0x91000 ≤ b ∧ b < 0x94000) then s.bit R.PM_STAT_BUSY
  else false

/-- The cause for which a write of a whole word is discarded, the first in the order of R624; causes 8 and 4 belong to the
operations of GO and HAC_HI (DEDUCED, log entry 72). -/
def State.writeBad (s : State) (f : Func) (off : Nat) (d : RegDef) (i : List Nat) (v : Nat) : Option Nat :=
  let own := f.val == 16
  if own && d.base != 0x10030 && d.base != 0x200000 && ((blockEngine off).any (fun e => s.bitAt R.ENG_RST_STAT e)) then some 7
  else if own && s.bit R.FLT_STAT_ECLIPSE && (isStaging d || d.base == 0x90000) then some 5
  else if own && s.tick.commitAt.isSome && isStaging d then some 2
  else if s.stateBad f off d i v then some 3
  else if s.reservedIn f d i v then some 1
  else none

/-! ### What a write does to the fields of a register (R618) -/

/-- The bits of a mask cleared in a number. -/
def clearBits (n m : Nat) : Nat := n - Nat.land n m

/-- A 1 written to a W1C field clears the bit, but for a bit that hardware has set in the same cycle (R10, R621) (DEDUCED, log entry 88). -/
def State.clearW1c (s : State) (f : Fld) (v : Nat) : State :=
  let old := regGet s.cyc.regs f
  (s.wr f (clearBits (s.rd f) (Nat.land v old))).found f (clearBits old v)

/-- A value written to an RWH field: a counter keeps what it has counted in the same cycle (R621) (DEDUCED, log entry 88). -/
def State.writeRwh (s : State) (f : Fld) (v : Nat) : State :=
  let n := v + (s.rd f - regGet s.cyc.regs f)
  (s.wr f (if f.width = 1 then v else min n (2 ^ f.width - 1))).found f v

/-- Each field of a register changes by its own access code (R10, R618). -/
def State.setFields (s : State) (base off : Nat) (d : RegDef) (i : List Nat) (v : Nat) : State :=
  d.fields.foldl (fun s x =>
    let fld : Fld := ⟨base + off, x.lo, x.hi + 1 - x.lo, x.rst i⟩
    match x.acc with
    | .rw => s.wr fld (x.of v)
    | .rwh => s.writeRwh fld (x.of v)
    | .w1c => s.clearW1c fld (x.of v)
    | _ => s) s

/-- Levels of kind S sources that a write has raised are arrivals (R462). -/
def State.edges (s t : State) (l : List Nat) : State :=
  l.foldl (fun t i => if s.levelS i = false ∧ t.levelS i then t.arrive i false else t) t

/-! ### Registers that act when written -/

/-- The core cycle of the latest boundary has not passed (R622). -/
def State.inBoundary (s : State) : Bool := decide (s.now < s.tick.start + s.cycle)

/-- A write of TICK_STAT: in the cycle in which a boundary sets the flags of an overrun, they stay set (R79). -/
def State.tickStat (s t : State) : State :=
  if s.inBoundary ∧ s.tick.fresh ≠ 0 then
    (t.put R.TICK_STAT_TICK_OVERRUN true).wr R.TICK_STAT_OVERRUN_ENG (Nat.lor (t.rd R.TICK_STAT_OVERRUN_ENG) s.tick.fresh)
  else t

/-- A written 1 in bit b acts. -/
def State.onBit (s : State) (v b : Nat) (t : State) : State := if v.testBit b then t else s

/-- MDIO_CMD: without GO the fields are written; with GO a transaction starts (R151, R152) (DEDUCED, log entry 73). -/
def State.mdioCmd (s t : State) (m v : Nat) : State :=
  if v % 2 = 0 then t
  else
    let c := fieldOf v 1 1
    s.mdioGo m ⟨c, fieldOf v 3 2, fieldOf v 8 4, fieldOf v 13 9, if c = 1 then s.rd (R.MDIO_ADDR m) else 0,
      if fieldOf v 3 2 = 1 then s.rd (R.MDIO_DATA_WDATA m) else 0, 0⟩

/-- A write to the template window (R198, R205): the staged content of the selected template. -/
def State.tplWrite (s : State) (g : Tpl → Tpl) : State :=
  let t := s.rd R.TPL_SEL
  { s with buf := { s.buf with tplStg := mput s.buf.tplStg t (g (s.tplStaged t)) } }

/-- Word w of a number replaced. -/
def putWord (n w v : Nat) : Nat := n - n / 2 ^ (32 * w) % 2 ^ 32 * 2 ^ (32 * w) + v * 2 ^ (32 * w)

/-- A write of FLOW_CFG (R92): the staged fields of the selected flow. -/
def State.flowCfg (s : State) (v : Nat) : State :=
  let x := (fieldOf v 4 0, v.testBit 5, v.testBit 6)
  { s with led := { s.led with flowStg := mput s.led.flowStg (s.rd R.FLOW_SEL) x } }

/-- A write of TD_CTRL (R405, R410): FORCE is read with SET_GO. -/
def State.tdCtrl (s : State) (d v : Nat) : State :=
  let s := s.onBit v 0 (s.tdSet d (s.setTime d) (v.testBit 1))
  let s := s.onBit v 4 (s.setValid d)
  s.onBit v 5 (s.clrValid d)

/-- A write of TOUT_CTRL (R418): with both bits DISARM acts. -/
def State.toutCtrl (s : State) (k v : Nat) : State := if v.testBit 1 then s.outDisarm k else s.onBit v 0 (s.outArm k)

/-- A write of TOUT_CFG: an output that holds a level returns to idle when it is reconfigured (R417). -/
def State.toutCfg (s t : State) (i : Nat) : State :=
  let word (s : State) : List Nat := [s.rd (R.TOUT_CFG_MODE i), s.rd (R.TOUT_CFG_DOM i), s.rd (R.TOUT_CFG_POL i),
    s.rd (R.TOUT_CFG_REQ_VALID i), s.rd (R.TOUT_CFG_LEVEL i)]
  if word s = word t then t else t.modOut i (fun o => { o with away := o.away && o.endAt.isSome })

/-- A write of UTC_CFG (R427): a leap second that applies in the same cycle is processed first, and a flag whose day has passed applies at
once. -/
def State.utcCfg (s : State) (v : Nat) : State :=
  ((((s.leapPassed).wr R.UTC_CFG_OFFSET v).wr R.UTC_CFG_LEAP61 (v / 2 ^ 16)).wr R.UTC_CFG_LEAP59 (v / 2 ^ 17)).leapPassed

/-- A write of SYS_CTRL (R442): OPEN, FINAL and ABORT act in the order of their bits (DEDUCED, log entry 73). -/
def State.sysCtrl (s : State) (v : Nat) : State :=
  let s := s.onBit v 0 (s.sysOpenNow (fieldOf v 6 4) (if v.testBit 7 then some (fieldOf v 13 8) else none))
  let s := s.onBit v 1 s.sysFinalNow
  s.onBit v 2 s.sysAbortNow

/-- A write of JCTRL (R456): OPEN, FINAL and ABORT act in the order of their bits (DEDUCED, log entry 73). -/
def State.jctrl (s : State) (u j v : Nat) : State :=
  let s := s.onBit v 0 (s.jobOpen u j)
  let s := s.onBit v 1 (s.jobFinal u j)
  s.onBit v 2 (s.setCruPort u j CruPort.reset)

/-- A write to one bit per source: sources that are not the owner's keep theirs (R463 to R465). -/
def State.perSource (s : State) (w v : Nat) (g : State → Nat → Bool → State) : State :=
  (List.range 32).foldl (fun s b => if sourceOwner (32 * w + b) = 16 then g s (32 * w + b) (v.testBit b) else s) s

/-- The same for the eleven sources of a tenant. -/
def State.perTenant (s : State) (n v : Nat) (g : State → Nat → Bool → State) : State :=
  (List.range 11).foldl (fun s b => g s (tenantSource n b) (v.testBit b)) s

/-- MASK of a source is written (R464). -/
def State.maskWrite (s : State) (i : Nat) (b : Bool) : State := s.setSrc i { s.src i with mask := b }

/-- A 1 written to EOI of a source (R465). -/
def State.eoiWrite (s : State) (i : Nat) (b : Bool) : State := if b then s.endOfInt i else s

/-- A write of TELE_CFG (R483, R484, R487): differences restart as EN is set, a new DEST ends what the old one held (DEDUCED, log entry 73). -/
def State.teleCfg (s t : State) : State :=
  let t := if s.bit R.TELE_CFG_EN = false ∧ t.bit R.TELE_CFG_EN then
      { t with irc := { t.irc with telePrev := (List.range 6).map (fun p => (p, t.portCounts p)) } }
    else t
  if s.rd R.TELE_CFG_DEST = t.rd R.TELE_CFG_DEST then t
  else
    let t : State := { t with con := { t.con with tele := none } }
    if t.rd R.TELE_CFG_DEST = 1 then (t.wr R.TLR_HEAD 0).wr R.TLR_TAIL 0 else t

/-- A write of PM_CTRL (R533). -/
def State.pmCtrl (s t : State) (v : Nat) : State :=
  if v.testBit 4 = false then t
  else
    match fieldOf v 1 0 with
    | 0 => s.pmGo 0 State.reqDay
    | 1 => s.pmGo 1 State.reqDusk
    | 2 => s.pmGo 2 State.reqTwilight
    | _ => s.pmGo 3 State.reqNight

/-- A write of SCRUB_CFG: without EN the scrub stops (R190). -/
def State.scrubCfg (s : State) : State :=
  if s.bit R.SCRUB_CFG_EN then s
  else { s with buf := { s.buf with scrubRead := none } }.put R.BUF_STAT_SCRUB_ACTIVE false

/-- A write of PAUSE_WD_STAT: a bit that hardware sets in the same cycle stays set (R167). -/
def State.wdStat (s : State) (p : Nat) : State :=
  let b := (s.port p).broke
  if b.1 / s.cycle = s.now / s.cycle then b.2.foldl (fun s i => s.putAt (R.PAUSE_WD_STAT_BROKEN p) i true) s else s

/-- A write of SLOT_STATE gives `t`: episodes of R473 that ended with it have been counted, those that begin with it are, and IDLE stays clear
where a message to the slot clears it in the same cycle (R468) (DEDUCED, log entry 61). -/
def State.slotState (s t : State) (k : Nat) : State :=
  let c := s.countOffline
  let s := ({ t with irc := c.irc, cyc := c.cyc }.wr R.HELD_CNT (c.rd R.HELD_CNT)).countOffline
  if s.irc.src.any (fun x => x.2.lastSlot == k && (x.2.lastIssue.map (· / s.cycle)) == some (s.now / s.cycle)) then
    s.put (R.SLOT_STATE_IDLE k) false
  else s

/-- A write of HIF_FLR (R342): each bit written 1 resets its function. -/
def State.hifFlrs (s : State) (v : Nat) : State :=
  (List.finRange 17).foldl (fun s f => if v.testBit f.val then s.hifFlr f else s) s

/-- A write of ENG_RST (R592, R608): each bit written 1 resets its engine. -/
def State.engResets (s : State) (v : Nat) : State :=
  (List.range 17).foldl (fun s e => s.onBit v e (s.engReset e)) s

/-- A mailbox's command registers hold while CMD_BUSY reads 1 (R508). -/
def State.unlessBusy (s t : State) (f : Nat) : State := if s.bit (R.MBX_STAT_CMD_BUSY f) then s else t

/-- An action of a register: the state before the write, the state with the plain fields written, the function, the register's
indices, the word. -/
abbrev WriteAct := State → State → Func → List Nat → Nat → State

/-- Actions of the owner's registers in chapters 2 to 10. -/
def ownerActsA : List (Nat × WriteAct) := [
  (0x304, fun s t _ i v => s.mdioCmd t (ix i 0) v),
  (0x414, fun s _ _ _ v => s.engResets v),
  (0x41C, fun s _ _ _ v => s.onBit v 0 s.eclipseReq),
  (0x42C, fun s _ _ _ v => s.onBit v 0 s.kick),
  (0x10020, fun s _ _ i v => s.sxCfg (ix i 0) v),
  (0x10764, fun _ t _ i _ => t.wdStat (ix i 0)),
  (0x20018, fun _ t _ _ _ => t.scrubCfg),
  (0x10030, fun s _ _ i v =>
    let s := s.onBit v 0 (s.macReset (ix i 0))
    let s := s.onBit v 1 (s.pcsRst (ix i 0))
    s.onBit v 2 (s.anRestart (ix i 0))),
  (0x20008, fun _ t _ _ _ => t.freeFlags),
  (0x20010, fun _ t _ _ _ => t.freeFlags),
  (0x20204, fun s _ _ _ v => s.tplWrite (fun x => { x with valid := v.testBit 0, tl := fieldOf v 15 8 })),
  (0x20210, fun s _ _ i v => s.tplWrite (fun x => { x with mask := putWord x.mask (ix i 0) v })),
  (0x20280, fun s _ _ i v => s.tplWrite (fun x => { x with
    bytes := overwrite (sliceD x.bytes 0 128) (4 * ix i 0) (leBytes 4 v) })),
  (0x28020, fun s _ _ _ v => s.flowCfg v),
  (0x30908, fun s _ _ _ v => s.onBit v 0 s.tblStgGo),
  (0x30A04, fun s _ _ _ v => s.tblRdIdx v),
  (0x30B14, fun s _ _ _ v => s.cntClr (v % 1024)),
  (0x30D04, fun s _ _ _ v => s.onBit v 0 s.sketchClear),
  (0x30D0C, fun s _ _ _ v => s.sketchQry v),
  (0x200000, fun s _ _ _ v => { s with mas := { s.mas with hacLo := v } }),
  (0x200004, fun s _ _ i v => s.hacHi (ix i 0) v),
  (0x32008, fun s _ _ i v => s.onBit v 0 (s.wr (R.GEN_SEQ (ix i 0)) 0)),
  (0x33014, fun _ t _ i v => t.onBit v 17 (t.putAt (R.LAT_SUMMARY (ix i 0 / 32)) (ix i 0 % 32) false)),
  (0x3301C, fun s _ _ i v => s.onBit v 0 (s.takeAny (ix i 0)))]

/-- Actions of the owner's registers in chapters 11 to 15. -/
def ownerActsB : List (Nat × WriteAct) := [
  (0x50008, fun s _ _ _ v => s.hifFlrs v),
  (0x52008, fun s _ f i v => s.ringCfg f (ix i 0) v),
  (0x5200C, fun s _ f i v => s.onBit v 0 (s.ringCtrl f (ix i 0))),
  (0x52010, fun s _ f i v => s.doorbell f (ix i 0) (v % 2 ^ 16)),
  (0x60108, fun s t _ _ _ => s.tickStat t),
  (0x60210, fun s _ _ i v => (s.anchor (ix i 0)).wr (R.SLEW_PPB (ix i 0)) v),
  (0x60224, fun s _ _ i v => s.takeRate (ix i 0) v),
  (0x60234, fun s _ _ i v => s.tdAdj (ix i 0) v (s.bit (R.TD_ADJ_CTRL_MODE (ix i 0)))),
  (0x60248, fun _ t _ i v => t.tdCtrl (ix i 0) v),
  (0x60340, fun s _ _ _ v => s.utcCfg v),
  (0x60344, fun _ t _ _ _ => t.leapPassed),
  (0x60600, fun s t _ i _ => s.toutCfg t (ix i 0)),
  (0x60300, fun s _ _ _ v => s.onBit v 0 s.tuSnap),
  (0x60360, fun _ t _ _ v => t.onBit v 0 t.calGo),
  (0x60618, fun _ t _ i v => t.toutCtrl (ix i 0) v),
  (0x70004, fun s _ _ _ v => s.onBit v 0 s.dgeCtrlClear),
  (0x70108, fun s _ _ _ v => s.onBit v 0 s.keyGo),
  (0x70140, fun s _ _ i v => s.wr (R.KEY_DATA (ix i 0)) v),
  (0x70200, fun _ t _ _ v => t.sysCtrl v),
  (0x70208, fun s _ _ _ v => s.wr R.SYS_DATA_LO v),
  (0x7020C, fun s _ _ _ v => s.sysAppendNow (leBytes 4 (s.rd R.SYS_DATA_LO) ++ leBytes 4 v)),
  (0x70210, fun s _ _ _ v => s.sysTailNow (v % 8)),
  (0x78120, fun s t _ i v => if ix i 1 = 0 then t.jctrl (ix i 0) 0 v else s),
  (0x7812C, fun s _ _ i v => if ix i 1 = 0 then s.wr (R.JDATA_LO (ix i 0) 0) v else s),
  (0x78130, fun s _ _ i v => if ix i 1 = 0 then
    s.jobAppend (ix i 0) 0 (leBytes 4 (s.rd (R.JDATA_LO (ix i 0) 0)) ++ leBytes 4 v) else s),
  (0x78134, fun s _ _ i v => if ix i 1 = 0 then s.jobTail (ix i 0) 0 (v % 8) else s)]

/-- Actions of the owner's registers in chapters 16 to 18. -/
def ownerActsC : List (Nat × WriteAct) := [
  (0x80140, fun s _ _ i v => s.perSource (ix i 0) v State.pendWrite),
  (0x80180, fun s _ _ i v => s.perSource (ix i 0) v State.maskWrite),
  (0x80200, fun s _ _ i v => s.perSource (ix i 0) v State.eoiWrite),
  (0x80240, fun s t _ i _ => s.edges t ((List.range 32).map (256 + 32 * ix i 0 + ·))),
  (0x80300, fun s t _ i _ => s.slotState t (ix i 0)),
  (0x81000, fun s _ _ i v => if sourceOwner (ix i 0) = 16 then s.setSrc (ix i 0) { s.src (ix i 0) with vec := v } else s),
  (0x8200C, fun s t _ _ _ => s.edges t [239]),
  (0x82100, fun s t _ _ _ => s.teleCfg t),
  (0x82108, fun s t _ _ _ => s.edges t [241]),
  (0x82130, fun s _ _ _ v => s.tlrTail (v % 2 ^ 16)),
  (0x90000, fun s t _ _ v => s.pmCtrl t v),
  (0x94100, fun _ t _ i _ => { t with pm := { t.pm with rfBad := t.pm.rfBad.filter (fun w => w != ix i 0) } }),
  (0xA0004, fun s t f _ _ => s.unlessBusy t f),
  (0xA0008, fun s _ f _ v => s.onBit v 0 (s.mbxGo f)),
  (0xA0010, fun s _ f _ v => s.onBit v 0 (s.mbxPop f)),
  (0xA0100, fun s t f _ _ => s.unlessBusy t f),
  (0xA0800, fun _ t _ _ v => t.baudWrite (v % 8))]

/-- Actions of a tenant's registers. -/
def tenantActs : List (Nat × WriteAct) := [
  (0x1008, fun s _ f i v => s.ringCfg f (ix i 1) v),
  (0x100C, fun s _ f i v => s.onBit v 0 (s.ringCtrl f (ix i 1))),
  (0x1010, fun s _ f i v => s.doorbell f (ix i 1) (v % 2 ^ 16)),
  (0x6004, fun s _ f _ v => s.perTenant f v State.pendWrite),
  (0x6008, fun s _ f _ v => s.perTenant f v State.maskWrite),
  (0x6010, fun s _ f _ v => s.perTenant f v State.eoiWrite),
  (0x6040, fun s _ f i v => s.setSrc (tenantSource f (ix i 1)) { s.src (tenantSource f (ix i 1)) with vec := v }),
  (0x7004, fun s _ f _ v => s.elFlow f (v.testBit 0)),
  (0x8004, fun s t f _ _ => s.unlessBusy t f),
  (0x8008, fun s _ f _ v => s.onBit v 0 (s.mbxGo f)),
  (0x8010, fun s _ f _ v => s.onBit v 0 (s.mbxPop f)),
  (0x8100, fun s t f _ _ => s.unlessBusy t f)]

/-- Every register of the owner's BAR that acts when written, by its table's base offset. -/
def ownerActs : List (Nat × WriteAct) := ownerActsA ++ ownerActsB ++ ownerActsC

/-- Registers that J1 of a CRU shows the owner but does not let it write (R456). -/
def ownerMayWrite (d : RegDef) (i : List Nat) : Bool := !(decide (0x78100 ≤ d.base ∧ d.base < 0x78400) && ix i 1 == 1)

/-- A whole word is written to the register at an offset (R618). -/
def State.writeWord (s : State) (f : Func) (off : Nat) (d : RegDef) (i : List Nat) (v : Nat) : State :=
  let bar := if f.val < 16 then some f.val else none
  if f.val = 16 ∧ ownerMayWrite d i = false then s
  else
    let t := s.setFields (barBase bar) off d i v
    match (if f.val < 16 then tenantActs else ownerActs).find? (fun e => e.1 == d.base) with
    | some e => e.2 s t f i v
    | none => t

/-- A write to an offset of a function's BAR with its byte enables (R338, R611, R615, R618, R622, R624) (DEDUCED, DESIGN CHOICE, log entries 63, 72, 75). -/
def State.regWrite (s : State) (f : Func) (off be v : Nat) : State :=
  let s := if f.val = 16 then s.boundaryFirst else s
  let bar := if f.val < 16 then some f.val else none
  match barRegs bar off with
  | [] => if f.val = 16 ∧ ¬(0x100000 ≤ off ∧ off < 0x200000) then s.inc R.UNMAPPED_CNT else s
  | (d, i) :: _ =>
    if be ≠ 15 then s.rejectFor f off 6
    else
      match s.writeBad f off d i v with
      | some why => if why = 2 then (s.rejectFor f off why).put R.BCHK_STATUS_LOCKED true else s.rejectFor f off why
      | none => s.writeWord f off d i v

/-- A write of the host: to a function's configuration space, or to its BAR (R338, R345, R347). -/
def State.hostWrite (s : State) (f : Func) (off be v : Nat) : State :=
  if cfgBase ≤ off then s.cfgWrite f (off - cfgBase) be v else s.barRequest f (s.regWrite f off be v) s

/-! ### Staging writes with rows of their own -/

/-- TBL_STG_GO (R233, R622). -/
def execTblStgGo (s : State) : Host.Outcome State Fault Refusal :=
  let s := s.boundaryFirst
  .next (s.unlessReset 6 R.TBL_STG_CTRL_GO s.tblStgGo)

/-- HAC_HI_WRITE (R270, R622). -/
def execHacHiWrite (w : HacWord) (v : Dword) (s : State) : Host.Outcome State Fault Refusal := .next (s.boundaryFirst.hacHi w v.toNat)

/-- KEY_LOAD_GO (R444, R622). -/
def execKeyLoadGo (s : State) : Host.Outcome State Fault Refusal := .next s.boundaryFirst.keyGo

end Sys2Proof.Machine
end

