-- ==== Sys2Proof/Machine/Boot.lean ====
section
/-! DEFINITION. Starts and resets of the device (spec/19_startup_fuses_update.md R561 to R588), the reset pins and rail monitors
(spec/22_pins_and_electrical.md R635, R654), and the memory test (spec/23_test_and_service_life.md R667 to R669). -/

namespace Sys2Proof.Machine

/-! ### Fuse reads and the grade (R3, R559, R565, R566) -/

/-- A fuse word takes its safe default (R565). -/
def State.fuseDefaulted (s : State) (i : Nat) : State :=
  let s := if s.bit R.FUSE_STAT_FUSE_MARGINAL then s
    else (s.setLevel R.FUSE_STAT_FUSE_MARGINAL 247 s.bootLevel).wr R.FUSE_MARG_IDX i
  (if i < 32 then s.putAt R.FUSE_MARG_MAP_LO i true else s.putAt R.FUSE_MARG_MAP_HI (i - 32) true).log 0xA1 i

/-- One fuse word is read at both margins (R565). -/
def State.fuseRead (s : State) (x : Nat × Option Nat × Option Nat × Bool) : State :=
  let keep (a : Nat) : State := { s with boot := { s.boot with
    fuse := if a % 2 ^ 56 = 0 then mdel s.boot.fuse x.1 else mput s.boot.fuse x.1 (a % 2 ^ 56) } }
  if 64 ≤ x.1 then s
  else
    match x.2.1, x.2.2.1 with
    | some a, some b =>
      if a % 2 ^ 56 = b % 2 ^ 56 then (if x.2.2.2 then (keep a).put R.FUSE_STAT_CORR true else keep a)
      else (keep a).fuseDefaulted x.1
    | _, _ => s.fuseDefaulted x.1

/-- Step 4: the words in their order, then the grade and its limit (R559, R566). -/
def State.fuseReads (s : State) (l : List (Nat × Option Nat × Option Nat × Bool)) : State :=
  let s := (List.range 64).foldl (fun s i => match l.find? (fun x => x.1 == i) with
    | some x => s.fuseRead x
    | none => s) s
  let grade := s.fuse 0 % 16
  (s.wr R.DEV_ID (0x6416B000 + 16 * grade)).wr R.TJ_ALARM (if grade = 2 then 155 else 130)

/-! ### Memory test (R667, R668) -/

/-- The arrays with an unrepairable fault by their codes: those of the banks and the mirrors as masks, and whether the start halts. -/
def bankMask (l : List Nat) : Nat := (List.range 5).foldl (fun a k => setBitAt a k (l.contains (k + 1))) 0
def mirrorMask (l : List Nat) : Nat := (List.range 2).foldl (fun a k => setBitAt a k (l.contains (k + 6))) 0
def testHalts (l : List Nat) : Bool :=
  decide (1 < ((List.range 5).filter (fun k => l.contains (k + 1))).length) || (l.contains 6 && l.contains 7)
    || l.any (fun c => decide (8 ≤ c))

/-- Step 6: MBIST_RESULT, and the banks and the mirror that are out of service (DESIGN CHOICE, log entry 70). -/
def State.memoryTest (s : State) (failed : List Nat) (soft : Nat) : State :=
  let l := failed.filter (fun c => decide (1 ≤ c ∧ c < 32))
  let n := ((List.range 32).filter (fun c => l.contains c)).length
  let r := 1 + (if l = [] then 2 else 0) + (if testHalts l then 4 else 0) + (if soft ≠ 0 then 8 else 0) + 16 * min n 15
    + 2 ^ 8 * l.headD 0 + 2 ^ 13 * bankMask l + 2 ^ 18 * mirrorMask l + 2 ^ 24 * min soft 255
  let s : State := { s with pins := { s.pins with mbist := r } }
  if testHalts l then s
  else
    let s := if bankMask l = 0 then s else s.wr R.BUF_STAT_BANK_FAIL (bankMask l)
    let one (s : State) (f : Fld) (b : Nat) : State :=
      if (mirrorMask l).testBit b then (s.put f true).put R.LED_STAT_DEGRADED true else s
    one (one s R.LED_STAT_M0_FAIL 0) R.LED_STAT_M1_FAIL 1

/-! ### The retention pool (R28, R111, R112) -/

/-- After a device reset each flow restarts at its retained mark, or, where the pool fails its check, at 0; `ok` says that the pool
still holds what was last written to it. -/
def State.retention (s : State) (ok : Bool) : State :=
  if ok ∧ s.led.retCrc = poolCrc s.led.retention then
    let l := s.led.retention.map (fun x => (x.1, (⟨x.2, x.2, 31, false, false, false, 0, 0, 0⟩ : FlowRec)))
    { s.put R.LED_STAT_RET_VALID true with led := { s.led with flows := l } }
  else { s with led := { s.led with retention := [], retCrc := retZero } }

/-! ### Step 7: the serial NOR device (R570) -/

/-- QSPI_MAX of fuse word 1, in MHz (R566). -/
def State.qspiMax (s : State) : Nat := ([25, 50, 100, 25] : List Nat).getD (s.fuse 1 / 4 % 4) 25

/-- The bus clocks before the first data of a read on four lines: opcode, address and dummy cycles (DESIGN CHOICE, log entry 70). -/
def readClocks (quadAddr : Bool) (addr dummy : Nat) : Nat := 8 + (if quadAddr then 2 else 8) * addr + dummy

/-- The access that the parameters of a device give: the faster of its reads on four lines, and 4-byte addresses above 16 MiB; a device
that states no such read is read in single-line mode (DESIGN CHOICE, log entry 70). -/
def norMode (d : Sfdp) (mhz : Nat) : NorMode :=
  let addr := if 2 ^ 24 < d.size then 4 else 3
  let quad (io : Bool) (r : Nat × Nat) : NorMode := ⟨r.1, io, true, r.2, min mhz d.mhz, addr, some d.enable, d.page, d.erase, d.program, d.poll⟩
  match d.quadOut, d.quadIo with
  | some o, some i => if readClocks true addr i.2 < readClocks false addr o.2 then quad true i else quad false o
  | some o, none => quad false o
  | none, some i => quad true i
  | none, none => ⟨0x03, false, false, 0, 25, addr, none, d.page, d.erase, d.program, d.poll⟩

/-- The boot ROM reads the SFDP and selects the access (R570). -/
def State.norSelect (s : State) (d : Option Sfdp) : State :=
  let s := s.emit (.nor 0x5A 0 [])
  { s with boot := { s.boot with nor := match d with
      | some d => norMode d s.qspiMax
      | none => NorMode.plain } }

/-! ### The slot to boot (R579, R580, R585, R586) -/

/-- What the boot ROM chose: the slot, whether as a trial, and whether by fallback. -/
structure Chosen where
  slot : Nat
  trial : Bool
  fallback : Bool
  deriving DecidableEq, Repr

/-- The image of a slot can be read and is valid (R571, R575). -/
def State.bootable (s : State) (bad : List (Fin 4)) (k : Nat) : Bool :=
  !bad.any (fun b => b.val == 2 + k) && s.imageValid (s.slot k)

/-- The ACTIVE slot, or the other slot by fallback (R579 items 3 and 4). -/
def State.chooseActive (s : State) (st : StartInputs) : Option Chosen × State :=
  match s.jnl.slotIn 4 with
  | none => (none, s)
  | some k =>
    if s.bootable st.norBad k then (some ⟨k, false, false⟩, s)
    else
      let s := s.jnlWrite st.journalOk (s.jnl.set k 5)
      if s.jnl.get (1 - k) = 2 ∧ s.bootable st.norBad (1 - k) then
        (some ⟨1 - k, false, true⟩, s.jnlWrite st.journalOk (s.jnl.set (1 - k) 4))
      else (none, s)

/-- Step 8: the slot to boot (R579). -/
def State.chooseSlot (s : State) (st : StartInputs) : Option Chosen × State :=
  match s.jnl.slotIn 3 with
  | none => s.chooseActive st
  | some k =>
    if s.jnl.trials = 3 then (s.jnlWrite st.journalOk { s.jnl.set k 5 with trials := 0 }).chooseActive st
    else
      let s := s.jnlWrite st.journalOk { s.jnl with trials := s.jnl.trials + 1 }
      if s.bootable st.norBad k then (some ⟨k, true, false⟩, s)
      else (s.jnlWrite st.journalOk (s.jnl.set k 5)).chooseActive st

/-- The boot entry of the event log (R580) (DEDUCED, log entry 79). -/
def State.logBoot (s : State) (c : Option Chosen) : State :=
  let b (x : Bool) (n : Nat) : Nat := if x then n else 0
  match c with
  | some c => s.log 0xA0 (c.slot + b c.trial 2 + 4 * s.rd R.UPD_STATE_TRIALS + b c.fallback 32)
  | none => s.log 0xA0 (4 * s.rd R.UPD_STATE_TRIALS + 16)

/-- The boot ROM enters recovery (R582, R669) (DEDUCED, log entry 79). -/
def State.recover (s : State) (ph : StartPhase) : State :=
  let s := (s.setLevel R.BOOT_STAT_RECOVERY 247 s.bootLevel).logBoot none
  { s with boot := { s.boot with phase := ph } }

/-- The fused security version follows the ACTIVE image at a start (R586). -/
def State.raiseAtStart (s : State) (marginal : Nat) : State :=
  match s.jnl.slotIn 4 with
  | some k => if s.fusedSv < imageSv (s.slot k) then s.raiseSv (imageSv (s.slot k)) marginal else s
  | none => s

/-! ### The first configuration (R587, R588) -/

/-- The records of an image's CONFIG segment (DEDUCED, log entry 79). -/
def configRecords (l : List Byte) : List (Nat × Nat) :=
  match (segments l).find? (fun g => g.kind == 3) with
  | some g => (List.range (g.len / 8)).map (fun k => (norNat l (g.off + 8 * k) 4, norNat l (g.off + 8 * k + 4) 4))
  | none => []

/-- A record may write this offset. -/
def configAllows (off : Nat) : Bool :=
  decide (off < 0x400000 ∧ off % 4 = 0) && !decide (0xA0000 ≤ off ∧ off < 0xB0000) && off != 0x90000

/-- A write by MGC to the owner's BAR, and the cause for which it was discarded (R518, R624). -/
def State.ownerWrite (s : State) (off v : Nat) : Option Nat × State :=
  let n := s.rd R.CFG_REJECT_CNT
  let t := (s.wr R.CFG_REJECT_CNT 0).regWrite 16 off 15 v
  if t.rd R.CFG_REJECT_CNT = 0 then (none, t.wr R.CFG_REJECT_CNT n)
  else (some (t.rd R.REJ_STAT_WHY), (t.wr R.CFG_REJECT_CNT n).inc R.CFG_REJECT_CNT)

/-- A W1S bit of a register that v sets still reads 1. -/
def State.w1sLeft (s : State) (off v : Nat) : Bool :=
  match barRegs none off with
  | [] => false
  | (d, i) :: _ => d.fields.any (fun x => x.acc == .w1s && s.fieldAt .mgc off d i x &&& x.of v != 0)

/-- The records are done: MGC compares the digests and issues a plain commit (R587) (DEDUCED, log entry 79). -/
def State.configEnd (s : State) : State :=
  let s : State := { s with boot := { s.boot with cfg := [] } }
  if s.boot.cfgSame then { s with tick := { s.tick with checks := s.tick.checks ++ [.boot] } } else s.configFail 0xFFFFFF

/-- The records that are left are applied in order, up to one that waits for a W1S bit (DEDUCED, log entry 79). -/
def State.configRun (s : State) : List (Nat × Nat) → State
  | [] => s.configEnd
  | (off, v) :: t =>
    let k := s.boot.cfgIdx
    let w := s.ownerWrite off v
    if configAllows off = false then s.configFail k
    else if w.1.isSome then w.2.configFail k
    else
      let s := w.2
      let s : State := { s with boot := { s.boot with cfgIdx := k + 1 } }
      if s.boot.phase ≠ .config then s
      else if s.w1sLeft off v then { s with boot := { s.boot with cfg := t, cfgWait := some (off, v, s.now) } }
      else s.configRun t

/-- A waiting first configuration goes on once its bits read 0, and fails after 1 ms (DESIGN CHOICE, log entry 3). -/
def State.configWait (s : State) : State :=
  match s.boot.cfgWait with
  | none => s
  | some (off, v, since) =>
    if s.w1sLeft off v then
      if since + 1000000 * unitsPerNs ≤ s.now then s.configFail (s.boot.cfgIdx - 1) else s
    else { s with boot := { s.boot with cfgWait := none } }.configRun s.boot.cfg

/-- On an empty queue one core cycle passes, and a waiting first configuration goes on (DESIGN CHOICE, log entry 3). -/
def State.pass (s : State) : State := s.idle.configWait

/-! ### A start (R561, R562) -/

/-- The chosen image runs: its segments are loaded and its identity shows, MGC starts, and the first configuration begins (R580, R586, R587). -/
def State.runImage (s : State) (st : StartInputs) (c : Chosen) : State :=
  let img := s.slot c.slot
  let s := ((s.wr R.BOOT_STAT_SLOT c.slot).put R.BOOT_STAT_TRIAL c.trial).put R.BOOT_STAT_FALLBACK c.fallback
  let s := ((s.wr R.IMG_VER (norNat img 16 4)).wr R.IMG_SV (imageSv img)).logBoot (some c)
  let s := s.raiseAtStart st.marginal
  let s : State := { s with
    ladder := { s.ladder with kickAt := s.now }
    boot := { s.boot with phase := .config, cfgIdx := 0, cfgSame := st.cfgSame, sram := mgcSegments img } }
  s.configRun (configRecords img)

/-- The journal as the boot ROM reads it (R578). -/
def State.readJournal (s : State) (bad : List (Fin 4)) : State :=
  match latest (s.jnlEntries bad) with
  | some x => (s.showJnl x.2).wr R.JNL_SEQ x.2.seq
  | none => s

/-- Steps 4 to 7 of a start: what the serial NOR device holds now, the fuses, the memory test, and the retention pool after a device
reset, which `dev` tells from a power-on and a wake (DESIGN CHOICE, log entry 70). -/
def State.startReads (s : State) (dev : Bool) (st : StartInputs) : State :=
  let s : State := match st.nor with
    | some n => { s with boot := { s.boot with j0 := n.1, j1 := n.2.1, slotA := n.2.2.1, slotB := n.2.2.2 } }
    | none => s
  let s : State := { s with hif := { s.hif with perstAt := if s.pm.perstLow then none else some s.now } }
  let s : State := { s with pm := { s.pm with rfBad := s.pm.rfBad ++ st.rfBad.map (·.val) } }
  let s := match s.pm.wakeDue with
    | some src => { s with pm := { s.pm with wakeDue := none } }.log 0x92 src
    | none => s
  let s := (s.fuseReads st.fuses).memoryTest st.failed st.soft
  let s := if dev then s.retention st.retentionOk else s
  ((s.put R.BOOT_STAT_UNSECURED (!s.secure)).wr R.FUSED_SV s.fusedSv).norSelect st.sfdp

/-- The device starts from step 4 (R561, R579, R582, R669) (DEDUCED, DESIGN CHOICE, log entries 70, 76, 77). -/
def State.start (s : State) (dev : Bool) (st : StartInputs) : State :=
  let s := s.startReads dev st
  if s.pins.mbist.testBit 2 then s.recover .halted
  else
    match (s.readJournal st.norBad).chooseSlot st with
    | (some c, s) => s.runImage st c
    | (none, s) => s.recover .ended

/-- A start that is due begins unless something holds it: PORST_N, SYSRST_N or a test instruction, a rail, or Night (R562, R636,
R654, R662) (DESIGN CHOICE, log entry 76). -/
def State.tryStart (s : State) (st : StartInputs) : State :=
  if s.pins.porst ∨ s.pins.sysrst ∨ s.testHeld ∨ s.pm.phase = .night then s
  else
    match s.boot.phase with
    | .waiting => if s.pins.low = [] then { s with base0 := s.now }.start false st else s
    | .held =>
      if s.pins.low.contains .aon ∨ s.pins.low.contains .core ∨ s.pins.low.contains .sram then s else s.start true st
    | _ => s

/-! ### Resets (R109, R554, R564, R627) -/

/-- A device reset stops every engine; in-flight work is lost. AON, the retention pool and ECL_CAUSE with its tick are kept; the start
that follows is held until `tryStart` lets it run (DEDUCED, log entry 78). -/
def State.stopDevice (s : State) : State :=
  let t := s.loseCore
  let t : State := { t with
    pm := { Pm.reset with perstLow := s.pm.perstLow, rfBad := s.pm.rfBad }
    led := { Led.reset with retention := s.led.retention, retCrc := s.led.retCrc }
    ladder := { Ladder.reset with keepEcl := true }
    boot := { t.boot with phase := .held } }
  ((t.wr R.ECL_CAUSE (s.rd R.ECL_CAUSE)).wr R.ECL_TICK_LO (s.rd R.ECL_TICK_LO)).wr R.ECL_TICK_HI (s.rd R.ECL_TICK_HI)

/-- A device reset and the start that follows it (R561) (DEDUCED, log entry 78). -/
def State.deviceReset (s : State) (st : StartInputs) : State := s.stopDevice.tryStart st

/-- PORST_N, or AON below its threshold: everything is reset, AON too; the TAP is in Test-Logic-Reset (R554, R635, R654, R660) (DEDUCED, log entries 78, 94). -/
def State.aonReset (s : State) : State := { s.blank with pins := { s.pins with tapIr := 2 } }

/-- POWER_ON (R561, R562, R636): PORST_N is deasserted (DESIGN CHOICE, log entry 70). -/
def execPowerOn (st : StartInputs) (s : State) : Host.Outcome State Fault Refusal :=
  if s.pins.porst = false ∧ s.boot.phase ≠ .none ∨ s.pm.phase = .night then .next s
  else
    let s : State := { s with pins := { s.pins with porst := false }, boot := { s.boot with phase := .waiting } }
    .next (s.tryStart st)

/-- DEVICE_RESET (R564, R654, R663): SYSRST_N acts (`pin`), or the reset that `reset device` asked for begins (DEDUCED, log entry 82). -/
def execDeviceReset (pin : Bool) (st : StartInputs) (s : State) : Host.Outcome State Fault Refusal :=
  if pin then
    let t : State := { s with pins := { s.pins with sysrst := true } }
    if s.pm.phase = .night ∨ s.pins.porst ∨ s.testHeld ∨ s.boot.phase = .none ∨ s.boot.phase = .waiting then .next t
    else .next t.stopDevice
  else
    match s.boot.resetDue with
    | some t => .next ((s.upTo t).deviceReset st)
    | none => .next s

/-- SYSRST_DEASSERT (R654). -/
def execSysrstDeassert (st : StartInputs) (s : State) : Host.Outcome State Fault Refusal :=
  .next ({ s with pins := { s.pins with sysrst := false } }.tryStart st)

/-- PORST_ASSERT (R554, R654). -/
def execPorstAssert (s : State) : Host.Outcome State Fault Refusal :=
  .next ({ s with pins := { s.pins with porst := true } }.aonReset)

/-- TRIAL_TIMER_EXPIRE (R583): TRIAL_S seconds have passed since READY (DEDUCED, log entry 82). -/
def execTrialTimerExpire (st : StartInputs) (s : State) : Host.Outcome State Fault Refusal :=
  match s.boot.trialEnd with
  | some t => if s.mgcStopped then .next s else .next (((s.upTo t).log 0xA5 0).deviceReset st)
  | none => .next s

/-- NIGHT_RAILS_GOOD (R549, R638): after a wake in Night every monitor has read good for 1 ms. -/
def execNightRailsGood (st : StartInputs) (s : State) : Host.Outcome State Fault Refusal :=
  if s.pm.phase = .night ∧ s.pm.wakeDue ≠ none ∧ s.pins.low = [] then
    let s : State := { s with pm := { s.pm with phase := .settled }, boot := { s.boot with phase := .waiting } }
    .next (s.tryStart st)
  else .next s

/-! ### Rail monitors (R635) -/

/-- The core runs: a start has begun, and CORE is not gated. -/
def State.coreRuns (s : State) : Bool := s.boot.phase != .none && s.boot.phase != .waiting && s.boot.phase != .held && s.pm.phase != .night

/-- The rails that the TAP needs (R660) (DEDUCED, log entry 80). -/
def tapRail (r : Rail) : Bool := r == .aon || r == .ioA || r == .core || r == .sram

/-- What follows from a rail below its threshold (DEDUCED, DESIGN CHOICE, log entries 76, 80). -/
def State.railEffect (s : State) (r : Rail) : State :=
  match r with
  | .aon => s.aonReset
  | .core | .sram => if s.coreRuns then s.dgeClear 4 else s
  | .asx | .hsx =>
    if s.coreRuns then ((List.range 6).foldl (fun s p => s.beginReset p) s.resetFunctions).linkDown else s
  | .ioA => { s with pins := { s.pins with io33 := setBitAt s.pins.io33 0 false } }
  | .ioB => { s with pins := { s.pins with io33 := setBitAt s.pins.io33 1 false } }

/-- RAIL_MONITOR_LOW (R633, R635, R660) (DEDUCED, log entry 80). -/
def execRailMonitorLow (r : Rail) (s : State) : Host.Outcome State Fault Refusal :=
  if s.pins.low.contains r then .next s
  else
    let s : State := { s with pins := { s.pins with low := s.pins.low ++ [r], tapIr := if tapRail r then 2 else s.pins.tapIr } }
    .next (s.railEffect r)

/-- RAIL_MONITOR_GOOD (R633, R635, R636): an I/O bank selects its levels; a start that waits for the rail begins (DEDUCED, log entry 80). -/
def execRailMonitorGood (r : Rail) (volts33 : Bool) (st : StartInputs) (s : State) : Host.Outcome State Fault Refusal :=
  if s.pins.low.contains r = false then .next s
  else
    let v := match r with
      | .ioA => setBitAt s.pins.io33 0 volts33
      | .ioB => setBitAt s.pins.io33 1 volts33
      | _ => s.pins.io33
    let s : State := { s with pins := { s.pins with low := s.pins.low.filter (fun x => x != r), io33 := v } }
    let s : State := if r = .aon ∧ s.pins.porst = false then { s with boot := { s.boot with phase := .waiting } } else s
    .next (s.tryStart st)

end Sys2Proof.Machine
end

