-- ==== Sys2Proof/Machine/Access.lean ====
section
/-! DEFINITION. Accesses to the blocks of HIF and IRC (spec/21_register_map.md R625): they wait while their engine resets, and take effect
in their order once the reset is complete. -/

namespace Sys2Proof.Machine

/-- The engine, 8 HIF or 15 IRC, in whose block an offset of a function's BAR lies (R610) (DEDUCED, log entry 64). -/
def heldBlock (owner : Bool) (off : Nat) : Option Nat :=
  if owner then
    if 0x50000 ≤ off ∧ off < 0x54000 then some 8 else if 0x80000 ≤ off ∧ off < 0x82300 then some 15 else none
  else if (0x1000 ≤ off ∧ off < 0x2000) ∨ (0x7000 ≤ off ∧ off < 0x8000) then some 8
  else if 0x6000 ≤ off ∧ off < 0x7000 then some 15
  else none

/-- The engine, HIF or IRC, to whose block an access goes (R625) (DEDUCED, log entry 64). -/
def Access.block (c : Access) : Option Nat :=
  match c with
  | .doorbell _ _ _ | .ringEnable _ _ _ | .ringReset _ _ | .hifFlr _ | .elFlow _ _ => some 8
  | .eoi _ | .pend _ | .count _ _ | .log _ | .tele _ | .tlrTail _ => some 15
  | .write f off _ _ => heldBlock (f.val == 16) off
  | .read rd off _ => heldBlock (readerBar rd).isNone off

/-- What an access does. -/
def State.applyAccess (s : State) (c : Access) : State :=
  match c with
  | .doorbell f r v => s.ringAccess f r (s.doorbell f r v.toNat)
  | .ringEnable f r v => s.ringAccess f r (s.ringCfg f r v.toNat)
  | .ringReset f r => s.ringAccess f r (s.ringCtrl f r)
  | .hifFlr f => s.hifFlr f
  | .elFlow n en => s.barRequest n (s.elFlow n en) s
  | .eoi src => s.endOfInt src
  | .pend src => s.pendWrite src true
  | .count rd src => s.irqCount rd src
  | .log rd => s.ownerAnswer rd R.EVLOG_LO.off (s.logRead rd)
  | .tele rd => s.ownerAnswer rd (R.TELE_D 0).off (s.teleRead rd)
  | .tlrTail v => s.tlrTail v.toNat
  | .write f off be v => s.hostWrite f (off / 4 * 4) be.toNat v.toNat
  | .read rd off be => s.readBy rd (off / 4 * 4) be.toNat

/-- The engine of an access resets now (R625). -/
def State.accessHeld (s : State) (c : Access) : Bool := c.block.any (fun e => s.bitAt R.ENG_RST_STAT e)

/-- An access takes effect, or waits for the end of its engine's reset (R625) (DEDUCED, log entry 64). -/
def State.access (s : State) (c : Access) : State :=
  if s.accessHeld c then { s with hif := { s.hif with heldAcc := s.hif.heldAcc ++ [c] } } else s.applyAccess c

/-- The accesses that waited for an engine take effect, in their order (R625) (DEDUCED, log entry 64). -/
def State.applyHeld (s : State) (e : Nat) : State :=
  let l := s.hif.heldAcc.filter (fun c => c.block == some e)
  let s : State := { s with hif := { s.hif with heldAcc := s.hif.heldAcc.filter (fun c => c.block != some e) } }
  l.foldl State.access s

/-- ENGINE_RESET_DONE (R592, R593, R625). -/
def execEngineResetDone (e : Engine) (s : State) : Host.Outcome State Fault Refusal :=
  let t := s.resetDone e
  .next (if t.bitAt R.ENG_RST_STAT e then t else t.applyHeld e)

/-- DOORBELL (R353, R356, R357). -/
def execDoorbell (f : Func) (r : AnyRing) (v : BitVec 16) (s : State) : Host.Outcome State Fault Refusal := .next (s.access (.doorbell f r v))

/-- RING_ENABLE (R340, R353, R354, R368): a write of RING_CFG. -/
def execRingEnable (f : Func) (r : AnyRing) (v : Dword) (s : State) : Host.Outcome State Fault Refusal := .next (s.access (.ringEnable f r v))

/-- RING_RESET (R354, R355): a write of 1 to RING_CTRL.RESET. -/
def execRingReset (f : Func) (r : AnyRing) (s : State) : Host.Outcome State Fault Refusal := .next (s.access (.ringReset f r))

/-- HIF_FLR (R342): the owner resets a function. -/
def execHifFlr (f : Func) (s : State) : Host.Outcome State Fault Refusal := .next (s.access (.hifFlr f))

/-- EL_FLOW_WRITE (R382). -/
def execElFlowWrite (n : Tenant) (en : Bool) (s : State) : Host.Outcome State Fault Refusal := .next (s.access (.elFlow n en))

/-- EOI (R465). -/
def execEoi (src : IrqSource) (s : State) : Host.Outcome State Fault Refusal := .next (s.access (.eoi src))

/-- PEND_WRITE (R463): software writes 1. -/
def execPendWrite (src : IrqSource) (s : State) : Host.Outcome State Fault Refusal := .next (s.access (.pend src))

/-- IRQ_CNT_READ (R462). -/
def execIrqCntRead (rd : Reader) (src : IrqSource) (s : State) : Host.Outcome State Fault Refusal := .next (s.access (.count rd src))

/-- EVLOG_LO_READ (R482). -/
def execEvlogLoRead (rd : Reader) (s : State) : Host.Outcome State Fault Refusal := .next (s.access (.log rd))

/-- TELE_D_0_READ (R486). -/
def execTeleD0Read (rd : Reader) (s : State) : Host.Outcome State Fault Refusal := .next (s.access (.tele rd))

/-- TLR_TAIL_WRITE (R487). -/
def execTlrTailWrite (v : BitVec 16) (s : State) : Host.Outcome State Fault Refusal := .next (s.access (.tlrTail v))

/-- Accesses of one request: one for each dword, in their order, each in its own core cycle (R615) (DEDUCED, log entry 64). -/
def State.accesses (s : State) : List Access → State
  | [] => s
  | c :: t => ((s.upTo (s.now + s.cycle)).access c).accesses t

/-- A request of more than 16 dwords is logged in the function's AER registers and accesses nothing (R615). -/
def State.requestTooLong (s : State) (f : Nat) : State := s.barRequest f (s.aerLog f 2) s

/-- REGISTER_WRITE (R615, R618, R623 to R625): a request that writes a dword at an offset of a function's BAR and the dwords of `more`
after it, each with its byte enables. -/
def execRegisterWrite (f : Func) (off : Nat) (be : BitVec 4) (v : Dword) (more : List (BitVec 4 × Dword)) (s : State) :
    Host.Outcome State Fault Refusal :=
  if 16 ≤ more.length then .next (s.requestTooLong f)
  else .next ((s.access (.write f off be v)).accesses (more.mapIdx (fun k x => .write f (off + 4 * k + 4) x.1 x.2)))

/-- RC_FIELD_READ (R615, R620): a request that reads a register at an offset of the reader's BAR, whose RC fields clear, and the dwords
of `more` after it, each with its byte enables. -/
def execRcFieldRead (rd : Reader) (off : Nat) (be : BitVec 4) (more : List (BitVec 4)) (s : State) : Host.Outcome State Fault Refusal :=
  if 16 ≤ more.length then
    .next (match rd with
      | .mgc => s
      | .owner => (s.requestTooLong 16).emit (.config 16 .aborted)
      | .tenant n => (s.requestTooLong n).emit (.config n .aborted))
  else .next ((s.access (.read rd off be)).accesses (more.mapIdx (fun k x => .read rd (off + 4 * k + 4) x)))

end Sys2Proof.Machine
end

