-- ==== Sys2Proof/Machine/HacRows.lean ====
section
/-! DEFINITION. The commands of spec/08_henabin_action_code.md (R251): each issues in a lane context whose next word is that
instruction. -/

namespace Sys2Proof.Machine

/-- What follows an instruction in a place: a management candidate whose classification has closed for others than MGC alone takes
no more cells (R115); a resolution that has ended is recorded, one that waits is parked. -/
def State.settleAt (s : State) (a : HacAt) : State :=
  match a with
  | .cls a => s.mgmtOnly a
  | .res l => s.settle l

/-- An instruction with opcode `op` issues in the context of a place, where that context runs, its next word is that instruction and it
is the one from which its lane issues (R207); elsewhere nothing happens. The end of a resolution records its outcome (R102) (DESIGN CHOICE, log entry 7). -/
def State.hacRow (s : State) (op : Nat) (eff : List Byte → State → Ctx → Ins → HacRes) (a : HacAt) (f1 f2 : BitVec 4)
    (f3 f4 : BitVec 8) (imm : BitVec 32) : State :=
  let w := hacEncode op f1 f2 f3 f4 imm
  match s.ctxAt a with
  | some (c, b) =>
    if c.fin = .running ∧ s.issues a ∧ s.hacWord c.pc = w then
      let (s, c) := issue (eff b) s c (insOf w)
      (s.setCtx a c).settleAt a
    else s
  | none => s

/-! ### The commands of chapter 8 -/

/-- END (R251). -/
def execHacEnd (a : HacAt) (f1 f2 : BitVec 4) (f3 f4 : BitVec 8) (imm : BitVec 32) (s : State) :
    Host.Outcome State Fault Refusal := .next (s.hacRow 0x01 (fun _ => opEnd) a f1 f2 f3 f4 imm)

/-- CLOSE (R251). -/
def execHacClose (a : HacAt) (f1 f2 : BitVec 4) (f3 f4 : BitVec 8) (imm : BitVec 32) (s : State) :
    Host.Outcome State Fault Refusal := .next (s.hacRow 0x02 (fun _ => opClose) a f1 f2 f3 f4 imm)

/-- TRAP (R249, R250, R265): the instruction 0x03, or a word with an undefined opcode, which executes as TRAP with
UNDEF_OP (R243) (DESIGN CHOICE, log entry 7). -/
def execHacTrap (a : HacAt) (f1 f2 : BitVec 4) (f3 f4 : BitVec 8) (imm : BitVec 32) (s : State) :
    Host.Outcome State Fault Refusal :=
  match s.ctxAt a with
  | some (c, _) =>
    if c.fin = .running ∧ s.issues a ∧ (opInfo (insOf (s.hacWord c.pc)).op).isNone = true then
      let (s, c) := issue opTrap s c (insOf (s.hacWord c.pc))
      .next ((s.setCtx a c).settleAt a)
    else .next (s.hacRow 0x03 (fun _ => opTrap) a f1 f2 f3 f4 imm)
  | none => .next s

/-- BR (R251). -/
def execHacBr (a : HacAt) (f1 f2 : BitVec 4) (f3 f4 : BitVec 8) (imm : BitVec 32) (s : State) :
    Host.Outcome State Fault Refusal := .next (s.hacRow 0x04 (fun _ => opBr) a f1 f2 f3 f4 imm)

/-- LDI (R251). -/
def execHacLdi (a : HacAt) (f1 f2 : BitVec 4) (f3 f4 : BitVec 8) (imm : BitVec 32) (s : State) :
    Host.Outcome State Fault Refusal := .next (s.hacRow 0x10 (fun _ => opLdi) a f1 f2 f3 f4 imm)

/-- LDIH (R251). -/
def execHacLdih (a : HacAt) (f1 f2 : BitVec 4) (f3 f4 : BitVec 8) (imm : BitVec 32) (s : State) :
    Host.Outcome State Fault Refusal := .next (s.hacRow 0x11 (fun _ => opLdih) a f1 f2 f3 f4 imm)

/-- LDB (R251). -/
def execHacLdb (a : HacAt) (f1 f2 : BitVec 4) (f3 f4 : BitVec 8) (imm : BitVec 32) (s : State) :
    Host.Outcome State Fault Refusal := .next (s.hacRow 0x12 (fun _ => opLdb) a f1 f2 f3 f4 imm)

/-- STB (R251). -/
def execHacStb (a : HacAt) (f1 f2 : BitVec 4) (f3 f4 : BitVec 8) (imm : BitVec 32) (s : State) :
    Host.Outcome State Fault Refusal := .next (s.hacRow 0x13 (fun _ => opStb) a f1 f2 f3 f4 imm)

/-- MOVB (R251). -/
def execHacMovb (a : HacAt) (f1 f2 : BitVec 4) (f3 f4 : BitVec 8) (imm : BitVec 32) (s : State) :
    Host.Outcome State Fault Refusal := .next (s.hacRow 0x14 (fun _ => opMovb) a f1 f2 f3 f4 imm)

/-- CMPB (R251). -/
def execHacCmpb (a : HacAt) (f1 f2 : BitVec 4) (f3 f4 : BitVec 8) (imm : BitVec 32) (s : State) :
    Host.Outcome State Fault Refusal := .next (s.hacRow 0x15 (fun _ => opCmpb) a f1 f2 f3 f4 imm)

/-- ADD (R251). -/
def execHacAdd (a : HacAt) (f1 f2 : BitVec 4) (f3 f4 : BitVec 8) (imm : BitVec 32) (s : State) :
    Host.Outcome State Fault Refusal := .next (s.hacRow 0x20 (fun _ => opAdd) a f1 f2 f3 f4 imm)

/-- SUB (R251). -/
def execHacSub (a : HacAt) (f1 f2 : BitVec 4) (f3 f4 : BitVec 8) (imm : BitVec 32) (s : State) :
    Host.Outcome State Fault Refusal := .next (s.hacRow 0x21 (fun _ => opSub) a f1 f2 f3 f4 imm)

/-- AND (R251). -/
def execHacAnd (a : HacAt) (f1 f2 : BitVec 4) (f3 f4 : BitVec 8) (imm : BitVec 32) (s : State) :
    Host.Outcome State Fault Refusal := .next (s.hacRow 0x22 (fun _ => opAnd) a f1 f2 f3 f4 imm)

/-- OR (R251). -/
def execHacOr (a : HacAt) (f1 f2 : BitVec 4) (f3 f4 : BitVec 8) (imm : BitVec 32) (s : State) :
    Host.Outcome State Fault Refusal := .next (s.hacRow 0x23 (fun _ => opOr) a f1 f2 f3 f4 imm)

/-- XOR (R251). -/
def execHacXor (a : HacAt) (f1 f2 : BitVec 4) (f3 f4 : BitVec 8) (imm : BitVec 32) (s : State) :
    Host.Outcome State Fault Refusal := .next (s.hacRow 0x24 (fun _ => opXor) a f1 f2 f3 f4 imm)

/-- SHL (R251). -/
def execHacShl (a : HacAt) (f1 f2 : BitVec 4) (f3 f4 : BitVec 8) (imm : BitVec 32) (s : State) :
    Host.Outcome State Fault Refusal := .next (s.hacRow 0x25 (fun _ => opShl) a f1 f2 f3 f4 imm)

/-- SHR (R251). -/
def execHacShr (a : HacAt) (f1 f2 : BitVec 4) (f3 f4 : BitVec 8) (imm : BitVec 32) (s : State) :
    Host.Outcome State Fault Refusal := .next (s.hacRow 0x26 (fun _ => opShr) a f1 f2 f3 f4 imm)

/-- CMP (R251). -/
def execHacCmp (a : HacAt) (f1 f2 : BitVec 4) (f3 f4 : BitVec 8) (imm : BitVec 32) (s : State) :
    Host.Outcome State Fault Refusal := .next (s.hacRow 0x27 (fun _ => opCmp) a f1 f2 f3 f4 imm)

/-- MOV (R251). -/
def execHacMov (a : HacAt) (f1 f2 : BitVec 4) (f3 f4 : BitVec 8) (imm : BitVec 32) (s : State) :
    Host.Outcome State Fault Refusal := .next (s.hacRow 0x28 (fun _ => opMov) a f1 f2 f3 f4 imm)

/-- LKX (R251). -/
def execHacLkx (a : HacAt) (f1 f2 : BitVec 4) (f3 f4 : BitVec 8) (imm : BitVec 32) (s : State) :
    Host.Outcome State Fault Refusal := .next (s.hacRow 0x30 (fun _ => opLkx) a f1 f2 f3 f4 imm)

/-- LKT (R251). -/
def execHacLkt (a : HacAt) (f1 f2 : BitVec 4) (f3 f4 : BitVec 8) (imm : BitVec 32) (s : State) :
    Host.Outcome State Fault Refusal := .next (s.hacRow 0x31 (fun _ => opLkt) a f1 f2 f3 f4 imm)

/-- SPC (R251). -/
def execHacSpc (a : HacAt) (f1 f2 : BitVec 4) (f3 f4 : BitVec 8) (imm : BitVec 32) (s : State) :
    Host.Outcome State Fault Refusal := .next (s.hacRow 0x32 (fun _ => opSpc) a f1 f2 f3 f4 imm)

/-- FLOW (R251). -/
def execHacFlow (a : HacAt) (f1 f2 : BitVec 4) (f3 f4 : BitVec 8) (imm : BitVec 32) (s : State) :
    Host.Outcome State Fault Refusal := .next (s.hacRow 0x40 (fun _ => opFlow) a f1 f2 f3 f4 imm)

/-- EXIT (R251). -/
def execHacExit (a : HacAt) (f1 f2 : BitVec 4) (f3 f4 : BitVec 8) (imm : BitVec 32) (s : State) :
    Host.Outcome State Fault Refusal := .next (s.hacRow 0x41 (fun _ => opExit) a f1 f2 f3 f4 imm)

/-- FWDX (R251). -/
def execHacFwdx (a : HacAt) (f1 f2 : BitVec 4) (f3 f4 : BitVec 8) (imm : BitVec 32) (s : State) :
    Host.Outcome State Fault Refusal := .next (s.hacRow 0x42 (fun _ => opFwdx) a f1 f2 f3 f4 imm)

/-- TELE (R251). -/
def execHacTele (a : HacAt) (f1 f2 : BitVec 4) (f3 f4 : BitVec 8) (imm : BitVec 32) (s : State) :
    Host.Outcome State Fault Refusal := .next (s.hacRow 0x43 (fun _ => opTele) a f1 f2 f3 f4 imm)

/-- EXED (R251). -/
def execHacExed (a : HacAt) (f1 f2 : BitVec 4) (f3 f4 : BitVec 8) (imm : BitVec 32) (s : State) :
    Host.Outcome State Fault Refusal := .next (s.hacRow 0x44 (fun _ => opExed) a f1 f2 f3 f4 imm)

/-- DISP (R251). -/
def execHacDisp (a : HacAt) (f1 f2 : BitVec 4) (f3 f4 : BitVec 8) (imm : BitVec 32) (s : State) :
    Host.Outcome State Fault Refusal := .next (s.hacRow 0x45 (fun _ => opDisp) a f1 f2 f3 f4 imm)

/-- PATCH (R251). -/
def execHacPatch (a : HacAt) (f1 f2 : BitVec 4) (f3 f4 : BitVec 8) (imm : BitVec 32) (s : State) :
    Host.Outcome State Fault Refusal := .next (s.hacRow 0x46 (fun _ => opPatch) a f1 f2 f3 f4 imm)

/-- REC (R251). -/
def execHacRec (a : HacAt) (f1 f2 : BitVec 4) (f3 f4 : BitVec 8) (imm : BitVec 32) (s : State) :
    Host.Outcome State Fault Refusal := .next (s.hacRow 0x47 (fun _ => opRec) a f1 f2 f3 f4 imm)

/-- POL (R251). -/
def execHacPol (a : HacAt) (f1 f2 : BitVec 4) (f3 f4 : BitVec 8) (imm : BitVec 32) (s : State) :
    Host.Outcome State Fault Refusal := .next (s.hacRow 0x50 (fun _ => opPol) a f1 f2 f3 f4 imm)

/-- CNT (R251). -/
def execHacCnt (a : HacAt) (f1 f2 : BitVec 4) (f3 f4 : BitVec 8) (imm : BitVec 32) (s : State) :
    Host.Outcome State Fault Refusal := .next (s.hacRow 0x51 (fun _ => opCnt) a f1 f2 f3 f4 imm)

/-- CRC (R251). -/
def execHacCrc (a : HacAt) (f1 f2 : BitVec 4) (f3 f4 : BitVec 8) (imm : BitVec 32) (s : State) :
    Host.Outcome State Fault Refusal := .next (s.hacRow 0x60 opCrc a f1 f2 f3 f4 imm)

/-- DIG (R251). -/
def execHacDig (a : HacAt) (f1 f2 : BitVec 4) (f3 f4 : BitVec 8) (imm : BitVec 32) (s : State) :
    Host.Outcome State Fault Refusal := .next (s.unitsSync.hacRow 0x61 opDig a f1 f2 f3 f4 imm)

/-- WAIT (R251). -/
def execHacWait (a : HacAt) (f1 f2 : BitVec 4) (f3 f4 : BitVec 8) (imm : BitVec 32) (s : State) :
    Host.Outcome State Fault Refusal := .next (s.hacRow 0x62 (fun _ => opWait) a f1 f2 f3 f4 imm)

end Sys2Proof.Machine
end

