-- ==== Sys2Proof/Machine/Reception.lean ====
section
/-! DEFINITION. Where a port's frames come from and go to: the link partner, its own transmitter in a loopback
(spec/04_port_macs.md R132, R133), and the wake matcher in Twilight (spec/18_power_and_wake.md R542, R547). -/

namespace Sys2Proof.Machine

/-- RX_FRAME_START (R35, R59, R115, R132, R133, R147): a frame of the link partner; in a near-end loopback the port does not take it, and
in far-end loopback it sends it back (DEDUCED, DESIGN CHOICE, log entries 6, 32). -/
def execRxFrameStart (p : Port) (express : Bool) (bytes : List Byte) (s : State) : Host.Outcome State Fault Refusal :=
  if s.looped p then .next s
  else if s.rd (R.SX_CFG_LPBK p) = 3 then
    .next (if s.rd (R.PORT_STAT_STATE p) = 0 then s else s.emit (.frame p s.now bytes))
  else .next (s.beginRx p express bytes)

/-- What a port in a near-end loopback has begun to send, or sends on, comes back to it (R132) (DEDUCED, log entry 11). -/
def State.loopBack (s : State) (p : Port) : State :=
  match (s.port p).tx with
  | none => s
  | some t =>
    let e := s.preemptOn p && t.pm.isNone
    if t.sent = 0 then s.beginRx p e t.bytes
    else s.modArr (.rx p e) (fun v => { v with sfd := s.now - bitsTime (8 * t.sent) (s.rateKb p) })

/-- TX_START (R132, R288, R304). -/
def execTxStart (p : Port) (s : State) : Host.Outcome State Fault Refusal :=
  let t := s.startTx p
  .next (if t.looped p && decide ((t.port p).tx ≠ (s.port p).tx) then t.loopBack p else t)

/-- The counter of a frame that has ended on a listening port (R137, R542): it fails its FCS, its length, the address filter, or the
classification that it never has (DEDUCED, log entry 68). -/
def State.twCounter (s : State) (p : Nat) (b : List Byte) : Fld :=
  if fcsGood b = false then R.ADM_DISC_FCS p
  else if b.length < 64 ∨ b.length > s.inf (R.MAXLEN p) then R.ADM_DISC_LEN p
  else if s.filterOf p (b.take 6) = .miss then R.ADM_DISC_ADDR p
  else R.ADM_REF_RESET p

/-- WAKE_PATTERN_MATCH (R137, R156, R547): a frame has ended on a port; on a listening one it is counted, and a match wakes. -/
def execWakePatternMatch (p : Port) (bytes : List Byte) (s : State) : Host.Outcome State Fault Refusal :=
  if s.rd R.PM_STAT_STATE ≠ 2 ∨ s.listens p = false ∨ isUp s p = false then .next s
  else
    let s := ((s.rxStats p bytes).add64 (R.RX_ENDED p) (R.RX_ENDED_HI p) 1).inc (s.twCounter p bytes)
    if fcsGood bytes = false then .next s
    else
      match (List.range 32).find? (patMatches s.pm.pats p bytes) with
      | some i => .next (s.wake 5 p i)
      | none => .next s

end Sys2Proof.Machine
end

