-- ==== Sys2Proof/Machine/Domains.lean ====
section
/-! DEFINITION. Supply domains, body bias, SRAM assist, clamps and pins in each power state (spec/18_power_and_wake.md R530 to R532, R555,
R556). They follow from the state of PMU and are registers of no one. -/

namespace Sys2Proof.Machine

/-- The power state: 0 Day, 1 Dusk, 2 Twilight, 3 Night (R528). -/
def State.powerState (s : State) : Nat := if s.pm.phase = .night then 3 else s.rd R.PM_STAT_STATE

/-! ### Domains (R530) -/

/-- A supply domain; SX has a lane per port. -/
inductive Domain where
  | core | sram
  | lane (p : Nat)
  | ioA | ioB | aon
  deriving DecidableEq, Repr

/-- How a domain is supplied. -/
inductive Supply where
  | on | clockGated | retention | gated | clamped | unpowered
  deriving DecidableEq, Repr

/-- The supply of an I/O domain: a bank whose rail is gone is unpowered. -/
def State.ioSupply (s : State) (r : Rail) : Supply :=
  if s.pins.low.contains r then .unpowered else if s.powerState = 3 then .clamped else .on

/-- The supply of a domain in the state (R530). -/
def State.supplyOf (s : State) (d : Domain) : Supply :=
  let k := s.powerState
  match d with
  | .core => if k ≤ 1 then .on else if k = 2 then .clockGated else .gated
  | .sram => if k ≤ 1 then .on else if k = 2 then .retention else .gated
  | .lane p =>
    if k ≤ 1 then (if s.inf (R.PORT_CFG_IF p) ≠ 0 then .on else .gated)
    else if k = 2 ∧ s.bitAt R.TW_CFG_PORTS p then .on else .gated
  | .ioA => s.ioSupply .ioA
  | .ioB => s.ioSupply .ioB
  | .aon => if s.pins.low.contains .aon then .unpowered else .on

/-! ### Body bias and SRAM assist (R531, R532, R536, R537) -/

/-- A Dusk exit ramps up to Day. -/
def State.rising (s : State) : Bool :=
  match s.pm.phase with
  | .ramp _ true | .dayAt => true
  | _ => false

/-- The body bias that PMU drives or ramps to, in mV; none in Night. The forward bias of Day is PMU's own choice from 0 to 150 mV (R531) (DESIGN CHOICE, log entry 95). -/
def State.bias (s : State) : Option Int :=
  if s.powerState = 3 then none
  else if s.powerState = 0 ∨ s.rising then some ((min Config.dayBias 150 : Nat) : Int)
  else some (-300)

/-- SRAM write assist: on in Day, and from the GO of a Dusk exit (R531, R536, R537). -/
def State.assist (s : State) : Bool := s.powerState = 0 || s.rising

/-- The SRAM arrays rest at 0.60 V between accesses (R531, R532). -/
def State.sramRests (s : State) : Bool := s.powerState = 1 || s.powerState = 2

/-! ### Transmit weights (R132, R647) -/

/-- The main weight that a lane's driver uses: the weights sum to at most 63 (R647). -/
def State.txMain (s : State) (p : Nat) : Nat :=
  min (s.rd (R.SX_CFG_TX_MAIN p)) (63 - s.rd (R.SX_CFG_TX_PRE p) - s.rd (R.SX_CFG_TX_POST p))

/-- The swing of the first bit after a transition and of a long run of equal bits, in mV (R647). -/
def State.swings (s : State) (p : Nat) : Nat × Nat :=
  let x := s.rd (R.SX_CFG_TX_PRE p) + s.rd (R.SX_CFG_TX_POST p)
  ((s.txMain p + x) * 35 / 2, (s.txMain p - x) * 35 / 2)

/-! ### Lane power (R648, R649, R657) -/

/-- What a port's lane draws, in mW: none with IF = 0 (R648, R657). -/
def State.lanePower (s : State) (p : Nat) : Nat := ([0, 155, 40, 40, 70] : List Nat).getD (s.inf (R.PORT_CFG_IF p)) 0

/-! ### Clamps (R555) -/

/-- A signal from CORE to AON. -/
inductive CoreSignal where
  | retentionWrite | recordWrite | wakeCfgUpdate | wakeRequest | nightRequest | padHold
  deriving DecidableEq, Repr

/-- The level at which a signal is clamped, from the point of no return of Night until the clamps are released (R544, R549, R555). -/
def State.clamp (s : State) (x : CoreSignal) : Option Bool :=
  if s.pm.phase = .night then some (x == .nightRequest || x == .padHold) else none

/-! ### Pins (R556, R630) -/

/-- What a group of pins does; `pulled` is high impedance with the pull-up of the pin. -/
inductive PinState where
  | driven | floating | pulled | idle | low | high | released
  deriving DecidableEq, Repr

/-- A group of pins. -/
inductive PinGroup where
  | sxTx (p : Nat)
  | peTx
  | mdio (m : Nat)
  | tout | conTx | intN | qspiCs | qspiClk | qspiIo | peWakeN | tdo
  deriving DecidableEq, Repr

/-- The rail that supplies a group of pins (R630). -/
def PinGroup.rail : PinGroup → Rail
  | .sxTx _ | .peTx => .asx
  | .mdio 0 => .ioA
  | .mdio _ | .tout => .ioB
  | .peWakeN => .aon
  | _ => .ioA

/-- A group of pins takes its in-reset state: PORST_N is low, a reset or a start has not reached step 4, or its rail or VDD_CORE is too low
(R630, R635, R639). In Night the start waits too, but R556 gives the pins. -/
def State.inReset (s : State) (g : PinGroup) : Bool :=
  s.pins.porst || s.pins.low.contains g.rail
    || (s.pm.phase != .night && (s.boot.phase == .none || s.boot.phase == .waiting || s.boot.phase == .held || s.pins.low.contains .core))

/-- The in-reset state of a group of pins (R630). -/
def PinGroup.resetState : PinGroup → PinState
  | .sxTx _ | .peTx | .mdio _ | .tdo => .floating
  | .qspiClk | .tout => .low
  | .qspiCs | .qspiIo => .pulled
  | .conTx => .high
  | .intN | .peWakeN => .released

/-- The state of a group of pins; `floating` is high impedance (R556, R630). -/
def State.pinState (s : State) (g : PinGroup) : PinState :=
  let night := s.powerState == 3
  if s.inReset g then g.resetState
  else match g with
  | .tdo => .floating
  | .sxTx p => if s.supplyOf (.lane p) = .on then .driven else .floating
  | .peTx => if night then .floating else if s.powerState = 2 then .idle else .driven
  | .mdio m => if s.parked m then .floating else .driven
  | .tout => if night then .low else .driven
  | .conTx => if night then .high else .driven
  | .intN => if !night && s.intN then .low else .released
  | .qspiCs => if night then .high else .driven
  | .qspiClk => if night then .low else .driven
  | .qspiIo => if night then .floating else .driven
  | .peWakeN => if s.pm.wakeOut then .low else .released

end Sys2Proof.Machine
end

