-- ==== Sys2Proof/Machine/Tap.lean ====
section
/-! DEFINITION. The test access port and the boundary-scan chain (spec/23_test_and_service_life.md R660 to R666). -/

namespace Sys2Proof.Machine

/-! ### The chain (R629, R664, R665) -/

/-- A pin, or a differential pair, that the chain reaches (R664). -/
inductive Pad where
  | sxTx (n : Nat)
  | sxRx (n : Nat)
  | peTx (n : Nat)
  | peRx (n : Nat)
  | mdc (n : Nat)
  | mdio (n : Nat)
  | qspiClk
  | qspiCs
  | qspiIo (n : Nat)
  | intN
  | conTx
  | conRx
  | perstN
  | tout (n : Nat)
  | tcap (n : Nat)
  | peWakeN
  | wake (n : Nat)
  | porstN
  | sysrstN
  deriving DecidableEq, Repr

/-- What a cell does (R664). -/
inductive CellKind where
  | input
  | output
  | control
  | enable
  | data
  | receiverP
  | receiverN
  deriving DecidableEq, Repr

/-- The cells of a pin, from TDI on (R664, R665). -/
def Pad.cells : Pad → List CellKind
  | .mdc _ | .qspiClk | .qspiCs | .conTx | .tout _ => [.output, .control]
  | .mdio _ | .qspiIo _ => [.input, .output, .control]
  | .intN | .peWakeN => [.input, .enable]
  | .conRx | .tcap _ | .wake _ | .porstN | .sysrstN | .perstN => [.input]
  | .sxTx _ | .peTx _ => [.data, .control]
  | .sxRx _ | .peRx _ => [.receiverP, .receiverN]

/-- The pins in ball-map order, row A to row AA and within a row by column; a pair stands at its P ball (R629, R665). -/
def pads : List Pad :=
  (List.range 6).map .sxTx ++ (List.range 6).map .sxRx
    ++ [.peTx 0, .mdc 0, .mdio 0, .peTx 1, .qspiClk, .peTx 2, .qspiCs, .qspiIo 0, .peTx 3, .qspiIo 1, .qspiIo 2, .peRx 0, .qspiIo 3]
    ++ [.intN, .peRx 1, .conTx, .conRx, .peRx 2, .perstN]
    ++ (List.range 8).map .tout ++ (List.range 4).map .tcap ++ [.peWakeN, .peRx 3]
    ++ (List.range 4).map .wake ++ [.porstN, .sysrstN, .mdc 1, .mdio 1]

/-- The chain from TDO to TDI: element k is cell k (R665) (DESIGN CHOICE, log entry 81). -/
def chain : List (Pad × CellKind) := (pads.flatMap (fun p => p.cells.map (fun c => (p, c)))).reverse

/-- The cells of a kind on the AC transmitters, SX0 to SX5 and PE_TX0 to PE_TX3 (R664). -/
def txCells (c : CellKind) : List Nat :=
  ((List.range 6).map Pad.sxTx ++ (List.range 4).map Pad.peTx).map (fun p => chain.findIdx (fun x => x == (p, c)))

/-- The bits that a boundary register holds in the cells of a kind on the AC transmitters, SX0 lowest. -/
def txBits (v : Nat) (c : CellKind) : Nat := (txCells c).foldr (fun k a => 2 * a + (if v.testBit k then 1 else 0)) 0

/-! ### Scans (R661, R664, R666) -/

/-- The TAP works (R660) (DESIGN CHOICE, log entry 81). -/
def State.tapOn (s : State) : Bool := !s.pins.porst && s.pm.phase != .night && s.pins.low.all (fun r => !tapRail r)

/-- The threshold of WAKEn in force, in mV (R546) (DEDUCED, log entry 94). -/
def State.wakeMv (s : State) (n : Nat) : Nat := 800 + 400 * s.rd (R.WK_CFG_THR n)

/-- What a cell captures (R664) (DESIGN CHOICE, log entry 81). -/
def State.observes (s : State) (x : Scan) (k : Nat) : Bool :=
  match chain[k]? with
  | some (.porstN, _) => true
  | some (.sysrstN, _) => !s.pins.sysrst
  | some (.perstN, _) => !s.pm.perstLow
  | some (.wake n, _) => decide (s.wakeMv n ≤ x.wake.getD n 0)
  | _ => x.levels.toNat.testBit k

/-- The boundary register after Capture-DR. -/
def State.captured (s : State) (x : Scan) : Nat :=
  (List.range 100).foldr (fun k a => 2 * a + (if s.observes x k then 1 else 0)) 0

/-- A scan of the boundary register: what was captured leaves on TDO, cell 0 first, and Update-DR holds what was shifted in (R664, R665) (DESIGN CHOICE, log entry 81). -/
def State.scanCells (s : State) (dr : Option Scan) : State :=
  if s.tapOn = false then s
  else
    match dr with
    | none => s
    | some x => ({ s with pins := { s.pins with cells := x.tdi.toNat } } : State).emit (.tdo 100 (s.captured x))

/-- A scan of a register of n bits that is only read. -/
def State.scanBits (s : State) (dr : Option Scan) (n v : Nat) : State :=
  if s.tapOn ∧ dr.isSome then s.emit (.tdo n v) else s

/-- The pins take what a test instruction in force drives: the held cells, or nothing (R661). -/
def State.drivePads (s : State) (v : Option Nat) : State := if s.tapOn then s.emit (.pads v) else s

/-- n edges of the AC transmitters whose control cell holds 1: they end at the level of the data cell, or away from it after an even
number beyond the first (R666) (DESIGN CHOICE, log entry 81). -/
def State.acEdges (s : State) (n : Nat) : State :=
  if s.tapOn = false ∨ n = 0 then s
  else
    let on := txBits s.pins.cells .control
    let d := txBits s.pins.cells .data
    s.emit (.edges on ((if n % 2 = 1 then d else 1023 - d) &&& on) n)

/-! ### Instructions (R660 to R662) -/

/-- An instruction that holds a test-mode reset is in force from now on (R662) (DESIGN CHOICE, log entry 81). -/
def State.tapHold (s : State) (ir : Nat) : State :=
  if s.tapOn = false then s
  else
    let t : State := { s with pins := { s.pins with tapIr := ir } }
    if s.testHeld ∨ s.boot.phase = .none ∨ s.boot.phase = .waiting then t else t.stopDevice

/-- An instruction without a test-mode reset is in force from now on; one that was held ends (R662) (DESIGN CHOICE, log entry 81). -/
def State.tapLoad (s : State) (ir : Nat) (st : StartInputs) : State :=
  let t : State := { s with pins := { s.pins with tapIr := ir } }
  if s.testHeld then t.tryStart st else t

/-- A test instruction is loaded, the chain is scanned, and the pins take the cells. -/
def State.tapTest (s : State) (ir : Nat) (dr : Option Scan) : State :=
  let s := (s.tapHold ir).scanCells dr
  s.drivePads (some s.pins.cells)

/-- EXTEST (R661, R662, R664) (DESIGN CHOICE, log entry 81). -/
def execExtest (dr : Option Scan) (s : State) : Host.Outcome State Fault Refusal := .next (s.tapTest 0 dr)

/-- HIGHZ (R661, R662): every output floats. -/
def execHighz (dr : Option Scan) (s : State) : Host.Outcome State Fault Refusal :=
  .next (((s.tapHold 3).drivePads none).scanBits dr 1 0)

/-- CLAMP (R661, R662): the pins keep the cells' values. -/
def execClamp (dr : Option Scan) (s : State) : Host.Outcome State Fault Refusal :=
  .next (((s.tapHold 4).drivePads (some s.pins.cells)).scanBits dr 1 0)

/-- EXTEST_PULSE (R661, R662, R666): each Update-DR sends one edge. -/
def execExtestPulse (dr : Option Scan) (s : State) : Host.Outcome State Fault Refusal :=
  .next ((s.tapTest 5 dr).acEdges (if dr.isSome then 1 else 0))

/-- EXTEST_TRAIN (R661, R662, R666): each falling edge of TCK in Run-Test/Idle toggles the transmitters. -/
def execExtestTrain (dr : Option Scan) (s : State) : Host.Outcome State Fault Refusal :=
  .next ((s.tapTest 6 dr).acEdges (match dr with
    | some x => x.idle
    | none => 0))

/-- TAP_RESET (R660, R662): Test-Logic-Reset selects IDCODE. -/
def execTapReset (st : StartInputs) (s : State) : Host.Outcome State Fault Refusal := .next (s.tapLoad 2 st)

/-- SAMPLE_PRELOAD (R661, R662, R664): the chain is scanned, operation goes on. -/
def execSamplePreload (dr : Option Scan) (st : StartInputs) (s : State) : Host.Outcome State Fault Refusal :=
  if s.tapOn then .next ((s.scanCells dr).tapLoad 1 st) else .next s

/-- The identification register: the version of B0, the part number, the manufacturer's code and 1 (R661) (DESIGN CHOICE, log entry 34). -/
def idCode : Nat := 2 ^ 28 * 2 + 2 ^ 12 * 0x6416 + 2 * (Config.jepCode % 2 ^ 11) + 1

/-- IDCODE (R661, R662). -/
def execIdcode (dr : Option Scan) (st : StartInputs) (s : State) : Host.Outcome State Fault Refusal :=
  if s.tapOn then .next ((s.scanBits dr 32 idCode).tapLoad 2 st) else .next s

/-- MBIST_RESULT (R661, R662, R668). -/
def execMbistResult (dr : Option Scan) (st : StartInputs) (s : State) : Host.Outcome State Fault Refusal :=
  if s.tapOn then .next ((s.scanBits dr 32 s.pins.mbist).tapLoad 8 st) else .next s

/-- An opcode acts as BYPASS: one that the table does not list, or a private one while JTAG_LOCK reads 1 (R661). -/
def State.bypasses (s : State) (op : Nat) : Bool :=
  !(decide (op ≤ 6) || op == 8) && (!decide (0x20 ≤ op ∧ op ≤ 0x7F) || (s.fuse 1).testBit 1)

/-- BYPASS (R661, R662) (DESIGN CHOICE, log entry 81). -/
def execBypass (op : Byte) (dr : Option Scan) (st : StartInputs) (s : State) : Host.Outcome State Fault Refusal :=
  if s.tapOn ∧ s.bypasses op.toNat then .next ((s.scanBits dr 1 0).tapLoad op.toNat st) else .next s

end Sys2Proof.Machine
end

