-- ==== Sys2Proof/Machine/Verbs.lean ====
section
/-! DEFINITION. The verbs of the Molsum console (spec/17_molsum_console.md R517 to R527, spec/19_startup_fuses_update.md R581): each
executes the line at the head of the order of service, where that line is of its channel and its verb, and answers it. -/

namespace Sys2Proof.Machine

/-! ### Scope and service (R491, R502, R521, R582) -/

/-- A verb that a tenant may use (R521) (DEDUCED, log entry 83). -/
def ConVerb.tenants : ConVerb → Bool
  | .ping | .mode | .show_ | .rd | .wr | .resetSelf | .digestOpen | .digestData | .digestFinal | .digestAbort => true
  | _ => false

/-- A verb that UART_MODE 1 permits (R491) (DEDUCED, log entry 83). -/
def ConVerb.basic : ConVerb → Bool
  | .ping | .mode | .baud | .show_ => true
  | _ => false

/-- A verb that Eclipse refuses (R502) (DEDUCED, log entry 83). -/
def ConVerb.writes : ConVerb → Bool
  | .set | .wr | .commit | .stageDrop | .updateStatus | .updateBegin | .updateData | .updateEnd | .updateActivate
  | .updateConfirm => true
  | _ => false

/-- A verb that recovery serves; of `show` it serves `show device` (R582) (DEDUCED, log entry 83). -/
def ConVerb.recovers : ConVerb → Bool
  | .ping | .show_ | .updateStatus | .updateBegin | .updateData | .updateEnd | .updateActivate | .resetDevice => true
  | _ => false

/-- The error by which a verb is refused before its arguments are looked at (DEDUCED, log entry 83). -/
def State.verbRefused (s : State) (ch : Nat) (v : ConVerb) : Option Nat :=
  let net := decide (2 ≤ ch ∧ ch ≤ 7)
  if ch ≥ 8 ∧ v.tenants = false then some 17
  else if ch < 8 ∧ v = .resetSelf then some 17
  else if ch ≠ 0 ∧ v = .baud then some 17
  else if net && (v == .mode || v == .teleOn || v == .teleOff) then some 17
  else if ch = 0 ∧ s.rd R.CON_CFG_UART_MODE = 1 ∧ v.basic = false then some 17
  else if s.bit R.BOOT_STAT_RECOVERY ∧ v.recovers = false then some 18
  else if s.bit R.FLT_STAT_ECLIPSE ∧ v.writes then some 19
  else none

/-- The line in service is answered with an error. -/
def State.er (s : State) (code : Nat) : State := s.conFinish (erReply code)

/-- The line in service is answered `ok`. -/
def State.ok (s : State) (t : List Byte := []) : State := s.conFinish (okReply t)

/-- The line at the head of the order of service executes, where it is a line of a channel with a verb (R501, R506) (DESIGN CHOICE, log entry 10). -/
def State.conVerb (s : State) (ch : Channel) (v : ConVerb) (run : State → ConLine → List Tok → State) : State :=
  match s.con.lines with
  | [] => s
  | x :: _ =>
    if s.conIdle = false ∨ x.ch ≠ chNum ch then s
    else
      match s.judgeLine x with
      | .verb w _ args =>
        if w ≠ v then s
        else
          let s := s.netTakes x
          match s.verbRefused x.ch v with
          | some e =>
            let s := match tenantOf x.ch with
              | some n => if v == ConVerb.resetTenant then s.tenViol n else s
              | none => s
            s.er e
          | none => run s x args
      | _ => s

/-! ### Arguments (R493) -/

/-- No argument is left. -/
def State.noArgs (s : State) (a : List Tok) (t : State) : State := if a.isEmpty then t else s.er 10

/-- A number below a bound. -/
def numBelow (bound : Nat) (t : Tok) : Except Nat Nat :=
  match number t with
  | none => .error 10
  | some v => if v < bound then .ok v else .error 16

/-- A number in service of a line: refused, or what follows with it. -/
def State.withNum (s : State) (bound : Nat) (t : Tok) (k : Nat → State) : State :=
  match numBelow bound t with
  | .ok v => k v
  | .error e => s.er e

/-- A keyword in service of a line: refused, or what follows with its index. -/
def State.withWord (s : State) (strict : Bool) (words : List Tok) (t : Tok) (k : Nat → State) : State :=
  match keyword strict words t with
  | .ok i => k i
  | .error e => s.er e

/-! ### Times (R429, R480, R522) -/

/-- A number in n decimal digits. -/
def decPad (n v : Nat) : List Byte :=
  let l := List.replicate n (0x30 : Byte) ++ dec v
  l.drop (l.length - n)

/-- A time of TAI, in UTC where it is valid (DEDUCED, log entry 84). -/
def State.timeText (s : State) (sec ns : Nat) (valid : Bool) : List Byte :=
  if valid then
    let c := (s.toCivil sec).getD ⟨0, 0, 0, 0, 0, 0⟩
    decPad 4 c.year ++ txt "-" ++ decPad 2 c.month ++ txt "-" ++ decPad 2 c.day ++ txt "T" ++ decPad 2 c.hour ++ txt ":"
      ++ decPad 2 c.minute ++ txt ":" ++ decPad 2 c.second ++ txt "." ++ decPad 9 ns ++ txt "Z"
  else txt "unsynced " ++ dec sec ++ txt "." ++ decPad 9 ns

/-- The nanoseconds of an event from its short time and the seconds of its time mark (R375, R480). -/
def rebuildTime (sec ts : Nat) : Nat :=
  let b := sec * 1000000000
  let d := toSigned 40 ((ts + 2 ^ 40 - b % 2 ^ 40) % 2 ^ 40)
  ((b : Int) + d).toNat

/-! ### ping, mode, baud (R497, R503, R521) -/

/-- PING (R521). -/
def execPing (ch : Channel) (s : State) : Host.Outcome State Fault Refusal :=
  .next (s.conVerb ch .ping (fun s _ a => s.noArgs a (s.ok (txt "pong"))))

/-- `mode strict`, `mode interactive` (R495, R497): the reply goes first; a change clears the stored reply. -/
def State.modeVerb (s : State) (x : ConLine) (a : List Tok) : State :=
  match a with
  | [t] => s.withWord x.strict [txt "strict", txt "interactive"] t (fun i =>
      let b := i == 0
      match readLine x with
      | .command seq _ => ((s.conReply x seq (s.strict x.ch != b) (okReply [])).setStrict x.ch b).flushLines
      | _ => s)
  | _ => s.er 10

/-- MODE (R497). -/
def execMode (ch : Channel) (s : State) : Host.Outcome State Fault Refusal := .next (s.conVerb ch .mode State.modeVerb)

/-- `baud` (R503): the rate changes after the last byte of the reply. -/
def State.baudVerb (s : State) (_x : ConLine) (a : List Tok) : State :=
  match a with
  | [t] =>
    match number t with
    | none => s.er 10
    | some v =>
      match bauds.findIdx? (· == v) with
      | none => s.er 16
      | some r =>
        let s := s.ok
        { s with con := { s.con with rateNext := some (s.con.tx.length, r) } }
  | _ => s.er 10

/-- BAUD (R503). -/
def execBaud (ch : Channel) (s : State) : Host.Outcome State Fault Refusal := .next (s.conVerb ch .baud State.baudVerb)

/-! ### show (R522) -/

/-- The text of a bit. -/
def bitText (b : Bool) : List Byte := dec (bit1 b)

/-- `show device` (DEDUCED, log entry 84). -/
def State.showDevice (s : State) : List Byte :=
  let id := s.rd R.DEV_ID
  txt "TRT6416 " ++ hex 2 (id / 2 ^ 8) ++ txt " " ++ (match id / 2 ^ 4 % 16 with
    | 1 => txt "AQ"
    | 2 => txt "AE"
    | g => hex 1 g)

/-- The length of the running tick's period in µs. -/
def State.periodText (s : State) : List Byte :=
  txt ((["15.625", "31.25", "62.5", "125", "250"] : List String).getD (s.rd R.TICK_ACTIVE % 8) "")

/-- A signed number in decimal. -/
def decSigned (v : Int) : List Byte := if v < 0 then txt "-" ++ dec v.natAbs else dec v.natAbs

/-- `show tick`. -/
def State.showTick (s : State) : List Byte :=
  txt "tick " ++ dec s.tickNum ++ txt " period " ++ s.periodText ++ txt " unsynced " ++ bitText (s.bit R.TICK_STAT_TICK_UNSYNCED)
    ++ txt " slewing " ++ bitText (s.bit R.TICK_STAT_TICK_SLEWING) ++ txt " err " ++ decSigned (toSigned 32 (s.rd R.TICK_ERR))

/-- `show time`. -/
def State.showTime (s : State) (d : Nat) : List Byte :=
  let t := s.tdNs d
  txt "td" ++ dec d ++ txt " " ++ s.timeText (t / 1000000000 % 2 ^ 48) (t % 1000000000) (s.tdValid d) ++ txt " "
    ++ txt ((["free", "locked", "holdover"] : List String).getD (s.rd (R.DOM_STAT_STATE d)) "")

/-- `show epoch`. -/
def State.showEpoch (s : State) : List Byte :=
  txt "epoch " ++ dec s.tick.epoch ++ txt " pending " ++ (match s.tick.commitAt with
    | some n => dec (n % 2 ^ 48)
    | none => txt "none")

/-- `show port`. -/
def State.showPort (s : State) (p : Nat) : List Byte :=
  txt "p" ++ dec p ++ txt " "
    ++ txt ((["disabled", "acquire", "an", "up", "fault", "debounce"] : List String).getD (s.rd (R.PORT_STAT_STATE p)) "") ++ txt " "
    ++ txt ((["10m", "100m", "1g", "2.5g", "5g", "10g"] : List String).getD (s.rd (R.PORT_STAT_RATE p)) "")

/-- `show buffer`. -/
def State.showBuffer (s : State) : List Byte :=
  txt "free " ++ dec s.freeCells ++ txt " min " ++ dec (s.rd R.FREE_MIN) ++ txt " bank_fail 0x" ++ hex 2 (s.rd R.BUF_STAT_BANK_FAIL)
    ++ txt " mgmt " ++ dec (s.rd R.MGMT_HELD)

/-- `show ledger`. -/
def State.showLedger (s : State) (n : Nat) : List Byte :=
  let f := s.flow n
  txt "flow 0x" ++ hex 3 n ++ txt " acc " ++ dec f.lastAcc ++ txt " del " ++ dec f.lastDel ++ txt " fn " ++ dec f.fn ++ txt " en "
    ++ bitText f.en ++ txt " hwm " ++ dec (mgetD s.led.retention n 0)

/-- The word of a register from the fields of a file. -/
def wordOf (r : RegFile) (off : Nat) (d : RegDef) (i : List Nat) : Nat :=
  (d.fields.map (fun f => 2 ^ f.lo * regGet r ⟨off, f.lo, f.hi + 1 - f.lo, f.rst i⟩)).sum

/-- Offsets without those that repeat the one before. -/
def noRepeat : List Nat → List Nat
  | [] => []
  | a :: t => if t.head? = some a then noRepeat t else a :: noRepeat t

/-- The staged registers that differ from what is in force: name and indices, the staged word and the word in force. -/
def State.stageDiff (s : State) : List (RegName × Nat × Nat) :=
  let keys := ((s.regs ++ s.force).map (·.1)).filter stagedKey
  let offs := noRepeat ((keys.map (· / 32)).mergeSort (fun a b => decide (a ≤ b)))
  offs.filterMap (fun off =>
    match (barRegs none off).find? (fun x => x.1.staged) with
    | none => none
    | some (d, i) =>
      let a := wordOf s.regs off d i
      let b := wordOf s.force off d i
      if a = b then none else some ((d.name, i), a, b))

/-- `show stage`. -/
def State.showStage (s : State) : ConReply :=
  let l := s.stageDiff
  ⟨true, dec l.length, l.map (fun x => regText x.1 ++ txt " " ++ hex32 x.2.1 ++ txt " was " ++ hex32 x.2.2)⟩

/-- `show self` (DEDUCED, log entry 84). -/
def State.showSelf (s : State) (n : Nat) : List Byte :=
  txt "t" ++ dec n ++ txt " quota " ++ hex32 (if h : n < 16 then s.wordAt (.tenant ⟨n, h⟩) 20 else 0) ++ txt " stall "
    ++ bitText (s.bit R.HS_STAT_HOST_STALL)

/-- The objects of `show`. -/
def showWords : List Tok := [txt "device", txt "tick", txt "time", txt "epoch", txt "port", txt "buffer", txt "ledger", txt "budget",
  txt "stage", txt "self"]

/-- An object that a channel may show: `self` is a tenant's alone, `port`, `buffer`, `budget` and `stage` the owner's. -/
def showScope (ten : Bool) (i : Nat) : Bool := if ten then i ≤ 3 || i == 6 || i == 9 else i != 9

/-- An object of `show` by its index, with its arguments. -/
def State.showObject (s : State) (x : ConLine) (i : Nat) (a : List Tok) : State :=
  match i, a with
  | 0, [] => s.ok s.showDevice
  | 1, [] => s.ok s.showTick
  | 2, [] => s.ok (s.showTime 0)
  | 2, [t] => s.withNum 2 t (fun d => s.ok (s.showTime d))
  | 3, [] => s.ok s.showEpoch
  | 4, [t] => s.withNum 6 t (fun p => s.ok (s.showPort p))
  | 5, [] => s.ok s.showBuffer
  | 6, [t] => s.withNum 4096 t (fun n =>
      match tenantOf x.ch with
      | some m => if (s.flow n).fn = m then s.ok (s.showLedger n) else (s.tenViol m).er 17
      | none => s.ok (s.showLedger n))
  | 7, [] => match s.con.lastCheck with
      | some (b, t) => s.conFinish ⟨b, t, []⟩
      | none => s.er 18
  | 8, [] => s.conFinish s.showStage
  | 9, [] => s.ok (s.showSelf ((tenantOf x.ch).getD 0))
  | _, _ => s.er 10

/-- `show`. -/
def State.showVerb (s : State) (x : ConLine) (a : List Tok) : State :=
  match a with
  | [] => s.er 10
  | o :: r => s.withWord x.strict showWords o (fun i =>
      if s.bit R.BOOT_STAT_RECOVERY ∧ i ≠ 0 then s.er 18
      else if showScope (tenantOf x.ch).isSome i then s.showObject x i r
      else s.er 17)

/-- SHOW (R522). -/
def execShow (ch : Channel) (s : State) : Host.Outcome State Fault Refusal := .next (s.conVerb ch .show_ State.showVerb)

/-! ### rd and wr (R518) -/

/-- An offset of a channel's BAR (R518). -/
def barOffset (ten : Bool) (t : Tok) : Except Nat Nat :=
  match number t with
  | none => .error 10
  | some v => if v % 4 = 0 ∧ v < (if ten then 0x10000 else 0x400000) then .ok v else .error 16

/-- The latches of a tenant's BAR with those of MGC and of the tenant exchanged (R617): MGC reads the tenant's BAR with its own. -/
def State.swapLatches (s : State) (n : Nat) : State :=
  let own (k : Nat) : Nat :=
    if k / 32 / 0x1000000 ≠ n + 1 then k
    else if k % 32 = n then k - n + 17
    else if k % 32 = 17 then k - 17 + n
    else k
  { s with latches := s.latches.foldl (fun m x => mput m (own x.1) x.2) [] }

/-- A register read by MGC for a line: of the owner's BAR, or of a tenant's (R518, R617). -/
def State.mgcRead (s : State) (ten : Option Nat) (off : Nat) : Nat × State :=
  match ten with
  | none => s.readReg .mgc off
  | some n =>
    if h : n < 16 then
      let r := (s.swapLatches n).readReg (.tenant ⟨n, h⟩) off
      (r.1, r.2.swapLatches n)
    else (0, s)

/-- `rd`. -/
def State.rdVerb (s : State) (x : ConLine) (a : List Tok) : State :=
  match a with
  | [t] =>
    match barOffset (tenantOf x.ch).isSome t with
    | .error e => s.er e
    | .ok off =>
      let (v, s) := s.mgcRead (tenantOf x.ch) off
      s.ok (hex32 v)
  | _ => s.er 10

/-- RD (R518). -/
def execRd (ch : Channel) (s : State) : Host.Outcome State Fault Refusal := .next (s.conVerb ch .rd State.rdVerb)

/-- A write by MGC to a tenant's BAR, and whether it was discarded (R339). -/
def State.tenantWrite (s : State) (n : Func) (off v : Nat) : Bool × State :=
  let was := s.bit (R.CFG_REJECT n)
  let t := (s.put (R.CFG_REJECT n) false).regWrite n off 15 v
  if t.bit (R.CFG_REJECT n) then (true, t)
  else if off = (R.CFG_REJECT n).off % 0x1000000 then (false, s.regWrite n off 15 v)
  else (false, t.put (R.CFG_REJECT n) was)

/-- The error of a discarded write by its cause (R499, R518) (DEDUCED, log entry 85). -/
def rejectEr (why : Nat) : Nat :=
  match why with
  | 1 => 12
  | 2 => 21
  | 5 => 19
  | _ => 18

/-- `wr` (DEDUCED, log entry 85). -/
def State.wrVerb (s : State) (x : ConLine) (a : List Tok) : State :=
  match a with
  | [t, w] =>
    match barOffset (tenantOf x.ch).isSome t with
    | .error e => s.er e
    | .ok off => s.withNum (2 ^ 32) w (fun v =>
      match tenantOf x.ch with
      | none =>
        match s.ownerWrite off v with
        | (none, s) => s.ok
        | (some why, s) => s.er (rejectEr why)
      | some n =>
        if h : n < 17 then
          match s.tenantWrite ⟨n, h⟩ off v with
          | (false, s) => s.ok
          | (true, s) => s.er 12
        else s)
  | _ => s.er 10

/-- WR (R518). -/
def execWr (ch : Channel) (s : State) : Host.Outcome State Fault Refusal := .next (s.conVerb ch .wr State.wrVerb)

/-! ### set (R517) -/

/-- The registers that `set` names. -/
def setRegs : List RegDef := ownerBlocks.flatMap (fun b => b.2.2)

/-- The fields that hold signed numbers: register and field (R123, R407, R409, R421, R426). -/
def signedFields : List (String × String) := [("lat_rx", ""), ("lat_tx", ""), ("td_rate_hi", ""), ("td_adj", ""), ("utc_cfg", "offset"),
  ("tout_comp", ""), ("tcap_cfg", "comp")]

/-- The indices of a register: as many numbers as it has, each below its count. -/
def setIndices : List (Nat × Nat) → List Tok → Except Nat (List Nat × List Tok)
  | [], l => .ok ([], l)
  | _ :: _, [] => .error 10
  | (_, n) :: d, t :: l =>
    match numBelow n t with
    | .error e => .error e
    | .ok v => (setIndices d l).map (fun r => (v :: r.1, r.2))

/-- The field of a register that a line names; it is omitted where the register has no named fields. -/
def setField (strict : Bool) (d : RegDef) (l : List Tok) : Except Nat (FieldDef × List Tok) :=
  match d.fields with
  | [f] =>
    if f.name = "" then .ok (f, l)
    else match l with
      | [] => .error 10
      | t :: r => (keyword strict [txt f.name] t).map (fun _ => (f, r))
  | fs =>
    match l with
    | [] => .error 10
    | t :: r =>
      match keyword strict (fs.map (fun f => txt f.name)) t with
      | .error e => .error e
      | .ok i => match fs[i]? with
        | some f => .ok (f, r)
        | none => .error 11

/-- A field's value of w bits (R493). -/
def fieldValue (signed : Bool) (w : Nat) (t : Tok) : Except Nat Nat :=
  match t with
  | 0x2D :: r =>
    if signed then
      match number r with
      | none => .error 10
      | some v => if v ≤ 2 ^ (w - 1) then .ok ((2 ^ w - v) % 2 ^ w) else .error 16
    else .error 10
  | _ => numBelow (2 ^ w) t

/-- The word that `set` writes: the field named, and each other field as it does not act (R517). -/
def State.setWord (s : State) (off : Nat) (d : RegDef) (i : List Nat) (f : FieldDef) (v : Nat) : Nat :=
  (d.fields.map (fun g => 2 ^ g.lo *
    (if g.lo = f.lo then v else if g.acc = .rw ∨ g.acc = .rwh then s.fieldAt .mgc off d i g else 0))).sum

/-- `set` with its register, indices, field and value (R517). -/
def State.setReg (s : State) (d : RegDef) (i : List Nat) (f : FieldDef) (v : Nat) : State :=
  let off := d.base + ((d.dims.zip i).map (fun x => x.1.1 * x.2)).sum
  let w := s.setWord off d i f v
  if (barRegs none off).isEmpty then s.er 16
  else if (f.takes && !f.lim.ok v) || s.comboBad d.base i w then s.er 12
  else if s.tick.commitAt.isSome ∧ isStaging d then (s.put R.BCHK_STATUS_LOCKED true).er 21
  else
    match s.ownerWrite off w with
    | (none, s) => s.ok
    | (some why, s) => s.er (rejectEr why)

/-- `set` (DEDUCED, log entry 85). -/
def State.setVerb (s : State) (x : ConLine) (a : List Tok) : State :=
  match a with
  | [] => s.er 10
  | t :: r => s.withWord x.strict (setRegs.map (fun d => txt d.name)) t (fun k =>
      match setRegs[k]? with
      | none => s.er 11
      | some d =>
        match setIndices d.dims r with
        | .error e => s.er e
        | .ok (i, r) =>
          match setField x.strict d r with
          | .error e => s.er e
          | .ok (f, r) =>
            match r with
            | [w] =>
              match fieldValue (signedFields.contains (d.name, f.name)) (f.hi + 1 - f.lo) w with
              | .error e => s.er e
              | .ok v => s.setReg d i f v
            | _ => s.er 10)

/-- SET (R517). -/
def execSetField (ch : Channel) (s : State) : Host.Outcome State Fault Refusal := .next (s.conVerb ch .set State.setVerb)

/-! ### stage, check, commit (R519, R520) -/

/-- STAGE_DROP (R519). -/
def execStageDrop (ch : Channel) (s : State) : Host.Outcome State Fault Refusal :=
  .next (s.conVerb ch .stageDrop (fun s _ a => s.noArgs a (if s.tick.commitAt.isSome then s.er 21 else s.stageDrop.ok)))

/-- A check is asked of MGC, and the line waits for it. -/
def State.askCheck (s : State) (c : CheckFor) : State :=
  { s with tick := { s.tick with checks := s.tick.checks ++ [c] }, con := { s.con with serving := some .check } }

/-- CHECK (R520). -/
def execCheck (ch : Channel) (s : State) : Host.Outcome State Fault Refusal :=
  .next (s.conVerb ch .check (fun s _ a => s.noArgs a (s.askCheck (.check ch))))

/-- A commit is asked for (R70, R72). -/
def State.askCommit (s : State) (ch : Channel) (at_ : Option Nat) : State :=
  if s.tick.commitAt.isSome then s.er 33 else s.askCheck (.commit ch at_)

/-- `commit [at tick N]`. -/
def State.commitVerb (s : State) (ch : Channel) (x : ConLine) (a : List Tok) : State :=
  match a with
  | [] => s.askCommit ch none
  | [u, v, n] => s.withWord x.strict [txt "at"] u (fun _ => s.withWord x.strict [txt "tick"] v (fun _ =>
      s.withNum (2 ^ 48) n (fun k => s.askCommit ch (some k))))
  | _ => s.er 10

/-- COMMIT (R70, R520). -/
def execCommit (ch : Channel) (s : State) : Host.Outcome State Fault Refusal :=
  .next (s.conVerb ch .commit (fun s x a => s.commitVerb ch x a))

/-! ### log (R523) -/

/-- The name and subject of an event (R523). -/
def eventText (code subj : Nat) : List Byte :=
  let named (n : String) : List Byte := txt n ++ txt " " ++ dec subj
  match code with
  | 0x02 => named "lost"
  | 0x10 => named "overrun" | 0x11 => named "commit" | 0x12 => named "stale"
  | 0x20 => named "stall_set" | 0x21 => named "stall_clear" | 0x22 => named "stall_esc"
  | 0x30 => named "mirror_fail" | 0x31 => named "mirror_rebuild_fail"
  | 0x38 => named "bank_fail" | 0x39 => txt "data_fault 0x" ++ hex 4 subj
  | 0x40 => named "lane_fail" | 0x48 => named "pause_break" | 0x49 => named "cap_miss" | 0x4A => named "link_lost"
  | 0x50 => named "flr_done" | 0x58 => named "dom_state" | 0x59 => named "guard" | 0x5A => named "leap"
  | 0x60 => named "dge_clear" | 0x61 => named "latent" | 0x68 => named "mgc_halt"
  | 0x80 => named "net_reject" | 0x81 => named "break" | 0x82 => named "con_reset"
  | _ => txt "code 0x" ++ hex 2 code ++ txt " 0x" ++ hex 4 subj

/-- Up to n entries are removed from the event log; the lines of those that are shown (DEDUCED, log entry 84). -/
def State.logLines : Nat → State → List (List Byte) × State
  | 0, s => ([], s)
  | n + 1, s =>
    match s.logTake with
    | none => ([], s)
    | some (e, s) =>
      if e.code = 1 then State.logLines n s
      else
        let t := rebuildTime s.irc.seenMark.1 e.low
        let l := s.timeText (t / 1000000000) (t % 1000000000) s.irc.seenMark.2 ++ txt " " ++ eventText e.code e.subj
        let (ls, s) := State.logLines n s
        (l :: ls, s)

/-- `log` with its count. -/
def State.logShow (s : State) (n : Nat) : State :=
  let (ls, s) := State.logLines n s
  s.conFinish ⟨true, dec ls.length, ls⟩

/-- `log [<count>]` (DEDUCED, log entry 84). -/
def State.logVerb (s : State) (_x : ConLine) (a : List Tok) : State :=
  match a with
  | [] => s.logShow 16
  | [t] => s.withNum 65 t (fun n => if n = 0 then s.er 16 else s.logShow n)
  | _ => s.er 10

/-- LOG (R523). -/
def execLog (ch : Channel) (s : State) : Host.Outcome State Fault Refusal := .next (s.conVerb ch .log State.logVerb)

/-! ### tele (R524) -/

/-- TELE_ON (R524). -/
def execTeleOn (ch : Channel) (s : State) : Host.Outcome State Fault Refusal :=
  .next (s.conVerb ch .teleOn (fun s x a => s.noArgs a
    (match s.con.tele with
    | some c => if c = x.ch then s.ok else s.er 20
    | none =>
      let t := s.teleCfg (s.wr R.TELE_CFG_DEST 2)
      { t with con := { t.con with tele := some x.ch } }.ok)))

/-- TELE_OFF (R524). -/
def execTeleOff (ch : Channel) (s : State) : Host.Outcome State Fault Refusal :=
  .next (s.conVerb ch .teleOff (fun s x a => s.noArgs a
    (if s.con.tele = some x.ch then
      let t := s.teleCfg (s.wr R.TELE_CFG_DEST 0)
      { t with con := { t.con with tele := none } }.ok
    else s.er 18)))

/-! ### mdio (R150, R154, R525) -/

/-- MGC's transaction for a port's PHY; `w` is the value written, or none for a read (DEDUCED, log entry 85). -/
def State.mdioVerb (s : State) (p dev reg : Nat) (w : Option Nat) : State :=
  let m := s.inf (R.PHY_LOC_BUS p)
  let prt := s.inf (R.PHY_LOC_PRTAD p)
  let c45 := s.inf (R.PHY_LOC_CL45 p) == 1
  let t : MdioTx :=
    if c45 then ⟨1, if w.isSome then 1 else 3, prt, dev, reg, w.getD 0, 0⟩ else ⟨0, if w.isSome then 1 else 2, prt, reg, 0, w.getD 0, 0⟩
  if c45 = false ∧ (dev ≠ 0 ∨ 32 ≤ reg) then s.er 16
  else if s.parked m then
    ((s.put (R.MDIO_STAT_FAIL m) true).setFlag (R.MDIO_STAT_DONE m) (217 + m)).conFinish (erReply 22 (txt "parked"))
  else { s with con := { s.con with serving := some (.mdio m) } }.mdioMgc m 1 t

/-- `mdio <port> rd <devad> <reg>`. -/
def State.mdioRdVerb (s : State) (_x : ConLine) (a : List Tok) : State :=
  match a with
  | [p, d, r] => s.withNum 6 p (fun p => s.withNum 32 d (fun d => s.withNum 65536 r (fun r => s.mdioVerb p d r none)))
  | _ => s.er 10

/-- MDIO_RD (R525): its reply follows the transaction's end. -/
def execMdioRd (ch : Channel) (s : State) : Host.Outcome State Fault Refusal := .next (s.conVerb ch .mdioRd State.mdioRdVerb)

/-- `mdio <port> wr <devad> <reg> <value>`. -/
def State.mdioWrVerb (s : State) (_x : ConLine) (a : List Tok) : State :=
  match a with
  | [p, d, r, v] => s.withNum 6 p (fun p => s.withNum 32 d (fun d => s.withNum 65536 r (fun r =>
      s.withNum 65536 v (fun v => s.mdioVerb p d r (some v)))))
  | _ => s.er 10

/-- MDIO_WR (R525). -/
def execMdioWr (ch : Channel) (s : State) : Host.Outcome State Fault Refusal := .next (s.conVerb ch .mdioWr State.mdioWrVerb)

/-! ### reset (R523, R525) -/

/-- The engines that `reset engine` names, in the order of their codes. -/
def engineWords : List Tok := [txt "mp0", txt "mp1", txt "mp2", txt "mp3", txt "mp4", txt "mp5", txt "mas", txt "qsc", txt "hif", txt "tu",
  txt "dge", txt "cru0", txt "cru1", txt "cru2", txt "cru3", txt "irc", txt "mgc"]

/-- `reset engine <name>`: the reply follows the end of the reset, but for MGC's own (DEDUCED, log entry 86). -/
def State.resetEngineVerb (s : State) (x : ConLine) (a : List Tok) : State :=
  match a with
  | [t] => s.withWord x.strict engineWords t (fun e =>
      let s := s.log 0x82 x.ch
      if e = 16 then
        match readLine x with
        | .command seq _ => (s.conReply x seq false (okReply [])).engReset 16
        | _ => s
      else if s.bitAt R.ENG_RST_STAT e ∧ s.selfNow e = false then (s.engReset e).er 18
      else { s with con := { s.con with serving := some (.engine e) } }.engReset e)
  | _ => s.er 10

/-- RESET_ENGINE (R525). -/
def execResetEngine (ch : Channel) (s : State) : Host.Outcome State Fault Refusal :=
  .next (s.conVerb ch .resetEngine State.resetEngineVerb)

/-- `reset tenant <n>`: the reply follows the end of the reset; with no such function there is none to wait for (DEDUCED, log entry 86). -/
def State.resetTenantVerb (s : State) (x : ConLine) (a : List Tok) : State :=
  match a with
  | [t] => s.withNum 16 t (fun n =>
      let s := s.log 0x82 x.ch
      if s.bitAt R.HIF_FLR_STAT n then s.er 18
      else
        let t := { s with con := { s.con with serving := some (.tenant n) } }.hifFlr (Fin.ofNat 17 n)
        if t.bitAt R.HIF_FLR_STAT n then t else s.ok)
  | _ => s.er 10

/-- RESET_TENANT (R525). -/
def execResetTenant (ch : Channel) (s : State) : Host.Outcome State Fault Refusal :=
  .next (s.conVerb ch .resetTenant State.resetTenantVerb)

/-- `reset self`: the reset clears the mailbox and the line with it (R510). -/
def State.resetSelfVerb (s : State) (x : ConLine) (a : List Tok) : State :=
  s.noArgs a (((s.log 0x82 x.ch).hifFlr (Fin.ofNat 17 ((tenantOf x.ch).getD 0))).flushLines)

/-- RESET_SELF (R525). -/
def execResetSelf (ch : Channel) (s : State) : Host.Outcome State Fault Refusal := .next (s.conVerb ch .resetSelf State.resetSelfVerb)

/-- RESET_DEVICE (R525): the device reset is due 1 ms after the reply (DEDUCED, log entry 82). -/
def execResetDevice (ch : Channel) (s : State) : Host.Outcome State Fault Refusal :=
  .next (s.conVerb ch .resetDevice (fun s x a => s.noArgs a
    (let t := (s.log 0x82 x.ch).ok
     { t with boot := { t.boot with resetDue := some (t.now + 1000000 * unitsPerNs) } })))

/-! ### digest (R441, R442, R446, R448, R526) -/

/-- The algorithms by their codes. -/
def algWords : List Tok := [txt "sha224", txt "sha256", txt "sha384", txt "sha512", txt "sha512_256"]

/-- The context of a channel, and the holder it shows (DEDUCED, log entry 19). -/
def digestCtx (ch : Nat) : Nat := (tenantOf ch).getD 16
def holderOf (ch : Nat) : Nat := if (tenantOf ch).isSome then 2 else 1

/-- The text of a fault reason. -/
def reasonText (r : Nat) : List Byte :=
  txt ((["", "cleared", "reset", "overflow", "length", "preempted"] : List String).getD r "")

/-- DGE takes no OPEN: it resets or clears. -/
def State.dgeShut (s : State) : Bool := s.bitAt R.ENG_RST_STAT 10 || s.dge.clearing.isSome

/-- A tenant may name a key slot: it lies in its range (R446). -/
def State.mayKey (s : State) (ch k : Nat) : Bool :=
  match tenantOf ch with
  | some n => decide (s.inf (R.KEY_PART_BASE n) ≤ k ∧ k < s.inf (R.KEY_PART_BASE n) + s.inf (R.KEY_PART_COUNT n))
  | none => true

/-- A stream opens, plain or with a key slot. -/
def State.digestStart (s : State) (ch alg : Nat) (key : Option Nat) : State :=
  let c := digestCtx ch
  let x := s.stream c
  let go (b : Option KeyBank) : State := (s.setStream c (Stream.start alg (holderOf ch) s.now b)).ok
  if c = 16 ∧ x.state ≠ 0 ∧ x.holder = 2 then s.er 20
  else if s.dgeShut ∨ (x.state ≠ 0 ∧ x.state ≠ 3) then s.er 18
  else
    match key with
    | none => go none
    | some k =>
      match (if s.mayKey ch k then s.streamKey alg k false else none) with
      | some b => go (some b)
      | none => s.conFinish (erReply 23 (txt "slot"))

/-- `digest open <alg> [hmac <slot>]` (DEDUCED, log entry 19). -/
def State.digestOpenVerb (s : State) (x : ConLine) (a : List Tok) : State :=
  match a with
  | [g] => s.withWord x.strict algWords g (fun i => s.digestStart x.ch i none)
  | [g, h, k] => s.withWord x.strict algWords g (fun i => s.withWord x.strict [txt "hmac"] h (fun _ =>
      s.withNum 64 k (fun k => s.digestStart x.ch i (some k))))
  | _ => s.er 10

/-- DIGEST_OPEN (R526). -/
def execDigestOpen (ch : Channel) (s : State) : Host.Outcome State Fault Refusal :=
  .next (s.conVerb ch .digestOpen State.digestOpenVerb)

/-- The channel's context is OPEN for it, or its line is answered (R526). -/
def State.whenOpen (s : State) (ch : Nat) (t : State) : State :=
  let x := s.stream (digestCtx ch)
  if x.state = 4 ∧ x.holder = holderOf ch then s.conFinish (erReply 23 (reasonText x.reason))
  else if x.state ≠ 1 ∨ x.holder ≠ holderOf ch then s.er 18
  else t

/-- MGC feeds bytes when IN_FREE allows: it waits for the context's next block. -/
def State.feed (s : State) (c : Nat) (l : List Byte) : State :=
  let s := if (s.stream c).room < l.length then s.upTo ((s.dgeTo s.farAhead).dge.ctxs.getD c Stream.reset).busyUntil else s
  s.setStream c ((s.stream c).append s.now l)

/-- `digest data <hex>`, up to 64 bytes (DEDUCED, log entry 86). -/
def State.digestDataVerb (s : State) (x : ConLine) (a : List Tok) : State :=
  match a with
  | [t] =>
    match hexData t with
    | none => s.er 10
    | some l => if l.length > 64 then s.er 16 else s.whenOpen x.ch (s.feed (digestCtx x.ch) l).ok
  | _ => s.er 10

/-- DIGEST_DATA (R526). -/
def execDigestData (ch : Channel) (s : State) : Host.Outcome State Fault Refusal :=
  .next (s.conVerb ch .digestData State.digestDataVerb)

/-- The bytes of a digest of an algorithm. -/
def digestLen (alg : Nat) : Nat := ([28, 32, 48, 64, 32] : List Nat).getD alg 64

/-- `digest final`: MGC waits for the digest and takes it (DEDUCED, log entry 86). -/
def State.digestFinalVerb (s : State) (x : ConLine) (a : List Tok) : State :=
  let c := digestCtx x.ch
  s.noArgs a (s.whenOpen x.ch
    (let t := (s.setStream c ((s.stream c).final s.now)).streamEnd c
     let y := t.stream c
     if y.state = 3 then (t.setStream c Stream.reset).ok (hexBytes (y.digest.take (digestLen y.alg))) else t.er 18))

/-- DIGEST_FINAL (R526). -/
def execDigestFinal (ch : Channel) (s : State) : Host.Outcome State Fault Refusal :=
  .next (s.conVerb ch .digestFinal State.digestFinalVerb)

/-- DIGEST_ABORT (R440, R526) (DEDUCED, log entry 86). -/
def execDigestAbort (ch : Channel) (s : State) : Host.Outcome State Fault Refusal :=
  .next (s.conVerb ch .digestAbort (fun s x a => s.noArgs a
    ((if (s.stream (digestCtx x.ch)).holder = holderOf x.ch then s.setStream (digestCtx x.ch) Stream.reset else s).ok)))

/-! ### update (R527, R577 to R586) -/

/-- The words of the slot states. -/
def slotText (v : Nat) : List Byte :=
  txt ((["empty", "loading", "staged", "pending", "active", "failed"] : List String).getD v "")

/-- `update status` (DEDUCED, log entry 84). -/
def State.statusText (s : State) : List Byte :=
  let j := s.jnl
  txt "a " ++ slotText j.a ++ txt " b " ++ slotText j.b ++ txt " active " ++ (match j.slotIn 4 with
    | some 0 => txt "a"
    | some _ => txt "b"
    | none => txt "none") ++ txt " trials " ++ dec j.trials

/-- UPDATE_STATUS (R527). -/
def execUpdateStatus (ch : Channel) (s : State) : Host.Outcome State Fault Refusal :=
  .next (s.conVerb ch .updateStatus (fun s _ a => s.noArgs a (s.ok s.statusText)))

/-- Another channel's session runs (R581). -/
def State.foreignSession (s : State) (ch : Channel) : Bool := s.boot.session.any (fun x => x.1 != ch)

/-- The slot and the next offset of the channel's session, while its slot is LOADING (R581). -/
def State.loading (s : State) (ch : Channel) : Option (Nat × Nat) :=
  match s.boot.session with
  | some (c, k, o) => if c = ch ∧ s.jnl.get k = 1 then some (k, o) else none
  | none => none

/-- The bytes of a slot change. -/
def State.setSlot (s : State) (k : Nat) (l : List Byte) : State :=
  { s with boot := if k = 0 then { s.boot with slotA := l } else { s.boot with slotB := l } }

/-- `update begin <s>` (DEDUCED, log entry 86). -/
def State.updateBeginVerb (s : State) (ch : Channel) (norOk : Bool) (x : ConLine) (a : List Tok) : State :=
  match a with
  | [t] => s.withWord x.strict [txt "a", txt "b"] t (fun k =>
      if s.foreignSession ch then s.er 18
      else if s.jnl.get k = 4 ∨ s.jnl.get k = 3 then s.er 41
      else if norOk = false then s.er 45
      else
        let s := ((s.jnlWrite true (s.jnl.set k 1)).setSlot k []).norErase (slotBase k) 768
        { s with boot := { s.boot with session := some (ch, k, 0) } }.ok)
  | _ => s.er 10

/-- UPDATE_BEGIN (R581). -/
def execUpdateBegin (ch : Channel) (norOk : Bool) (s : State) : Host.Outcome State Fault Refusal :=
  .next (s.conVerb ch .updateBegin (fun s x a => s.updateBeginVerb ch norOk x a))

/-- `update data <offset> <hex>` (DEDUCED, log entry 86). -/
def State.updateDataVerb (s : State) (ch : Channel) (norOk : Bool) (a : List Tok) : State :=
  match a with
  | [o, h] => s.withNum (2 ^ 32) o (fun off =>
      match hexData h with
      | none => s.er 10
      | some l =>
        if l.length > 64 then s.er 16
        else if s.foreignSession ch then s.er 18
        else
          match s.loading ch with
          | none => s.er 40
          | some (k, n) =>
            if off ≠ n ∨ 3145728 < off + l.length then s.er 42
            else if norOk = false then s.er 45
            else
              let s := (s.setSlot k (norPut (s.slot k) off l)).norProgram (slotBase k + off) 64 l
              { s with boot := { s.boot with session := some (ch, k, off + l.length) } }.ok)
  | _ => s.er 10

/-- UPDATE_DATA (R581). -/
def execUpdateData (ch : Channel) (norOk : Bool) (s : State) : Host.Outcome State Fault Refusal :=
  .next (s.conVerb ch .updateData (fun s _ a => s.updateDataVerb ch norOk a))

/-- `update end`: the image is read back on context 16, for which MGC waits while the owner holds it, and checked (R441, R576) (DEDUCED, log entries 69, 86). -/
def State.updateEndVerb (s : State) (ch : Channel) (norOk : Bool) (a : List Tok) : State :=
  s.noArgs a
    (if s.foreignSession ch then s.er 18
    else
      match s.loading ch with
      | none => s.er 40
      | some (k, _) =>
        if s.ownerHolds16 then { s with dge := { s.dge with mgcWait := some (s.dge.mgcWait.getD s.now) } }
        else
          let s : State := { s with dge := { s.dge with mgcWait := none }, boot := { s.boot with session := none } }
          let s := if (s.stream 16).holder = 2 then s.setStream 16 Stream.reset else s
          let img := s.slot k
          if norOk = false then s.er 45
          else if s.genuine img = false then s.er 43
          else if s.passesRollback (imageSv img) = false then s.er 44
          else (s.jnlWrite true ((s.jnl.set k 2).setSv k (imageSv img))).ok)

/-- UPDATE_END (R581). -/
def execUpdateEnd (ch : Channel) (norOk : Bool) (s : State) : Host.Outcome State Fault Refusal :=
  .next (s.conVerb ch .updateEnd (fun s _ a => s.updateEndVerb ch norOk a))

/-- One more than the largest SEQ of an entry in which a slot is not STAGED: the SEQ of its STAGED entry (R581) (DEDUCED, log entry 86). -/
def State.stagedSeq (s : State) (k : Nat) : Nat :=
  ((s.jnlEntries []).filter (fun x => x.2.get k != 2)).foldl (fun m x => max m (x.2.seq + 1)) 0

/-- The slot that `update activate` takes. -/
def State.stagedSlot (s : State) : Option Nat :=
  let j := s.jnl
  if j.a = 2 ∧ j.b = 2 then some (if s.stagedSeq 0 < s.stagedSeq 1 then 1 else 0) else j.slotIn 2

/-- `update activate`. -/
def State.updateActivateVerb (s : State) (ch : Channel) (norOk : Bool) (a : List Tok) : State :=
  s.noArgs a
    (if s.foreignSession ch then s.er 18
    else
      match s.stagedSlot, s.jnl.slotIn 3 with
      | some k, none =>
        if s.passesRollback (s.jnl.sv k) = false then s.er 44
        else if norOk = false then s.er 45
        else (s.jnlWrite true { s.jnl.set k 3 with trials := 0 }).ok
      | _, _ => s.er 40)

/-- UPDATE_ACTIVATE (R581). -/
def execUpdateActivate (ch : Channel) (norOk : Bool) (s : State) : Host.Outcome State Fault Refusal :=
  .next (s.conVerb ch .updateActivate (fun s _ a => s.updateActivateVerb ch norOk a))

/-- `update confirm`: the trial slot becomes ACTIVE, the former ACTIVE slot STAGED, and the fuse follows (R581, R583, R586). -/
def State.updateConfirmVerb (s : State) (ch : Channel) (norOk : Bool) (marginal : Nat) (a : List Tok) : State :=
  let k := s.rd R.BOOT_STAT_SLOT
  s.noArgs a
    (if s.foreignSession ch ∨ s.bit R.BOOT_STAT_TRIAL = false ∨ s.jnl.get k ≠ 3 then s.er 18
    else if norOk = false then s.er 45
    else
      let j := s.jnl.set k 4
      let j := if j.get (1 - k) = 4 then j.set (1 - k) 2 else j
      let s := s.jnlWrite true { j with trials := 0 }
      let s : State := { s with boot := { s.boot with trialEnd := none } }
      let sv := s.rd R.IMG_SV
      (if s.fusedSv < sv then s.raiseSv sv marginal else s).ok)

/-- UPDATE_CONFIRM (R581, R586). -/
def execUpdateConfirm (ch : Channel) (norOk : Bool) (marginal : Nat) (s : State) : Host.Outcome State Fault Refusal :=
  .next (s.conVerb ch .updateConfirm (fun s _ a => s.updateConfirmVerb ch norOk marginal a))

end Sys2Proof.Machine
end

