-- ==== Sys2Proof/Machine/Dispatch.lean ====
section
/-! DEFINITION. The meaning of every command: one arm per constructor of Instr, each a call of that command's meaning. -/

namespace Sys2Proof.Machine

def exec (i : Instr) (s : State) : Host.Outcome State Fault Refusal :=
  match i with
  | .rxFrameStart p express bytes => Sys2Proof.Machine.execRxFrameStart p express bytes s
  | .addressFilter p express => Sys2Proof.Machine.execAddressFilter p express s
  | .cellTaken a => Sys2Proof.Machine.execCellTaken a s
  | .foldDecision a => Sys2Proof.Machine.execFoldDecision a s
  | .classification a steps => Sys2Proof.Machine.execClassification a steps s
  | .rxLastByte p express frags => Sys2Proof.Machine.execRxLastByte p express frags s
  | .resolution handle steps => Sys2Proof.Machine.execResolution handle steps s
  | .resolutionResume lane handle steps => Sys2Proof.Machine.execResolutionResume lane handle steps s
  | .hacEnd at_ f1 f2 f3 f4 imm => Sys2Proof.Machine.execHacEnd at_ f1 f2 f3 f4 imm s
  | .hacClose at_ f1 f2 f3 f4 imm => Sys2Proof.Machine.execHacClose at_ f1 f2 f3 f4 imm s
  | .hacTrap at_ f1 f2 f3 f4 imm => Sys2Proof.Machine.execHacTrap at_ f1 f2 f3 f4 imm s
  | .hacBr at_ f1 f2 f3 f4 imm => Sys2Proof.Machine.execHacBr at_ f1 f2 f3 f4 imm s
  | .hacLdi at_ f1 f2 f3 f4 imm => Sys2Proof.Machine.execHacLdi at_ f1 f2 f3 f4 imm s
  | .hacLdih at_ f1 f2 f3 f4 imm => Sys2Proof.Machine.execHacLdih at_ f1 f2 f3 f4 imm s
  | .hacLdb at_ f1 f2 f3 f4 imm => Sys2Proof.Machine.execHacLdb at_ f1 f2 f3 f4 imm s
  | .hacStb at_ f1 f2 f3 f4 imm => Sys2Proof.Machine.execHacStb at_ f1 f2 f3 f4 imm s
  | .hacMovb at_ f1 f2 f3 f4 imm => Sys2Proof.Machine.execHacMovb at_ f1 f2 f3 f4 imm s
  | .hacCmpb at_ f1 f2 f3 f4 imm => Sys2Proof.Machine.execHacCmpb at_ f1 f2 f3 f4 imm s
  | .hacAdd at_ f1 f2 f3 f4 imm => Sys2Proof.Machine.execHacAdd at_ f1 f2 f3 f4 imm s
  | .hacSub at_ f1 f2 f3 f4 imm => Sys2Proof.Machine.execHacSub at_ f1 f2 f3 f4 imm s
  | .hacAnd at_ f1 f2 f3 f4 imm => Sys2Proof.Machine.execHacAnd at_ f1 f2 f3 f4 imm s
  | .hacOr at_ f1 f2 f3 f4 imm => Sys2Proof.Machine.execHacOr at_ f1 f2 f3 f4 imm s
  | .hacXor at_ f1 f2 f3 f4 imm => Sys2Proof.Machine.execHacXor at_ f1 f2 f3 f4 imm s
  | .hacShl at_ f1 f2 f3 f4 imm => Sys2Proof.Machine.execHacShl at_ f1 f2 f3 f4 imm s
  | .hacShr at_ f1 f2 f3 f4 imm => Sys2Proof.Machine.execHacShr at_ f1 f2 f3 f4 imm s
  | .hacCmp at_ f1 f2 f3 f4 imm => Sys2Proof.Machine.execHacCmp at_ f1 f2 f3 f4 imm s
  | .hacMov at_ f1 f2 f3 f4 imm => Sys2Proof.Machine.execHacMov at_ f1 f2 f3 f4 imm s
  | .hacLkx at_ f1 f2 f3 f4 imm => Sys2Proof.Machine.execHacLkx at_ f1 f2 f3 f4 imm s
  | .hacLkt at_ f1 f2 f3 f4 imm => Sys2Proof.Machine.execHacLkt at_ f1 f2 f3 f4 imm s
  | .hacSpc at_ f1 f2 f3 f4 imm => Sys2Proof.Machine.execHacSpc at_ f1 f2 f3 f4 imm s
  | .hacFlow at_ f1 f2 f3 f4 imm => Sys2Proof.Machine.execHacFlow at_ f1 f2 f3 f4 imm s
  | .hacExit at_ f1 f2 f3 f4 imm => Sys2Proof.Machine.execHacExit at_ f1 f2 f3 f4 imm s
  | .hacFwdx at_ f1 f2 f3 f4 imm => Sys2Proof.Machine.execHacFwdx at_ f1 f2 f3 f4 imm s
  | .hacTele at_ f1 f2 f3 f4 imm => Sys2Proof.Machine.execHacTele at_ f1 f2 f3 f4 imm s
  | .hacExed at_ f1 f2 f3 f4 imm => Sys2Proof.Machine.execHacExed at_ f1 f2 f3 f4 imm s
  | .hacDisp at_ f1 f2 f3 f4 imm => Sys2Proof.Machine.execHacDisp at_ f1 f2 f3 f4 imm s
  | .hacPatch at_ f1 f2 f3 f4 imm => Sys2Proof.Machine.execHacPatch at_ f1 f2 f3 f4 imm s
  | .hacRec at_ f1 f2 f3 f4 imm => Sys2Proof.Machine.execHacRec at_ f1 f2 f3 f4 imm s
  | .hacPol at_ f1 f2 f3 f4 imm => Sys2Proof.Machine.execHacPol at_ f1 f2 f3 f4 imm s
  | .hacCnt at_ f1 f2 f3 f4 imm => Sys2Proof.Machine.execHacCnt at_ f1 f2 f3 f4 imm s
  | .hacCrc at_ f1 f2 f3 f4 imm => Sys2Proof.Machine.execHacCrc at_ f1 f2 f3 f4 imm s
  | .hacDig at_ f1 f2 f3 f4 imm => Sys2Proof.Machine.execHacDig at_ f1 f2 f3 f4 imm s
  | .hacWait at_ f1 f2 f3 f4 imm => Sys2Proof.Machine.execHacWait at_ f1 f2 f3 f4 imm s
  | .crcJobDone handle u => Sys2Proof.Machine.execCrcJobDone handle u s
  | .digJobDone handle corr => Sys2Proof.Machine.execDigJobDone handle corr s
  | .cellRead cell f => Sys2Proof.Machine.execCellRead cell f s
  | .stageFrame p => Sys2Proof.Machine.execStageFrame p s
  | .txStart p => Sys2Proof.Machine.execTxStart p s
  | .txLastByte p => Sys2Proof.Machine.execTxLastByte p s
  | .launchTimeReached p q => Sys2Proof.Machine.execLaunchTimeReached p q s
  | .gateEntry p => Sys2Proof.Machine.execGateEntry p s
  | .gclSwitch p => Sys2Proof.Machine.execGclSwitch p s
  | .residenceCapMiss p q => Sys2Proof.Machine.execResidenceCapMiss p q s
  | .pauseTimerExpire p ix => Sys2Proof.Machine.execPauseTimerExpire p ix s
  | .pauseWdBreak p ix => Sys2Proof.Machine.execPauseWdBreak p ix s
  | .pauseWdHoldEnd p ix => Sys2Proof.Machine.execPauseWdHoldEnd p ix s
  | .xoffChange p c => Sys2Proof.Machine.execXoffChange p c s
  | .fcRefresh p => Sys2Proof.Machine.execFcRefresh p s
  | .xoffCap p c => Sys2Proof.Machine.execXoffCap p c s
  | .tickBoundary tj => Sys2Proof.Machine.execTickBoundary tj s
  | .thermDerateClear => Sys2Proof.Machine.execThermDerateClear s
  | .commitBoundary => Sys2Proof.Machine.execCommitBoundary s
  | .budgetCheckDone => Sys2Proof.Machine.execBudgetCheckDone s
  | .checkRerun => Sys2Proof.Machine.execCheckRerun s
  | .overlayCopyStart b => Sys2Proof.Machine.execOverlayCopyStart b s
  | .overlayCopyDone b => Sys2Proof.Machine.execOverlayCopyDone b s
  | .templateInstall t => Sys2Proof.Machine.execTemplateInstall t s
  | .bankRetire => Sys2Proof.Machine.execBankRetire s
  | .hacRetireEnd => Sys2Proof.Machine.execHacRetireEnd s
  | .policerSweep ix => Sys2Proof.Machine.execPolicerSweep ix s
  | .bufScrubRead f met => Sys2Proof.Machine.execBufScrubRead f met s
  | .bufScrubWriteback met => Sys2Proof.Machine.execBufScrubWriteback met s
  | .tableScrub w struck => Sys2Proof.Machine.execTableScrub w struck s
  | .ledScrub w => Sys2Proof.Machine.execLedScrub w s
  | .ledMirrorFail m => Sys2Proof.Machine.execLedMirrorFail m s
  | .ledRebuildDone ok => Sys2Proof.Machine.execLedRebuildDone ok s
  | .laneFault l => Sys2Proof.Machine.execLaneFault l s
  | .engineParityFault e => Sys2Proof.Machine.execEngineParityFault e s
  | .queueLinkError p => Sys2Proof.Machine.execQueueLinkError p s
  | .supplyClockAlarm a held => Sys2Proof.Machine.execSupplyClockAlarm a held s
  | .dgeClear cause => Sys2Proof.Machine.execDgeClear cause s
  | .dgeClearEnd => Sys2Proof.Machine.execDgeClearEnd s
  | .cruParityFault u => Sys2Proof.Machine.execCruParityFault u s
  | .eclipseDrainEnd => Sys2Proof.Machine.execEclipseDrainEnd s
  | .eclipseReq => Sys2Proof.Machine.execEclipseReq s
  | .engRst e => Sys2Proof.Machine.execEngRst e s
  | .engineResetDone e => Sys2Proof.Machine.execEngineResetDone e s
  | .mgcWatchdogExpire => Sys2Proof.Machine.execMgcWatchdogExpire s
  | .mgcKick => Sys2Proof.Machine.execMgcKick s
  | .mgcReset => Sys2Proof.Machine.execMgcReset s
  | .linkAcquired p => Sys2Proof.Machine.execLinkAcquired p s
  | .anComplete p r => Sys2Proof.Machine.execAnComplete p r s
  | .linkCauseLost p c => Sys2Proof.Machine.execLinkCauseLost p c s
  | .linkCauseCleared p => Sys2Proof.Machine.execLinkCauseCleared p s
  | .linkDebounceExpire p => Sys2Proof.Machine.execLinkDebounceExpire p s
  | .partnerPageChange p => Sys2Proof.Machine.execPartnerPageChange p s
  | .macRst p => Sys2Proof.Machine.execMacRst p s
  | .pcsRst p => Sys2Proof.Machine.execPcsRst p s
  | .anRestart p => Sys2Proof.Machine.execAnRestart p s
  | .sxCfgWrite p v => Sys2Proof.Machine.execSxCfgWrite p v s
  | .verifyReceived p => Sys2Proof.Machine.execVerifyReceived p s
  | .respondReceived p => Sys2Proof.Machine.execRespondReceived p s
  | .verifyTimeout p => Sys2Proof.Machine.execVerifyTimeout p s
  | .mdioC22Write m phy reg data => Sys2Proof.Machine.execMdioC22Write m phy reg data s
  | .mdioC22Read m phy reg => Sys2Proof.Machine.execMdioC22Read m phy reg s
  | .mdioC45Address m prt dev addr => Sys2Proof.Machine.execMdioC45Address m prt dev addr s
  | .mdioC45Write m prt dev addr data => Sys2Proof.Machine.execMdioC45Write m prt dev addr data s
  | .mdioC45Read m prt dev addr => Sys2Proof.Machine.execMdioC45Read m prt dev addr s
  | .mdioC45ReadInc m prt dev => Sys2Proof.Machine.execMdioC45ReadInc m prt dev s
  | .mdioDone m acked data => Sys2Proof.Machine.execMdioDone m acked data s
  | .hostDescFetch f r => Sys2Proof.Machine.execHostDescFetch f r s
  | .txDescArrival f r desc => Sys2Proof.Machine.execTxDescArrival f r desc s
  | .hostReadCompletion f r bytes e => Sys2Proof.Machine.execHostReadCompletion f r bytes e s
  | .hostFrameLastRead f r => Sys2Proof.Machine.execHostFrameLastRead f r s
  | .completionTimeout f r => Sys2Proof.Machine.execCompletionTimeout f r s
  | .hostStallDetect => Sys2Proof.Machine.execHostStallDetect s
  | .hostStallClear => Sys2Proof.Machine.execHostStallClear s
  | .hostStallEscalate => Sys2Proof.Machine.execHostStallEscalate s
  | .rxDescPrefetch f r desc => Sys2Proof.Machine.execRxDescPrefetch f r desc s
  | .hostDataWrite handle ix => Sys2Proof.Machine.execHostDataWrite handle ix s
  | .completionWrite f r => Sys2Proof.Machine.execCompletionWrite f r s
  | .wbCoalesceExpire f r => Sys2Proof.Machine.execWbCoalesceExpire f r s
  | .writeAcknowledged => Sys2Proof.Machine.execWriteAcknowledged s
  | .eventRecordWrite f => Sys2Proof.Machine.execEventRecordWrite f s
  | .elRecordWrite n => Sys2Proof.Machine.execElRecordWrite n s
  | .doorbell f r v => Sys2Proof.Machine.execDoorbell f r v s
  | .ringEnable f r v => Sys2Proof.Machine.execRingEnable f r v s
  | .ringReset f r => Sys2Proof.Machine.execRingReset f r s
  | .ringResetEnd f r => Sys2Proof.Machine.execRingResetEnd f r s
  | .vfEnableSet num ari => Sys2Proof.Machine.execVfEnableSet num ari s
  | .vfEnableClear => Sys2Proof.Machine.execVfEnableClear s
  | .flrInitiate n => Sys2Proof.Machine.execFlrInitiate n s
  | .hifFlr f => Sys2Proof.Machine.execHifFlr f s
  | .flrDone f => Sys2Proof.Machine.execFlrDone f s
  | .ownerFlr => Sys2Proof.Machine.execOwnerFlr s
  | .quiesce f why => Sys2Proof.Machine.execQuiesce f why s
  | .unquiesce f => Sys2Proof.Machine.execUnquiesce f s
  | .mpsMrrsChange mps mrrs => Sys2Proof.Machine.execMpsMrrsChange mps mrrs s
  | .perstAssert => Sys2Proof.Machine.execPerstAssert s
  | .pcieLinkReset c => Sys2Proof.Machine.execPcieLinkReset c s
  | .perstDeassert speed width => Sys2Proof.Machine.execPerstDeassert speed width s
  | .readyTimeout => Sys2Proof.Machine.execReadyTimeout s
  | .irqMessageIssue => Sys2Proof.Machine.execIrqMessageIssue s
  | .irqHeldRelease src => Sys2Proof.Machine.execIrqHeldRelease src s
  | .eoi src => Sys2Proof.Machine.execEoi src s
  | .pendWrite src => Sys2Proof.Machine.execPendWrite src s
  | .irqCntRead rd src => Sys2Proof.Machine.execIrqCntRead rd src s
  | .evlogLoRead rd => Sys2Proof.Machine.execEvlogLoRead rd s
  | .teleSample => Sys2Proof.Machine.execTeleSample s
  | .teleD0Read rd => Sys2Proof.Machine.execTeleD0Read rd s
  | .tlrMove => Sys2Proof.Machine.execTlrMove s
  | .tlrTailWrite v => Sys2Proof.Machine.execTlrTailWrite v s
  | .fifoAgeExpire which => Sys2Proof.Machine.execFifoAgeExpire which s
  | .tblStgGo => Sys2Proof.Machine.execTblStgGo s
  | .tblRdIdxWrite v => Sys2Proof.Machine.execTblRdIdxWrite v s
  | .hacHiWrite w v => Sys2Proof.Machine.execHacHiWrite w v s
  | .cntClr c => Sys2Proof.Machine.execCntClr c s
  | .cntPktLoRead rd => Sys2Proof.Machine.execCntPktLoRead rd s
  | .tcntPktLoRead n => Sys2Proof.Machine.execTcntPktLoRead n s
  | .hitWordRead rd => Sys2Proof.Machine.execHitWordRead rd s
  | .sketchClear => Sys2Proof.Machine.execSketchClear s
  | .sketchClearDone => Sys2Proof.Machine.execSketchClearDone s
  | .sketchQry x => Sys2Proof.Machine.execSketchQry x s
  | .flowRecW0Read rd => Sys2Proof.Machine.execFlowRecW0Read rd s
  | .genReset g => Sys2Proof.Machine.execGenReset g s
  | .recReset f => Sys2Proof.Machine.execRecReset f s
  | .recResetTimer f => Sys2Proof.Machine.execRecResetTimer f s
  | .latentTest f => Sys2Proof.Machine.execLatentTest f s
  | .latentReset f => Sys2Proof.Machine.execLatentReset f s
  | .elFlowWrite n en => Sys2Proof.Machine.execElFlowWrite n en s
  | .tickNumLoRead rd => Sys2Proof.Machine.execTickNumLoRead rd s
  | .statLoRead rd p c => Sys2Proof.Machine.execStatLoRead rd p c s
  | .rcFieldRead rd off be more => Sys2Proof.Machine.execRcFieldRead rd off be more s
  | .tdNsRead rd d => Sys2Proof.Machine.execTdNsRead rd d s
  | .tdRateLoWrite d v => Sys2Proof.Machine.execTdRateLoWrite d v s
  | .tdAdjStep d v => Sys2Proof.Machine.execTdAdjStep d v s
  | .tdAdjSlew d v => Sys2Proof.Machine.execTdAdjSlew d v s
  | .slewDone d => Sys2Proof.Machine.execSlewDone d s
  | .setGo d force => Sys2Proof.Machine.execSetGo d force s
  | .setValid d => Sys2Proof.Machine.execSetValid d s
  | .clrValid d => Sys2Proof.Machine.execClrValid d s
  | .syncTimeout d => Sys2Proof.Machine.execSyncTimeout d s
  | .holdMaxExpire d => Sys2Proof.Machine.execHoldMaxExpire d s
  | .tuSnap => Sys2Proof.Machine.execTuSnap s
  | .leapApply => Sys2Proof.Machine.execLeapApply s
  | .calTimeToDate d => Sys2Proof.Machine.execCalTimeToDate d s
  | .calSecToDate => Sys2Proof.Machine.execCalSecToDate s
  | .calDateToSec => Sys2Proof.Machine.execCalDateToSec s
  | .calDateSet d => Sys2Proof.Machine.execCalDateSet d s
  | .toutArm ix => Sys2Proof.Machine.execToutArm ix s
  | .toutDisarm ix => Sys2Proof.Machine.execToutDisarm ix s
  | .toutEdge ix => Sys2Proof.Machine.execToutEdge ix s
  | .toutPulseEnd ix => Sys2Proof.Machine.execToutPulseEnd ix s
  | .tcapEdge j rising width => Sys2Proof.Machine.execTcapEdge j rising width s
  | .tsqW0Read rd p => Sys2Proof.Machine.execTsqW0Read rd p s
  | .tcapW0Read rd j => Sys2Proof.Machine.execTcapW0Read rd j s
  | .keyLoadGo => Sys2Proof.Machine.execKeyLoadGo s
  | .keyLoadDone => Sys2Proof.Machine.execKeyLoadDone s
  | .sysOpen alg hmac key => Sys2Proof.Machine.execSysOpen alg hmac key s
  | .sysAppend v => Sys2Proof.Machine.execSysAppend v s
  | .sysTail n => Sys2Proof.Machine.execSysTail n s
  | .sysFinal => Sys2Proof.Machine.execSysFinal s
  | .sysAbort => Sys2Proof.Machine.execSysAbort s
  | .streamDone c corr => Sys2Proof.Machine.execStreamDone c corr s
  | .digest15Read rd => Sys2Proof.Machine.execDigest15Read rd s
  | .contextPreempt => Sys2Proof.Machine.execContextPreempt s
  | .dgeCtrlClear => Sys2Proof.Machine.execDgeCtrlClear s
  | .cruJobOpen u j foldLen => Sys2Proof.Machine.execCruJobOpen u j foldLen s
  | .cruJobAppend u j v => Sys2Proof.Machine.execCruJobAppend u j v s
  | .cruJobTail u j n => Sys2Proof.Machine.execCruJobTail u j n s
  | .cruJobFinal u j => Sys2Proof.Machine.execCruJobFinal u j s
  | .cruJobAbort u j => Sys2Proof.Machine.execCruJobAbort u j s
  | .cruPortJobDone u j => Sys2Proof.Machine.execCruPortJobDone u j s
  | .mbxCmdGo f => Sys2Proof.Machine.execMbxCmdGo f s
  | .mbxRplPop f => Sys2Proof.Machine.execMbxRplPop f s
  | .uartByteReceived b stopOk => Sys2Proof.Machine.execUartByteReceived b stopOk s
  | .uartBreak => Sys2Proof.Machine.execUartBreak s
  | .netconFrame => Sys2Proof.Machine.execNetconFrame s
  | .consoleRetry ch => Sys2Proof.Machine.execConsoleRetry ch s
  | .ping ch => Sys2Proof.Machine.execPing ch s
  | .mode ch => Sys2Proof.Machine.execMode ch s
  | .baud ch => Sys2Proof.Machine.execBaud ch s
  | .show ch => Sys2Proof.Machine.execShow ch s
  | .rd ch => Sys2Proof.Machine.execRd ch s
  | .wr ch => Sys2Proof.Machine.execWr ch s
  | .setField ch => Sys2Proof.Machine.execSetField ch s
  | .stageDrop ch => Sys2Proof.Machine.execStageDrop ch s
  | .check ch => Sys2Proof.Machine.execCheck ch s
  | .commit ch => Sys2Proof.Machine.execCommit ch s
  | .log ch => Sys2Proof.Machine.execLog ch s
  | .teleOn ch => Sys2Proof.Machine.execTeleOn ch s
  | .teleOff ch => Sys2Proof.Machine.execTeleOff ch s
  | .mdioRd ch => Sys2Proof.Machine.execMdioRd ch s
  | .mdioWr ch => Sys2Proof.Machine.execMdioWr ch s
  | .resetEngine ch => Sys2Proof.Machine.execResetEngine ch s
  | .resetTenant ch => Sys2Proof.Machine.execResetTenant ch s
  | .resetSelf ch => Sys2Proof.Machine.execResetSelf ch s
  | .resetDevice ch => Sys2Proof.Machine.execResetDevice ch s
  | .digestOpen ch => Sys2Proof.Machine.execDigestOpen ch s
  | .digestData ch => Sys2Proof.Machine.execDigestData ch s
  | .digestFinal ch => Sys2Proof.Machine.execDigestFinal ch s
  | .digestAbort ch => Sys2Proof.Machine.execDigestAbort ch s
  | .updateStatus ch => Sys2Proof.Machine.execUpdateStatus ch s
  | .updateBegin ch norOk => Sys2Proof.Machine.execUpdateBegin ch norOk s
  | .updateData ch norOk => Sys2Proof.Machine.execUpdateData ch norOk s
  | .updateEnd ch norOk => Sys2Proof.Machine.execUpdateEnd ch norOk s
  | .updateActivate ch norOk => Sys2Proof.Machine.execUpdateActivate ch norOk s
  | .updateConfirm ch norOk marginal => Sys2Proof.Machine.execUpdateConfirm ch norOk marginal s
  | .trialTimerExpire st => Sys2Proof.Machine.execTrialTimerExpire st s
  | .powerOn st => Sys2Proof.Machine.execPowerOn st s
  | .deviceReset pin st => Sys2Proof.Machine.execDeviceReset pin st s
  | .porstAssert => Sys2Proof.Machine.execPorstAssert s
  | .railMonitorLow r => Sys2Proof.Machine.execRailMonitorLow r s
  | .pmReqDay => Sys2Proof.Machine.execPmReqDay s
  | .pmReqDusk => Sys2Proof.Machine.execPmReqDusk s
  | .pmReqTwilight => Sys2Proof.Machine.execPmReqTwilight s
  | .pmReqNight => Sys2Proof.Machine.execPmReqNight s
  | .duskSwitch => Sys2Proof.Machine.execDuskSwitch s
  | .duskExitSwitch => Sys2Proof.Machine.execDuskExitSwitch s
  | .biasSettled => Sys2Proof.Machine.execBiasSettled s
  | .drainComplete => Sys2Proof.Machine.execDrainComplete s
  | .drainTimeout => Sys2Proof.Machine.execDrainTimeout s
  | .l2Reached => Sys2Proof.Machine.execL2Reached s
  | .l2WaitTimeout => Sys2Proof.Machine.execL2WaitTimeout s
  | .twNightExpire => Sys2Proof.Machine.execTwNightExpire s
  | .wakePinEdge w rising => Sys2Proof.Machine.execWakePinEdge w rising s
  | .wakePatternMatch p bytes => Sys2Proof.Machine.execWakePatternMatch p bytes s
  | .linkEnergyWake p => Sys2Proof.Machine.execLinkEnergyWake p s
  | .perstWake => Sys2Proof.Machine.execPerstWake s
  | .nightRailsGood st => Sys2Proof.Machine.execNightRailsGood st s
  | .tapReset st => Sys2Proof.Machine.execTapReset st s
  | .extest dr => Sys2Proof.Machine.execExtest dr s
  | .samplePreload dr st => Sys2Proof.Machine.execSamplePreload dr st s
  | .idcode dr st => Sys2Proof.Machine.execIdcode dr st s
  | .highz dr => Sys2Proof.Machine.execHighz dr s
  | .clamp dr => Sys2Proof.Machine.execClamp dr s
  | .extestPulse dr => Sys2Proof.Machine.execExtestPulse dr s
  | .extestTrain dr => Sys2Proof.Machine.execExtestTrain dr s
  | .mbistResult dr st => Sys2Proof.Machine.execMbistResult dr st s
  | .bypass op dr st => Sys2Proof.Machine.execBypass op dr st s
  | .registerWrite f off be v more => Sys2Proof.Machine.execRegisterWrite f off be v more s
  | .sysrstDeassert st => Sys2Proof.Machine.execSysrstDeassert st s
  | .pmeTurnOff => Sys2Proof.Machine.execPmeTurnOff s
  | .ltrMechanismEnable => Sys2Proof.Machine.execLtrMechanismEnable s
  | .railMonitorGood r volts33 st => Sys2Proof.Machine.execRailMonitorGood r volts33 st s
  | .mgcSramUncorrectable => Sys2Proof.Machine.execMgcSramUncorrectable s
  | .uartTxByteEnd => Sys2Proof.Machine.execUartTxByteEnd s
  | .invalidCodeGroup p => Sys2Proof.Machine.execInvalidCodeGroup p s

end Sys2Proof.Machine
end

