-- ==== Sys2Proof/Safety.lean ====
section
/-! DEFINITION. What a sound state of the device is, and what a command leaves as it is, in the terms the statements use. -/

namespace Sys2Proof.Machine

/-- The register files are in their canonical form: no field is listed twice, keys rise strictly, and the file in force lists staged
fields alone. -/
def State.Canonical (s : State) : Prop :=
  mwf s.regs = true ∧ mwf s.force = true ∧ (s.force.all fun x => stagedKey x.1) = true

/-- The parts of the device are there: ports, time domains, MDIO masters, CRUs with their job ports, lanes, overlay banks, contexts of DGE,
timed outputs, capture and event stamp queues have their number, a port its staging slots and classes, the interrupt sources are in
canonical order, and the values of the time domains were taken at instants that have come. -/
def State.Shaped (s : State) : Prop :=
  s.ports.length = 6 ∧ (∀ q ∈ s.ports, q.slots.length = 3 ∧ q.capped.length = 8) ∧ s.td.length = 2 ∧ s.mdio.length = 2
    ∧ s.crus.length = 4 ∧ (∀ c ∈ s.crus, c.ports.length = 2) ∧ s.mas.lanes.length = 4 ∧ s.mas.banks.length = 2
    ∧ s.dge.ctxs.length = 17 ∧ s.tu.tout.length = 8 ∧ s.tu.tcap.length = 4 ∧ s.tu.tsq.length = 6 ∧ mwf s.irc.src = true
    ∧ ∀ x ∈ s.td, x.at_ ≤ s.now

/-- A run is safe as far as a step goes when the step answers a next state. -/
def State.Steps (s : State) : Prop := ∃ t, step s = Host.Outcome.next t

/-- The values of the time domains were taken at instants that have come. -/
def State.ClockOk (s : State) : Prop := ∀ x ∈ s.td, x.at_ ≤ s.now

/-- Every register field but those listed reads in t as it reads in s. -/
def State.RegsBut (s t : State) (l : List Fld) : Prop := ∀ f : Fld, (l.all fun g => Fld.key f != Fld.key g) = true → t.rd f = s.rd f

/-- The latches of every reader but one hold in t what they hold in s (R617). -/
def State.LatchesBut (s t : State) (rd : Reader) : Prop := ∀ (r : Reader) (f : Fld), r ≠ rd → t.latch r f = s.latch r f

/-- The instruction with these fields issues in a place without a trap of R250: its context runs below the instruction limit and is the one
from which its lane issues (R207), its next store word is the instruction, and opcode, phase and fields are in order. -/
def State.Issues (s : State) (a : HacAt) (op : Nat) (f1 f2 : BitVec 4) (f3 f4 : BitVec 8) (imm : BitVec 32) (c : Ctx)
    (b : List Byte) : Prop :=
  s.ctxAt a = some (c, b) ∧ c.fin = .running ∧ s.issues a = true ∧ c.icount < 64 ∧ s.hacWord c.pc = hacEncode op f1 f2 f3 f4 imm
    ∧ badPhase ⟨op, f1.toNat, f2.toNat, f3.toNat, f4.toNat, imm.toNat⟩ c.resolving = false
    ∧ fieldsOk ⟨op, f1.toNat, f2.toNat, f3.toNat, f4.toNat, imm.toNat⟩ = true

/-- In t the context of a place is c', over the same frame bytes; beside it only what holds contexts and the count of work may
differ from s, and the registers listed. -/
def State.HacGives (s t : State) (a : HacAt) (c' : Ctx) (b : List Byte) (l : List Fld) : Prop :=
  t.ctxAt a = some (c', b) ∧ s.RegsBut t l
    ∧ t = { s with tick := { s.tick with work := t.tick.work }, ports := t.ports, hostArr := t.hostArr, mas := t.mas, regs := t.regs,
                   irc := t.irc, hif := t.hif, cyc := t.cyc }

/-- Only the data path may differ in t: registers, interrupts, time with the record of the running cycle, what left the device, buffer,
ledger, ports, frames, lanes, the blocks started in digest and check-value units, rings, events, stamps and the count of work; the
configuration in force, latches, time domains, ladder, power, console, start and pins are as in s. -/
def State.DataPath (s t : State) : Prop :=
  t = { s with regs := t.regs, irc := t.irc, now := t.now, draws := t.draws, sent := t.sent, buf := t.buf, led := t.led, ports := t.ports
               hostArr := t.hostArr, frames := t.frames, mas := t.mas, hif := t.hif, events := t.events, tu := t.tu
               dge := t.dge, crus := t.crus, cyc := t.cyc, tick := { s.tick with work := t.tick.work } }

/-- A counter field counts one more, and stays at its highest value. -/
def State.Counts (s t : State) (f : Fld) : Prop := t.rd f = min (s.rd f + 1) (2 ^ f.width - 1)

/-- The line at the head of the order of service is of a channel and carries a verb with its sequence and arguments, MGC can serve it,
and the verb is not refused there (R494, R501, R521). -/
def State.Serves (s : State) (ch : Channel) (v : ConVerb) (x : ConLine) (q : Option Nat) (a : List Tok) : Prop :=
  s.con.lines.head? = some x ∧ s.conIdle = true ∧ x.ch = chNum ch ∧ s.judgeLine x = .verb v q a ∧ s.verbRefused x.ch v = none

/-- A reader's BAR takes register accesses; MGC needs none (R332, R333, R345, R347). -/
def State.Reached (s : State) (rd : Reader) : Prop :=
  match rd with
  | .mgc => True
  | .owner => s.barOn 16 = true
  | .tenant n => s.barOn n = true

/-- A reader has the owner's registers before it: MGC, or the owner through its BAR. -/
def State.OwnerReached (s : State) (rd : Reader) : Prop :=
  match rd with
  | .mgc => True
  | .owner => s.barOn 16 = true
  | .tenant _ => False

/-- A job without what its blocks have left and when the last of them ends. -/
def Job.still (j : Job) : Job := { j with left := 0, at_ := 0 }

/-- A context with its jobs so. -/
def Ctx.still (c : Ctx) : Ctx := { c with jobs := c.jobs.map Job.still }

/-- In t context c of DGE is x; its other contexts, its pipelines and the frame jobs are as the blocks started by now in s leave them. -/
def State.StreamGives (s t : State) (c : Nat) (x : Stream) : Prop :=
  t.dge.ctxs[c]? = some x ∧ (∀ k : Nat, k ≠ c → t.dge.ctxs[k]? = s.dgeSync.dge.ctxs[k]?)
    ∧ t.dge = { s.dgeSync.dge with ctxs := t.dge.ctxs } ∧ t.mas = s.dgeSync.mas

/-- In t job port j of unit u is x; the unit's other port and the frame jobs are as the blocks started by now in s leave them. -/
def State.PortGives (s t : State) (u j : Nat) (x : CruPort) : Prop :=
  (t.cru u).ports[j]? = some x ∧ (∀ k : Nat, k ≠ j → (t.cru u).ports[k]? = ((s.cruSync u).cru u).ports[k]?)
    ∧ t.cru u = { (s.cruSync u).cru u with ports := (t.cru u).ports } ∧ (∀ w : Nat, w ≠ u → t.cru w = s.cru w)
    ∧ t.mas = (s.cruSync u).mas

/-- The registers of job port J1 of CRU3 in which MGC sets a line's check code up (R458). -/
def j1Regs : List Fld :=
  [jpar R.POLY_LO 3 1, jpar R.POLY_HI 3 1, jpar R.INIT_LO 3 1, jpar R.INIT_HI 3 1, jpar R.XOROUT_LO 3 1, jpar R.XOROUT_HI 3 1,
    R.JPAR_CFG_WIDTH 3 1, R.JPAR_CFG_REFIN 3 1, R.JPAR_CFG_REFOUT 3 1, R.JFOLD_LO 3 1, R.JFOLD_HI 3 1, R.JCTRL_FOLD_LEN 3 1]

/-- In t a line stands in the order of service of s: behind all others, but before those of its own core cycle whose channels come after
its own (R501). -/
def State.LineTaken (s t : State) (x : ConLine) : Prop :=
  ∃ a b, s.con.lines = a ++ b ∧ t.con.lines = a ++ x :: b
    ∧ (∀ y ∈ a.drop (if s.con.serving.isSome then 1 else 0), ¬ (y.at_ / s.cycle = x.at_ / s.cycle ∧ x.ch < y.ch))
    ∧ (∀ y, b.head? = some y → y.at_ / s.cycle = x.at_ / s.cycle ∧ x.ch < y.ch)

/-- Where a line of these bytes carries a check code, MGC has run it on job port J1 of CRU3, with the line's sequence number before the
bytes it covers (R458). -/
def State.J1Ran (t : State) (l : List Byte) : Prop :=
  ∀ b, checkedBytes l = some b → ∃ x : CruPort, (t.cru 3).ports[1]? = some x ∧ x.state = 3
    ∧ x.result = checkCode (((tokens l).head?).bind seqOf) b

/-- Every port but one is as it was. -/
def State.OtherPorts (s t : State) (p : Nat) : Prop := ∀ q : Nat, q ≠ p → t.port q = s.port q

end Sys2Proof.Machine
end

