-- ==== Sys2Proof/Certificates/Slice0/Obligations.lean ====
section
/-! DEFINITION. The statements for the provers. -/

open Sys2Proof Sys2Proof.Machine

/-! ### The machine as a whole -/

/-- A step takes the command at the front of the queue: it is `exec` of it on the state with the queue's rest; on an empty queue the
block idles (the model's choice, log entry 3). -/
def Obligations.StepRunsFront : Prop :=
  ∀ (s : State) (c : Instr) (l : List Instr), s.pending = c :: l →
    step s = exec c { s with pending := l } ∧ (∀ u : State, u.pending = [] → step u = .next u.pass)

/-- Every command completes in every state: none ends in a fault or a refusal. -/
def Obligations.EveryCommandCompletes : Prop :=
  ∀ (c : Instr) (s : State), ∃ t, exec c s = .next t

/-- The state after reset meets the invariants that every step keeps: the register files are canonical and the parts are there. -/
def Obligations.ResetIsSound : Prop :=
  State.reset.Canonical ∧ State.reset.Shaped ∧ State.reset.pending = []

/-- Every step keeps the register files canonical: each field stands in its file at most once, keys rise, and what is in force is of
staged fields alone (R71, R619; the form is the model's, log entry 4). -/
def Obligations.CanonicalKept : Prop :=
  ∀ s t : State, s.Canonical → step s = .next t → t.Canonical

/-- Every step keeps the parts of the device in their number, the interrupt sources in order, and no time domain ahead of the clock. -/
def Obligations.ShapeKept : Prop :=
  ∀ s t : State, s.Shaped → step s = .next t → t.Shaped

/-! ### Frames: arrival, acceptance, resolution (chapters 1 to 4, 6, 8) -/

/-- RX_FRAME_START, ADDRESS_FILTER, FOLD_DECISION, CELL_TAKEN and CLASSIFICATION (R14, R59, R138, R147, R194, R201, R212, R239): a frame stands in
arrival with its SFD instant; the filter decides by the slots in force, and a miss stores nothing more; the fold decision names the
lowest matching template; a frame that stores takes the next free cell; a frame presented to a lane has a context of its source, its
window and the epoch in force, at the entry of its binding. -/
def Obligations.FrameArrival : Prop :=
  ∀ s : State,
    (∀ (p : Port) (e : Bool) (bytes : List Byte), s.looped p = false → s.rd (R.SX_CFG_LPBK p) ≠ 3 → s.receives p = true →
      s.ports.length = 6 → s.arr (.rx p e) = none → s.rd R.PM_STAT_STATE < 2 →
      ∃ (t : State) (v : Arrival), exec (.rxFrameStart p e bytes) s = .next t ∧ t.arr (.rx p e) = some v
        ∧ v.bytes = bytes ∧ v.sfd = s.now ∧ v.src = .port p ∧ v.cls = s.classOf (.port p) bytes ∧ v.filter = .undecided ∧ v.ctx = none
        ∧ (v.envFail = true ↔ ∃ l, (s.port p).lastPass = some l ∧ s.now < l + s.inf (R.ENV_MIN_INTERVAL p) * unitsPerNs)
        ∧ (t.port p).lastPass = (if v.envFail then (s.port p).lastPass else some s.now)
        ∧ (v.storing = true ↔ v.begun ≠ .cannot) ∧ (v.begun = .cannot → v.cells = []) ∧ v.cells.length ≤ 1
        ∧ (s.admissionClosed = false → v.begun = s.beginAs)
        ∧ (∀ b : Arr, b ≠ .rx p e → t.arr b = s.arr b) ∧ s.DataPath t)
    ∧ (∀ (p : Port) (e : Bool) (v : Arrival), s.arr (.rx p e) = some v → v.filter = .undecided →
      ∃ (t : State) (v' : Arrival), exec (.addressFilter p e) s = .next t ∧ t.now = max s.now (s.byteAt p v 6)
        ∧ t.arr (.rx p e) = some v' ∧ v'.filter = s.filterOf p (v.bytes.take 6)
        ∧ (v'.filter = .miss → v'.cells = [] ∧ v'.storing = false)
        ∧ (v'.filter ≠ .miss → v' = { v with filter := v'.filter } ∧ t.buf = s.buf ∧ t.regs = s.regs)
        ∧ (∀ b : Arr, b ≠ .rx p e → t.arr b = s.arr b) ∧ s.DataPath t)
    ∧ (∀ (p : Port) (e : Bool) (v : Arrival), s.arr (.rx p e) = some v → v.tpl = none →
      ∃ t, exec (.foldDecision (.rx p e)) s = .next t ∧ t.arr (.rx p e) = some { v with tpl := some (s.foldFor v) }
        ∧ t = { s with now := max s.now (s.byteAt p v 128), ports := t.ports, cyc := t.cyc })
    ∧ (∀ (f : Func) (r : TxRing) (v : Arrival), s.arr (.host f r) = some v → v.tpl = none → min 128 (v.len - 4) ≤ v.bytes.length →
      ∃ t, exec (.foldDecision (.host f r)) s = .next t ∧ t.arr (.host f r) = some { v with tpl := some (s.foldFor v) }
        ∧ t = { s with hostArr := t.hostArr })
    ∧ (∀ (a : Arr) (v : Arrival) (u s' : State) (i : Nat), s.arr a = some v → v.tpl.isSome = true → v.storing = true → v.noMore = false →
      (match a with
        | .rx p _ => u = s.upTo (s.byteAt p v (s.nextCellByte v)) ∧ s.nextCellByte v ≤ s.inf (R.MAXLEN p)
        | .host _ _ => u = s) →
      s.nextCellByte v ≤ v.bytes.length → v.cells.length < s.cellsNeeded v → s.rxCells a < 72 → (v.begun = .management → s.rd R.MGMT_HELD < 64) →
      u.takeCell (v.begun == .management) = some (i, s') →
      ∃ (t : State) (v' : Arrival), exec (.cellTaken a) s = .next t ∧ t.now = u.now ∧ t.arr a = some v' ∧ v'.cells = v.cells ++ [i]
        ∧ v'.bytes = v.bytes ∧ v'.filter = v.filter ∧ v'.ctx = v.ctx ∧ (∀ b : Arr, b ≠ a → t.arr b = s.arr b) ∧ s.DataPath t)
    ∧ (∀ (f : Func) (r : TxRing) (v : Arrival) (n : Nat), s.arr (.host f r) = some v → min 128 (v.len - 4) ≤ v.bytes.length →
      v.ctx = none → v.lostClass = false → v.begun ≠ .cannot → v.filter ≠ .miss → s.masRuns = true → v.envFail = false →
      s.occupant (.host f r) = none →
      ∃ (t : State) (v' : Arrival), exec (.classification (.host f r) n) s = .next t ∧ t.arr (.host f r) = some v' ∧ v'.ctx.isSome = true
        ∧ v'.bytes = v.bytes ∧ s.DataPath t)
    ∧ (∀ (p : Port) (e : Bool) (v : Arrival), s.arr (.rx p e) = some v → v.ctx = none → v.lostClass = false → v.begun = .ordinary →
      v.envFail = false → v.filter ≠ .undecided → v.filter ≠ .miss → v.desc = none → s.masRuns = true →
      s.occupant (.rx p e) = none → v.bytes.length ≤ s.inf (R.MAXLEN p) →
      ∃ (t : State) (v' : Arrival) (c : Ctx), exec (.classification (.rx p e) 0) s = .next t ∧ t.now = max s.now (s.byteAt p v 128)
        ∧ t.arr (.rx p e) = some v' ∧ v'.ctx = some c ∧ c.src = v.src ∧ c.epoch = s.tick.epoch ∧ c.w = windowOf v.bytes
        ∧ c.resolving = false ∧ c.pc = (s.binding s.tick.epoch v.src).1
        ∧ c.fin = (if (s.binding s.tick.epoch v.src).2 then .running else .closed)
        ∧ c.exits = [] ∧ c.flow = none ∧ s.DataPath t)

/-- RX_LAST_BYTE (R15, R85, R87, R89, R137): in the turn that R87 gives it, the frame is no longer in arrival, whatever its outcome; one with
a bad FCS is counted as ended and in ADM_DISC_FCS, and stores nothing; one that meets every condition is accepted with the flow of its
classification, and counted in ADM_ACC. -/
def Obligations.FrameEnds : Prop :=
  ∀ (s : State) (p : Port) (e : Bool) (frags : List Fragment) (v : Arrival), s.arr (.rx p e) = some v → s.acceptTurn (.rx p e) = true →
    s.loopOpen p e = false →
    ∃ t, exec (.rxLastByte p e frags) s = .next t ∧ t.arr (.rx p e) = none ∧ t.now = max s.now (s.byteAt p v v.bytes.length)
      ∧ s.DataPath t
      ∧ (s.wholeGood p v (if e then [] else frags) = false →
        t.rd (R.ADM_DISC_FCS p) = min (s.rd (R.ADM_DISC_FCS p) + 1) (2 ^ (R.ADM_DISC_FCS p).width - 1) ∧ t.frames = s.frames
          ∧ t.led = s.led)
      ∧ (∀ (u u' : State) (w : Arrival) (c : Ctx) (x : Nat), s.wholeGood p v (if e then [] else frags) = true →
        beNat (sliceD v.bytes 12 2) ≠ 0x8808 → s.bit R.FLT_STAT_ECLIPSE = false →
        64 ≤ v.bytes.length → v.bytes.length ≤ s.inf (R.MAXLEN p) → s.judgedIn p e (if e then [] else frags) v = u →
        u.arr (.rx p e) = some w → w.filter ≠ .miss → w.envFail = false → w.lostClass = false → u.masRuns = true →
        w.begun ≠ .cannot → w.noMore = false → w.ctx = some c → c.fin ≠ .running → w.exits c ≠ [] → u.arrFlow c = some x →
        u.portRate p w.cls w.bytes.length = some u' → (u'.tryAccept u'.newHandle c w x (w.exits c)).why = none →
        ∃ f : Frame, mget t.frames u.newHandle = some f ∧ f.flow = x ∧ f.len = w.len ∧ f.cells = w.cells ∧ f.epoch = c.epoch
          ∧ f.resolved = false)

/-- RESOLUTION and RESOLUTION_RESUME (R17, R51, R102, R263): the first frame in order takes the lowest free lane with the context
that its carry record gives; a frame whose phase was over in classification leaves the lane free; a waiting resolution goes on with its
results. -/
def Obligations.ResolutionRuns : Prop :=
  ∀ s : State, s.masRuns = true → s.mas.lanes.length = 4 →
    (∀ (h l : Nat) (f : Frame), mget s.frames h = some f → s.freeLane (s.resKey f) = some l → s.readyCls l = [] → f.resolved = false → s.inLane h = false →
      (∀ x ∈ s.unresolved, s.resKey f ≤ s.resKey x.2) →
      (f.resume ≠ noResume → f.trapInfo = none → ∃ t, exec (.resolution h 0) s = .next t
        ∧ (t.lane l).res = some (h, s.resCtx f (s.frameBytes f) l) ∧ t = { s with mas := { s.mas with lanes := t.mas.lanes } })
      ∧ (f.resume = noResume ∨ f.trapInfo.isSome = true → ∀ n, ∃ t, exec (.resolution h n) s = .next t
        ∧ (t.lane l).res = none ∧ (∀ g, mget t.frames h = some g → g.resolved = true) ∧ s.DataPath t))
    ∧ (∀ (u : State) (l : Lane) (h : Nat) (c : Ctx), s.unitsSync = u → u.readyCls l = [] → (u.lane l).res = some (h, c) → c.fin = .waiting →
      u.masRuns = true → (∀ j ∈ c.jobs, j.done = true ∧ j.bad = false) →
      ∃ t, exec (.resolutionResume l h 0) s = .next t
        ∧ (t.lane l).res = some (h, advance (Ctx.takeResults { c with fin := .running }))
        ∧ t = { u with mas := { u.mas with lanes := t.mas.lanes } })
    ∧ (∀ (u : State) (l : Lane) (h : Nat) (c : Ctx), s.unitsSync = u → u.readyCls l = [] → (u.lane l).res = none →
      (u.lane l).parked.find? (fun y => y.1 == h) = some (h, c) → u.masRuns = true → (∀ j ∈ c.jobs, j.done = true ∧ j.bad = false) →
      (∀ y ∈ (u.lane l).parked, y.2.jobsReady = true →
        ((mget u.frames h).map u.resKey).getD 0 ≤ ((mget u.frames y.1).map u.resKey).getD 0) →
      ∃ t, exec (.resolutionResume l h 0) s = .next t
        ∧ (t.lane l).res = some (h, advance (Ctx.takeResults { c with fin := .running }))
        ∧ (t.lane l).parked = (u.lane l).parked.filter (fun y => y.1 != h)
        ∧ t = { u with mas := { u.mas with lanes := t.mas.lanes } })

/-! ### Ticks, commits, checks (chapter 2) -/

/-- TICK_BOUNDARY (R36, R41, R43 to R46): a tick opens at the next boundary with the next number; with no commit waiting it lasts
between 63/64 and 65/64 of the period in force, and exactly the period while TD0 is not valid. -/
def Obligations.TickOpens : Prop :=
  ∀ (s : State) (tj : BitVec 11), ∃ t, exec (.tickBoundary tj) s = .next t
    ∧ t.tick.num = s.tick.num + 1 ∧ t.tick.start = max s.now s.nextBoundary
    ∧ (s.tick.commitAt = none → t.tick.epoch = s.tick.epoch ∧ t.force = s.force
      ∧ 63 * (15625 * 2 ^ (s.rd R.TICK_ACTIVE % 8)) ≤ t.tick.len ∧ t.tick.len ≤ 65 * (15625 * 2 ^ (s.rd R.TICK_ACTIVE % 8))
      ∧ (t.tdValid 0 = false → t.tick.len = 64 * (15625 * 2 ^ (s.rd R.TICK_ACTIVE % 8))
        ∧ t.bit R.TICK_STAT_TICK_UNSYNCED = true ∧ t.bit R.TICK_STAT_TICK_SLEWING = false))

/-- COMMIT_BOUNDARY (R37, R38, R71): epochs start at 0 at power-on and at a device reset, and each commit that takes effect, here or at
the boundary of a tick in which Eclipse is entered, opens the next one, which CFG_EPOCH reports; what is staged comes into force, and
the configuration that frames of the old epoch run under is kept. -/
def Obligations.CommitTakesEffect : Prop :=
  (State.reset.tick.epoch = 0 ∧ State.reset.rd R.CFG_EPOCH = 0)
  ∧ ∀ s : State,
    (s.aonReset.tick.epoch = 0 ∧ s.aonReset.rd R.CFG_EPOCH = 0 ∧ s.stopDevice.tick.epoch = 0 ∧ s.stopDevice.rd R.CFG_EPOCH = 0)
    ∧ (s.tick.commitAt ≠ none → s.commitNow.tick.epoch = (s.tick.epoch + 1) % 2 ^ 32 ∧ s.commitNow.rd R.CFG_EPOCH = (s.tick.epoch + 1) % 2 ^ 32)
    ∧ (∀ n : Nat, s.tick.commitAt = some n → n ≤ s.tick.num → ∃ t, exec .commitBoundary s = .next t
      ∧ t.tick.epoch = (s.tick.epoch + 1) % 2 ^ 32 ∧ t.rd R.CFG_EPOCH = (s.tick.epoch + 1) % 2 ^ 32 ∧ t.tick.commitAt = none
      ∧ t.force = stagedPart s.regs ∧ t.oldForce = s.oldForce ++ [(s.tick.epoch, s.force)] ∧ t.tick.num = s.tick.num)
    ∧ (∀ n : Nat, s.tick.commitAt = some n → s.tick.num < n → exec .commitBoundary s = .next s)

/-- BUDGET_CHECK_DONE, CHECK_RERUN, THERM_DERATE_CLEAR, HAC_RETIRE_END and HAC_HI_WRITE (R5, R69, R75, R270, R272, R536, R587): the verdict
in the registers of the check and what waits for it, the rerun against the configuration in force, the end of derating, the end of
retiring, and the words of the store. -/
def Obligations.ChecksAndStore : Prop :=
  ∀ s : State,
    (∀ (l : List CheckFor), s.tick.checks = .boot :: l → s.mgcStopped = false → s.boot.phase = .config →
      ∃ t, exec .budgetCheckDone s = .next t ∧ t.tick.checks = l
        ∧ ((s.verdict s.stagedCfg).code = 0 → s.bit R.FLT_STAT_ECLIPSE = false → t.bit R.BCHK_STATUS_PASS = true
          ∧ t.rd R.BCHK_STATUS_ENGINE = 0 ∧ t.tick.commitAt = some (s.tick.num + 2) ∧ t.bit R.BCHK_STATUS_PENDING = true
          ∧ t.tick.told = none)
        ∧ ((s.verdict s.stagedCfg).code ≠ 0 → t.boot.phase = .ended ∧ t.bit R.HIF_STAT_READY = true ∧ t.bit R.BOOT_STAT_CFG_FAIL = true
          ∧ t.rd R.CFG_FAIL_IDX = 0xFFFFFF ∧ t.tick.commitAt = s.tick.commitAt))
    ∧ (∀ (l : List CheckFor), s.tick.checks = .dusk :: l → s.mgcStopped = false → s.pm.phase = .duskCheck →
      ∃ t, exec .budgetCheckDone s = .next t ∧ t.tick.checks = l
        ∧ t.bit R.BCHK_STATUS_PASS = ((s.verdict s.forceCfg).code == 0)
        ∧ t.pm.phase = (if (s.verdict s.forceCfg).code = 0 then .duskAt (s.tick.num + 2) else .settled)
        ∧ ((s.verdict s.forceCfg).code ≠ 0 → t.rd R.PM_STAT_REFUSE = 1 ∧ t.bit R.PM_STAT_BUSY = false)
        ∧ s.RegsBut t [R.BCHK_STATUS_PASS, R.BCHK_STATUS_ENGINE, R.BCHK_DEMAND, R.BCHK_CEILING, R.PM_STAT_BUSY, R.PM_STAT_REFUSE, R.EVLOG_LOST]
        ∧ t = { s with regs := t.regs, irc := t.irc, cyc := t.cyc, tick := { s.tick with checks := l }, pm := t.pm })
    ∧ (s.tick.rerun = true → s.mgcStopped = false → ∃ t, exec .checkRerun s = .next t ∧ t.tick.rerun = false
      ∧ t.bit R.BCHK_STATUS_PASS = ((s.verdict s.forceCfg).code == 0)
      ∧ t.rd R.BCHK_STATUS_ENGINE = (s.verdict s.forceCfg).code % 2 ^ R.BCHK_STATUS_ENGINE.width
      ∧ t.rd R.BCHK_DEMAND = (s.verdict s.forceCfg).demand % 2 ^ R.BCHK_DEMAND.width
      ∧ t.rd R.BCHK_CEILING = (s.verdict s.forceCfg).ceiling % 2 ^ R.BCHK_CEILING.width
      ∧ ((s.verdict s.forceCfg).code ≠ 0 → t.bit R.BCHK_STATUS_STALE = true)
      ∧ s.RegsBut t [R.BCHK_STATUS_PASS, R.BCHK_STATUS_ENGINE, R.BCHK_DEMAND, R.BCHK_CEILING, R.BCHK_STATUS_STALE, R.EVLOG_LOST]
      ∧ t = { s with regs := t.regs, irc := t.irc, cyc := t.cyc, tick := { s.tick with rerun := false } })
    ∧ (s.bit R.THERM_STAT_DERATE = true → 16 ≤ s.pm.coolTicks → ∃ t, exec .thermDerateClear s = .next t
      ∧ t.bit R.THERM_STAT_DERATE = false ∧ t.tick.rerun = true ∧ t.pm.coolTicks = 0 ∧ t.force = s.force ∧ t.tick.num = s.tick.num)
    ∧ (s.frames.all (fun x => x.2.resolved || x.2.epoch == s.tick.epoch) = true → (∀ (a : Arr) (v : Arrival) (c : Ctx), s.arr a = some v →
      v.ctx = some c → c.epoch = s.tick.epoch) → ∃ t, exec .hacRetireEnd s = .next t ∧ t.oldForce = [] ∧ t.bit R.HAC_STAT_RETIRING = false
      ∧ t.kept = (s.oldForce ++ s.kept).filter (fun x => s.frames.any (fun f => f.2.epoch == x.1))
      ∧ s.RegsBut t [R.HAC_STAT_RETIRING] ∧ t = { s with regs := t.regs, oldForce := [], kept := t.kept })
    ∧ (∀ (w : HacWord) (v : Dword), s.bitAt R.ENG_RST_STAT 6 = false → s.bit R.FLT_STAT_ECLIPSE = false → s.tick.commitAt = none →
      (s.wordLive w = false → ∃ t, exec (.hacHiWrite w v) s = .next t
        ∧ t.hacWord w = BitVec.ofNat 64 (v.toNat * 2 ^ 32 + s.mas.hacLo) ∧ (∀ k : Nat, k ≠ w → t.hacWord k = s.hacWord k)
        ∧ t = { s with mas := { s.mas with store := t.mas.store } })
      ∧ (s.wordLive w = true → exec (.hacHiWrite w v) s = .next (s.reject (R.HAC_HI w).off 4)))

/-! ### Links and MDIO (chapter 4) -/

/-- LINK_ACQUIRED, AN_COMPLETE, LINK_CAUSE_CLEARED and PARTNER_PAGE_CHANGE (R127 to R131, R164): the state of the link and its rate. -/
def Obligations.LinkUp : Prop :=
  ∀ (s : State) (p : Port), s.ports.length = 6 →
    (s.rd (R.PORT_STAT_STATE p) = 1 → s.rd (R.SX_CFG_LPBK p) ≠ 3 → ∃ t, exec (.linkAcquired p) s = .next t
      ∧ t.bit (R.PORT_STAT_SX_LOCK p) = true ∧ t.bit (R.PORT_STAT_PCS_SYNC p) = true
      ∧ (s.inf (R.PORT_CFG_AN_EN p) = 1 ∧ s.rd (R.SX_CFG_LPBK p) = 0 → t.rd (R.PORT_STAT_STATE p) = 2
        ∧ (s.negotiates p = true → t.sent = .basePage p (s.inf (R.FC_CFG_ADV_PAUSE p) == 1) (s.inf (R.FC_CFG_ADV_ASM p) == 1) :: s.sent)
        ∧ (s.negotiates p = false → t.sent = s.sent)
        ∧ s.RegsBut t [R.PORT_STAT_SX_LOCK p, R.PORT_STAT_PCS_SYNC p, R.PORT_STAT_STATE p] ∧ t = { s with regs := t.regs, sent := t.sent })
      ∧ (¬(s.inf (R.PORT_CFG_AN_EN p) = 1 ∧ s.rd (R.SX_CFG_LPBK p) = 0) → s.faulty p = true ∧ s.rd (R.SX_CFG_LPBK p) = 0 →
        t.rd (R.PORT_STAT_STATE p) = 1 ∧ (t.port p).ready = some (s.rateLimit p) ∧ t = { s with regs := t.regs, ports := t.ports })
      ∧ (¬(s.inf (R.PORT_CFG_AN_EN p) = 1 ∧ s.rd (R.SX_CFG_LPBK p) = 0) → ¬(s.faulty p = true ∧ s.rd (R.SX_CFG_LPBK p) = 0) → t.rd (R.PORT_STAT_STATE p) = 3
        ∧ t.rd (R.PORT_STAT_RATE p) = s.rateLimit p % 8 ∧ t.bit (R.LINK_CHG_LINK_UP_EV p) = true
        ∧ t.rd (R.FC_STAT_RX_HELD p) = 0 ∧ s.OtherPorts t p
        ∧ t = { s with regs := t.regs, irc := t.irc, cyc := t.cyc, ports := t.ports, sent := t.sent, tick := { s.tick with rerun := t.tick.rerun } }))
    ∧ (∀ r : AnResult, s.rd (R.PORT_STAT_STATE p) = 2 → s.inf (R.PORT_CFG_IF p) ≠ 3 → r.link = true →
      r.rate.val ≤ rateCodes (s.inf (R.PORT_CFG_IF p)) → ∃ t, exec (.anComplete p r) s = .next t
      ∧ t.bit (R.PORT_STAT_AN_DONE p) = true
      ∧ (r.fullDuplex = false → t.rd (R.PORT_STAT_STATE p) = 4 ∧ t.bit (R.PORT_STAT_DUPLEX_FAULT p) = true ∧ t = { s with regs := t.regs })
      ∧ (r.fullDuplex = true → s.rateCap p < r.rate.val → t.rd (R.PORT_STAT_STATE p) = 4
        ∧ t.bit (R.PORT_STAT_RATE_FAULT p) = true ∧ t = { s with regs := t.regs })
      ∧ (r.fullDuplex = true → r.rate.val ≤ s.rateCap p → s.faulty p = false → t.rd (R.PORT_STAT_STATE p) = 3
        ∧ t.rd (R.PORT_STAT_RATE p) = min r.rate.val (s.rateLimit p) ∧ t.bit (R.LINK_CHG_LINK_UP_EV p) = true ∧ s.OtherPorts t p
        ∧ t = { s with regs := t.regs, irc := t.irc, cyc := t.cyc, ports := t.ports, sent := t.sent, tick := { s.tick with rerun := t.tick.rerun } }))
    ∧ (∀ r : AnResult, s.rd (R.PORT_STAT_STATE p) = 2 → s.inf (R.PORT_CFG_IF p) ≠ 3 →
      r.link = false ∨ rateCodes (s.inf (R.PORT_CFG_IF p)) < r.rate.val → exec (.anComplete p r) s = .next s)
    ∧ (∀ r : AnResult, s.rd (R.PORT_STAT_STATE p) = 2 → s.inf (R.PORT_CFG_IF p) = 3 → r.fullDuplex = true → 2 ≤ s.rateCap p → r.fault = 0 →
      s.faulty p = false → ∃ t, exec (.anComplete p r) s = .next t ∧ t.bit (R.PORT_STAT_AN_DONE p) = true ∧ t.rd (R.PORT_STAT_STATE p) = 3
      ∧ t.rd (R.PORT_STAT_RATE p) = min 2 (s.rateLimit p)
      ∧ t.bit (R.FC_STAT_AN_RX_EN p) = (pauseResolve (s.inf (R.FC_CFG_ADV_PAUSE p) == 1) (s.inf (R.FC_CFG_ADV_ASM p) == 1) r.pause r.asmDir).1
      ∧ t.bit (R.FC_STAT_AN_TX_EN p) = (pauseResolve (s.inf (R.FC_CFG_ADV_PAUSE p) == 1) (s.inf (R.FC_CFG_ADV_ASM p) == 1) r.pause r.asmDir).2
      ∧ s.OtherPorts t p)
    ∧ (∀ k : Nat, (s.port p).ready = some k → s.rd (R.PORT_STAT_STATE p) = 1 ∨ s.rd (R.PORT_STAT_STATE p) = 2 →
      ∃ t, exec (.linkCauseCleared p) s = .next t ∧ t.rd (R.PORT_STAT_STATE p) = 3 ∧ t.rd (R.PORT_STAT_RATE p) = k % 8
        ∧ (t.port p).causes = [] ∧ (t.port p).ready = none)
    ∧ (s.rd (R.PORT_STAT_STATE p) = 5 → ∃ t, exec (.linkCauseCleared p) s = .next t ∧ t.rd (R.PORT_STAT_STATE p) = 3
      ∧ t.rd (R.PORT_STAT_RATE p) = s.rd (R.PORT_STAT_RATE p) % 8 ∧ t.bit (R.PORT_STAT_SX_LOCK p) = true
      ∧ t.bit (R.PORT_STAT_PCS_SYNC p) = true ∧ t.bit (R.PORT_STAT_LOCAL_FAULT p) = false ∧ t.bit (R.PORT_STAT_REMOTE_FAULT p) = false
      ∧ (t.port p).causes = [] ∧ (t.port p).debounceSince = none ∧ s.OtherPorts t p
      ∧ t = { s with regs := t.regs, irc := t.irc, cyc := t.cyc, ports := t.ports, sent := t.sent, tick := { s.tick with rerun := t.tick.rerun } })
    ∧ (s.rd (R.PORT_STAT_STATE p) = 4 → ∃ t, exec (.partnerPageChange p) s = .next t ∧ t.rd (R.PORT_STAT_STATE p) = 1
      ∧ t.bit (R.PORT_STAT_DUPLEX_FAULT p) = false ∧ t.bit (R.PORT_STAT_RATE_FAULT p) = false ∧ s.OtherPorts t p
      ∧ t = { s with regs := t.regs, ports := t.ports })
    ∧ (isUp s p = true → ∃ t, exec (.invalidCodeGroup p) s = .next t ∧ s.Counts t (R.PCS_ERR p) ∧ s.RegsBut t [R.PCS_ERR p]
      ∧ t = { s with regs := t.regs })

/-- LINK_CAUSE_LOST, LINK_DEBOUNCE_EXPIRE, PCS_RST, AN_RESTART and SX_CFG_WRITE (R129, R130, R132, R155): the debounce, the loss of the
link, and the return to ACQUIRE. -/
def Obligations.LinkLoss : Prop :=
  ∀ (s : State) (p : Port), s.ports.length = 6 →
    (∀ c : LinkCause, s.rd (R.PORT_STAT_STATE p) = 3 → s.inf (R.LINK_CFG_LINK_DEBOUNCE p) ≠ 0 → ∃ t, exec (.linkCauseLost p c) s = .next t
      ∧ t.rd (R.PORT_STAT_STATE p) = 5 ∧ c ∈ (t.port p).causes
      ∧ (t.port p).debounceSince = ((s.port p).debounceSince <|> some s.now) ∧ t.rd (R.LINK_LOST_CNT p) = s.rd (R.LINK_LOST_CNT p)
      ∧ s.RegsBut t [R.PORT_STAT_STATE p, R.PORT_STAT_SX_LOCK p, R.PORT_STAT_PCS_SYNC p, R.PORT_STAT_LOCAL_FAULT p,
        R.PORT_STAT_REMOTE_FAULT p, R.QPORT_STAT_VERIFY_STATE p, R.QPORT_STAT_PREEMPT_ACTIVE p, R.QPORT_STAT_HOLD p]
      ∧ t.rd (R.QPORT_STAT_VERIFY_STATE p) = 0 ∧ t.bit (R.QPORT_STAT_PREEMPT_ACTIVE p) = false
      ∧ s.OtherPorts t p ∧ t = { s with regs := t.regs, ports := t.ports, tick := { s.tick with rerun := t.tick.rerun } })
    ∧ (∀ c : LinkCause, s.rd (R.PORT_STAT_STATE p) = 1 ∨ s.rd (R.PORT_STAT_STATE p) = 2 ∨ s.rd (R.PORT_STAT_STATE p) = 4 →
      ∃ t, exec (.linkCauseLost p c) s = .next t ∧ c ∈ (t.port p).causes ∧ t.rd (R.PORT_STAT_STATE p) = s.rd (R.PORT_STAT_STATE p)
        ∧ s.OtherPorts t p ∧ t = { s with regs := t.regs, ports := t.ports })
    ∧ (∀ c : LinkCause, s.rd (R.PORT_STAT_STATE p) = 3 → s.inf (R.LINK_CFG_LINK_DEBOUNCE p) = 0 → ∃ t, exec (.linkCauseLost p c) s = .next t
      ∧ t.rd (R.PORT_STAT_STATE p) = 1 ∧ t.bit (R.LINK_CHG_LINK_LOST_EV p) = true ∧ s.Counts t (R.LINK_LOST_CNT p))
    ∧ (s.rd (R.PORT_STAT_STATE p) = 5 → ∃ t, exec (.linkDebounceExpire p) s = .next t ∧ t.rd (R.PORT_STAT_STATE p) = 1
      ∧ t.now = max s.now (((s.port p).debounceSince.getD s.now) + s.inf (R.LINK_CFG_LINK_DEBOUNCE p) * 64000)
      ∧ t.bit (R.LINK_CHG_LINK_LOST_EV p) = true ∧ s.Counts t (R.LINK_LOST_CNT p) ∧ t.force = s.force)
    ∧ (s.rd (R.PORT_STAT_STATE p) = 0 → exec (.pcsRst p) s = .next s ∧ exec (.anRestart p) s = .next s)
    ∧ (s.rd (R.PORT_STAT_STATE p) = 3 ∨ s.rd (R.PORT_STAT_STATE p) = 5 → ∃ t, exec (.pcsRst p) s = .next t
      ∧ exec (.anRestart p) s = .next t ∧ t.rd (R.PORT_STAT_STATE p) = 1 ∧ t.bit (R.LINK_CHG_LINK_LOST_EV p) = true
      ∧ s.Counts t (R.LINK_LOST_CNT p) ∧ t.rd (R.FC_STAT_RX_HELD p) = 0 ∧ t.force = s.force)
    ∧ (s.rd (R.PORT_STAT_STATE p) = 2 ∨ s.rd (R.PORT_STAT_STATE p) = 4 → ∃ t, exec (.pcsRst p) s = .next t
      ∧ exec (.anRestart p) s = .next t ∧ t.rd (R.PORT_STAT_STATE p) = 1 ∧ t = { s with regs := t.regs, ports := t.ports })
    ∧ (∀ v : Dword, s.bitAt R.ENG_RST_STAT p = false → ∃ t, exec (.sxCfgWrite p v) s = .next t
      ∧ t.rd (R.SX_CFG_TX_POL p) = v.toNat % 2 ∧ t.rd (R.SX_CFG_RX_POL p) = v.toNat / 2 % 2 ∧ t.rd (R.SX_CFG_LPBK p) = v.toNat / 4 % 4
      ∧ t.rd (R.SX_CFG_TX_PRE p) = v.toNat / 16 % 16 ∧ t.rd (R.SX_CFG_TX_MAIN p) = v.toNat / 256 % 64
      ∧ t.rd (R.SX_CFG_TX_POST p) = v.toNat / 65536 % 16
      ∧ (t.rd (R.SX_CFG_TX_POL p) = s.rd (R.SX_CFG_TX_POL p) → t.rd (R.SX_CFG_RX_POL p) = s.rd (R.SX_CFG_RX_POL p) →
        t.rd (R.SX_CFG_LPBK p) = s.rd (R.SX_CFG_LPBK p) → t = { s with regs := t.regs }
          ∧ s.RegsBut t [R.SX_CFG_TX_PRE p, R.SX_CFG_TX_MAIN p, R.SX_CFG_TX_POST p, R.SX_CFG_TX_POL p, R.SX_CFG_RX_POL p, R.SX_CFG_LPBK p])
      ∧ (t.rd (R.SX_CFG_LPBK p) ≠ s.rd (R.SX_CFG_LPBK p) → s.rd (R.PORT_STAT_STATE p) ≠ 0 → t.rd (R.PORT_STAT_STATE p) = 1))
    ∧ (∀ v : Dword, s.bitAt R.ENG_RST_STAT p = true → exec (.sxCfgWrite p v) s = .next (s.reject (R.SX_CFG_TX_POL p).off 7))

/-- The six forms of an MDIO transaction and the end of an attempt (R150 to R154): what leaves on the wires, what waits, and what the
end of an attempt makes of the transaction. -/
def Obligations.MdioTransactions : Prop :=
  ∀ (s : State) (m : MdioMaster), s.mdio.length = 2 →
    (∀ (phy reg : Fin 32) (addr data : BitVec 16) (c : Instr) (x : MdioTx),
      (c, x) ∈ [(Instr.mdioC22Write m phy reg data, (⟨0, 1, phy, reg, 0, data.toNat, 0⟩ : MdioTx)),
        (.mdioC22Read m phy reg, ⟨0, 2, phy, reg, 0, 0, 0⟩), (.mdioC45Address m phy reg addr, ⟨1, 0, phy, reg, addr.toNat, 0, 0⟩),
        (.mdioC45Write m phy reg addr data, ⟨1, 1, phy, reg, addr.toNat, data.toNat, 0⟩),
        (.mdioC45Read m phy reg addr, ⟨1, 3, phy, reg, addr.toNat, 0, 0⟩), (.mdioC45ReadInc m phy reg, ⟨1, 2, phy, reg, 0, 0, 0⟩)] →
      (s.bit (R.MDIO_CMD_GO m) = false → s.parked m = false → ∃ t, exec c s = .next t
        ∧ t.bit (R.MDIO_CMD_GO m) = true ∧ t.rd (R.MDIO_CMD_CLAUSE m) = x.clause ∧ t.rd (R.MDIO_CMD_OP m) = x.op
        ∧ t.rd (R.MDIO_CMD_PHYAD m) = phy ∧ t.rd (R.MDIO_CMD_REGAD m) = reg
        ∧ ((s.mdioOf m).running = none → (t.mdioOf m).running = some (0, x) ∧ (t.mdioOf m).owner = none
          ∧ t.sent = .mdio m x.clause x.op x.phy x.reg x.addr x.data :: s.sent)
        ∧ ((s.mdioOf m).running ≠ none → (t.mdioOf m).running = (s.mdioOf m).running ∧ (t.mdioOf m).owner = some x ∧ t.sent = s.sent)
        ∧ s.RegsBut t [R.MDIO_CMD_GO m, R.MDIO_CMD_CLAUSE m, R.MDIO_CMD_OP m, R.MDIO_CMD_PHYAD m, R.MDIO_CMD_REGAD m,
          R.MDIO_ADDR m, R.MDIO_DATA_WDATA m]
        ∧ t = { s with regs := t.regs, mdio := t.mdio, sent := t.sent })
      ∧ (s.bit (R.MDIO_CMD_GO m) = true → ∃ t, exec c s = .next t ∧ t.bit (R.MDIO_STAT_GO_IGNORED m) = true
        ∧ s.RegsBut t [R.MDIO_STAT_GO_IGNORED m, R.MDIO_ADDR m, R.MDIO_DATA_WDATA m] ∧ t = { s with regs := t.regs })
      ∧ (s.bit (R.MDIO_CMD_GO m) = false → s.parked m = true → ∃ t, exec c s = .next t
        ∧ t.bit (R.MDIO_CMD_GO m) = false ∧ t.bit (R.MDIO_STAT_FAIL m) = true ∧ t.bit (R.MDIO_STAT_DONE m) = true
        ∧ t = { s with regs := t.regs, irc := t.irc, cyc := t.cyc }))
    ∧ (∀ (acked : Bool) (data : BitVec 16) (x : MdioTx), (s.mdioOf m).running = some (0, x) → (x.reads = true → acked = true) → s.parked m = false →
      ∃ t, exec (.mdioDone m acked data) s = .next t ∧ t.now = max s.now ((s.mdioOf m).since + s.mdioTime m x) ∧ t.bit (R.MDIO_CMD_GO m) = false ∧ t.bit (R.MDIO_STAT_DONE m) = true
        ∧ t.bit (R.MDIO_STAT_FAIL m) = s.bit (R.MDIO_STAT_FAIL m) ∧ (x.reads = true → t.rd (R.MDIO_DATA_RDATA m) = data.toNat)
        ∧ (x.reads = false → t.rd (R.MDIO_DATA_RDATA m) = s.rd (R.MDIO_DATA_RDATA m))
        ∧ ((s.mdioOf m).mgc = [] → (s.mdioOf m).owner = none → (t.mdioOf m).running = none)
        ∧ (∀ y l, (s.mdioOf m).mgc = y :: l → (t.mdioOf m).running = some y ∧ (t.mdioOf m).mgc = l)
        ∧ s.RegsBut t [R.MDIO_CMD_GO m, R.MDIO_STAT_DONE m, R.MDIO_DATA_RDATA m]
        ∧ t = { s with regs := t.regs, irc := t.irc, mdio := t.mdio, sent := t.sent, now := t.now, cyc := t.cyc })
    ∧ (∀ (k : Nat) (data : BitVec 16) (x : MdioTx), (s.mdioOf m).running = some (k, x) → x.reads = true → s.parked m = false →
      x.tries < s.rd (R.MDIO_CFG_RETRY m) → ∃ t, exec (.mdioDone m false data) s = .next t ∧ t.bit (R.MDIO_STAT_NO_ACK m) = true
        ∧ (t.mdioOf m).running = some (k, { x with tries := x.tries + 1 })
        ∧ t.sent = .mdio m x.clause x.op x.phy x.reg x.addr x.data :: s.sent
        ∧ s.RegsBut t [R.MDIO_STAT_NO_ACK m] ∧ t = { s with regs := t.regs, mdio := t.mdio, sent := t.sent, now := t.now, cyc := t.cyc })
    ∧ (∀ (data : BitVec 16) (x : MdioTx), (s.mdioOf m).running = some (0, x) → x.reads = true → s.parked m = false →
      s.rd (R.MDIO_CFG_RETRY m) ≤ x.tries → ∃ t, exec (.mdioDone m false data) s = .next t ∧ t.bit (R.MDIO_STAT_NO_ACK m) = true
        ∧ t.bit (R.MDIO_STAT_FAIL m) = true ∧ t.bit (R.MDIO_CMD_GO m) = false ∧ t.bit (R.MDIO_STAT_DONE m) = true
        ∧ t.rd (R.MDIO_DATA_RDATA m) = Config.freeValue s.draws % 2 ^ 16 ∧ t.draws = s.draws + 1)

/-! ### Pause (chapter 5) -/

/-- PAUSE_TIMER_EXPIRE, PAUSE_WD_BREAK, PAUSE_WD_HOLD_END, XOFF_CHANGE, FC_REFRESH and XOFF_CAP (R158, R159, R165, R166, R172, R173, R175): the
index that is released, the pause that the watchdog breaks, the end of its hold; and a class that enters and leaves XOFF by its
thresholds, of which the partner is told by one pause frame of 64 bytes where the mode in force sends it. -/
def Obligations.Pause : Prop :=
  ∀ (s : State) (p : Port), s.ports.length = 6 →
    (∀ i : HeldIndex,
      (∀ n, (s.port p).timers.getD i none = some n → (s.port p).loads = [] → ∃ t, exec (.pauseTimerExpire p i) s = .next t ∧ t.now = max s.now n
        ∧ (t.port p).timers.getD i none = none ∧ t.bitAt (R.FC_STAT_RX_HELD p) i = false
        ∧ (∀ j : HeldIndex, j ≠ i → t.bitAt (R.FC_STAT_RX_HELD p) j = s.bitAt (R.FC_STAT_RX_HELD p) j
          ∧ (t.port p).timers.getD j none = (s.port p).timers.getD j none)
        ∧ s.RegsBut t [R.FC_STAT_RX_HELD p] ∧ s.OtherPorts t p ∧ t = { s with now := t.now, regs := t.regs, ports := t.ports, cyc := t.cyc })
      ∧ (s.inf (R.FC_WD_PAUSE_WD_LIMIT p) ≤ (s.port p).wdCount.getD i 0 → s.bit (R.FC_STAT_STRICT_LOCK p) = false →
        ∃ t, exec (.pauseWdBreak p i) s = .next t ∧ t.bitAt (R.FC_STAT_RX_HELD p) i = false
          ∧ t.bitAt (R.PAUSE_WD_STAT_BROKEN p) i = true
          ∧ (s.inf (R.FC_CFG_WD_MODE p) = 0 → s.Counts t (R.PAUSE_BROKEN p) ∧ t.bitAt (R.PAUSE_WD_STAT_HOLDING p) i = true
            ∧ t.bit (R.FC_STAT_STRICT_LOCK p) = false)
          ∧ (s.inf (R.FC_CFG_WD_MODE p) ≠ 0 →
            t.rd (R.PAUSE_BROKEN p) = min (s.rd (R.PAUSE_BROKEN p) + (s.dueBreaks p).length) (2 ^ (R.PAUSE_BROKEN p).width - 1)
            ∧ t.bit (R.FC_STAT_STRICT_LOCK p) = true ∧ t.rd (R.FC_STAT_RX_HELD p) = 0)
          ∧ s.RegsBut t [R.FC_STAT_RX_HELD p, R.PAUSE_BROKEN p, R.PAUSE_WD_STAT_BROKEN p, R.PAUSE_WD_STAT_HOLDING p,
            R.FC_STAT_STRICT_LOCK p, R.EVLOG_LOST]
          ∧ s.OtherPorts t p ∧ t = { s with regs := t.regs, irc := t.irc, ports := t.ports, cyc := t.cyc })
      ∧ (s.bitAt (R.PAUSE_WD_STAT_HOLDING p) i = true → (s.port p).wdHold.getD i 0 ≤ s.tick.num →
        ∃ t, exec (.pauseWdHoldEnd p i) s = .next t ∧ t.bitAt (R.PAUSE_WD_STAT_HOLDING p) i = false
          ∧ (∀ j : HeldIndex, j ≠ i → t.bitAt (R.PAUSE_WD_STAT_HOLDING p) j = s.bitAt (R.PAUSE_WD_STAT_HOLDING p) j)
          ∧ s.RegsBut t [R.PAUSE_WD_STAT_HOLDING p] ∧ t = { s with regs := t.regs }))
    ∧ (∀ c : FrameClass, s.inf (R.FC_CFG_TX_MODE p) ≠ 0 → isUp s p = true → s.bitAt (R.FC_STAT_TX_XOFF p) c = false →
      s.xoffEnters p c = true → ∃ t, exec (.xoffChange p c) s = .next t ∧ t.bitAt (R.FC_STAT_TX_XOFF p) c = true
        ∧ (s.inf (R.FC_CFG_TX_MODE p) ≠ 1 → s.bit R.FLT_STAT_ECLIPSE = false →
          ∃ b, (t.port p).pauseOut = (s.port p).pauseOut ++ [b] ∧ b.length = 64 ∧ b.take 6 = pauseDa)
        ∧ (s.inf (R.FC_CFG_TX_MODE p) = 1 → s.rd (R.FC_STAT_TX_XOFF p) ≠ 0 → (t.port p).pauseOut = (s.port p).pauseOut)
        ∧ s.RegsBut t [R.FC_STAT_TX_XOFF p] ∧ s.OtherPorts t p ∧ t = { s with regs := t.regs, ports := t.ports })
    ∧ (∀ c : FrameClass, s.bitAt (R.FC_STAT_TX_XOFF p) c = true → s.xoffLeaves p c = true →
      ∃ t, exec (.xoffChange p c) s = .next t ∧ t.bitAt (R.FC_STAT_TX_XOFF p) c = false
        ∧ (s.inf (R.FC_CFG_TX_MODE p) ≠ 0 → s.inf (R.FC_CFG_TX_MODE p) ≠ 1 → isUp s p = true → s.bit R.FLT_STAT_ECLIPSE = false →
          ∃ b, (t.port p).pauseOut = (s.port p).pauseOut ++ [b] ∧ b.length = 64 ∧ b.take 6 = pauseDa)
        ∧ (s.inf (R.FC_CFG_TX_MODE p) = 0 ∨ isUp s p = false → (t.port p).pauseOut = (s.port p).pauseOut)
        ∧ s.RegsBut t [R.FC_STAT_TX_XOFF p] ∧ s.OtherPorts t p ∧ t = { s with regs := t.regs, ports := t.ports })
    ∧ (s.rd (R.FC_STAT_TX_XOFF p) ≠ 0 → s.inf (R.FC_CFG_TX_MODE p) ≠ 0 →
      (s.inf (R.FC_CFG_TX_MODE p) = 1 → s.bit (R.FC_STAT_AN_TX_EN p) = true) → s.bit R.FLT_STAT_ECLIPSE = false → isUp s p = true →
      ∃ (t : State) (b : List Byte), exec (.fcRefresh p) s = .next t
        ∧ t.now = max s.now ((s.port p).refreshAt + s.inf (R.FC_REFRESH p) * 64000)
        ∧ (t.port p).pauseOut = (s.port p).pauseOut ++ [b] ∧ b.length = 64 ∧ b.take 6 = pauseDa ∧ (t.port p).refreshAt = t.now
        ∧ s.OtherPorts t p ∧ t = { s with now := t.now, ports := t.ports, cyc := t.cyc })
    ∧ (∀ c : FrameClass, s.bitAt (R.FC_STAT_TX_XOFF p) c = true → (s.port p).capped.getD c false = false → (s.port p).capped.length = 8 →
      s.inf (R.FC_XOFF_MAX p) ≤ (s.port p).xoffTicks.getD c 0 → ∃ t, exec (.xoffCap p c) s = .next t
        ∧ (t.port p).capped.getD c false = true ∧ s.Counts t (R.TX_XOFF_CAP p) ∧ t.rd (R.FC_STAT_TX_XOFF p) = s.rd (R.FC_STAT_TX_XOFF p)
        ∧ s.RegsBut t [R.TX_XOFF_CAP p] ∧ s.OtherPorts t p ∧ t = { s with regs := t.regs, ports := t.ports })

/-! ### Buffer, ledger memories (chapters 3 and 6) -/

/-- A cell whose stripes are as stored reads as its 128 bytes, and so it does with any one stripe lost to a bank or an uncorrectable word
(R178, R183). -/
def Obligations.StripesRebuild : Prop :=
  ∀ (s : State) (cell : Nat) (c : CellRec) (f : CellFault), c.ccrc = ccrcOf cell (sliceD c.bytes 0 128) → f.silent = [] →
    (((List.range 5).filter (fun k => s.bitAt R.BUF_STAT_BANK_FAIL k || f.unc.getD k 0 != 0)).length ≤ 1 →
      (s.readCell cell c f).data = some (sliceD c.bytes 0 128))
    ∧ (2 ≤ ((List.range 5).filter (fun k => s.bitAt R.BUF_STAT_BANK_FAIL k || f.unc.getD k 0 != 0)).length →
      (s.readCell cell c f).data = none)

/-- CELL_READ, BUF_SCRUB_READ, BUF_SCRUB_WRITEBACK and TEMPLATE_INSTALL (R183, R190 to R193, R205): the counters of a read, the instant and the
index of the scrub, which skips a cell that a write meets, the cell that is written back, and the template's new content. -/
def Obligations.BufferReads : Prop :=
  ∀ s : State,
    (∀ (i : Cell) (c : CellRec) (f : CellFault), mget s.buf.cells i.val = some (some c) → f.link = 0 → (s.readCell i c f).data.isSome = true →
      ∃ t, exec (.cellRead i f) s = .next t
        ∧ t.rd R.ECC_CORR_CNT = min (s.rd R.ECC_CORR_CNT + (s.readCell i c f).corr) (2 ^ 32 - 1)
        ∧ t.rd R.ECC_UNC_CNT = min (s.rd R.ECC_UNC_CNT + (s.readCell i c f).unc) (2 ^ 32 - 1)
        ∧ ((s.readCell i c f).crcFail = true → s.Counts t R.CRC_FAIL_CNT) ∧ ((s.readCell i c f).rebuild = true → s.Counts t R.REBUILD_CNT)
        ∧ t.rd R.DATA_FAULT_CNT = s.rd R.DATA_FAULT_CNT
        ∧ s.RegsBut t [R.ECC_CORR_CNT, R.ECC_UNC_CNT, R.CRC_FAIL_CNT, R.REBUILD_CNT]
        ∧ t = { s with regs := t.regs, buf := { s.buf with uncTick := t.buf.uncTick, writeFail := t.buf.writeFail } })
    ∧ (∀ (i : Cell) (c : CellRec) (f : CellFault), mget s.buf.cells i.val = some (some c) → f.link = 0 → (s.readCell i c f).data = none →
      s.frameOfCell i = none → ∃ t, exec (.cellRead i f) s = .next t ∧ s.Counts t R.DATA_FAULT_CNT ∧ t.rd R.FAULT_CELL = i.val
        ∧ (t.src 226).latch = true ∧ t = { s with regs := t.regs, irc := t.irc, cyc := t.cyc, buf := t.buf })
    ∧ (∀ f : CellFault, s.bit R.SCRUB_CFG_EN = true → (mgetD s.buf.cells s.buf.scrubAt none).isNone = true →
      ∃ t, exec (.bufScrubRead f false) s = .next t ∧ t.now = max s.now s.scrubNext ∧ t.buf.scrubRead = some t.now
        ∧ t.bit R.BUF_STAT_SCRUB_ACTIVE = true ∧ t.buf.writeback = none
        ∧ t.buf.scrubAt = (if s.buf.scrubAt + 1 < cellCount then s.buf.scrubAt + 1 else 0)
        ∧ t.rd R.SCRUB_PASS = (if s.buf.scrubAt + 1 < cellCount then s.rd R.SCRUB_PASS
          else min (s.rd R.SCRUB_PASS + 1) (2 ^ R.SCRUB_PASS.width - 1))
        ∧ t.rd R.ECC_UNC_CNT = min (s.rd R.ECC_UNC_CNT + f.unc.sum) (2 ^ 32 - 1)
        ∧ t.buf.cells = s.buf.cells ∧ s.RegsBut t [R.BUF_STAT_SCRUB_ACTIVE, R.SCRUB_PASS, R.ECC_UNC_CNT]
        ∧ t = { s with now := t.now, regs := t.regs, buf := t.buf, cyc := t.cyc })
    ∧ (∀ last : Nat, s.buf.scrubRead = some last → s.scrubNext = last + s.rd R.SCRUB_CFG_INTERVAL * s.cycle)
    ∧ (∀ f : CellFault, s.bit R.SCRUB_CFG_EN = false → exec (.bufScrubRead f false) s = .next s)
    ∧ (∀ f : CellFault, s.bit R.SCRUB_CFG_EN = true → ∃ t, exec (.bufScrubRead f true) s = .next t
        ∧ t.now = max s.now s.scrubNext ∧ t.buf.scrubAt = (if s.buf.scrubAt + 1 < cellCount then s.buf.scrubAt + 1 else 0)
        ∧ t.rd R.ECC_UNC_CNT = s.rd R.ECC_UNC_CNT ∧ t.rd R.ECC_CORR_CNT = s.rd R.ECC_CORR_CNT
        ∧ t.buf.uncTick = s.buf.uncTick ∧ t.buf.writeback = none ∧ t.buf.cells = s.buf.cells
        ∧ t = { s with now := t.now, regs := t.regs, buf := t.buf, cyc := t.cyc })
    ∧ (∀ (f : CellFault) (c : CellRec), s.bit R.SCRUB_CFG_EN = true → mget s.buf.cells s.buf.scrubAt = some (some c) → f.link = 0 →
      (s.readCell s.buf.scrubAt c f).data.isSome = true → ∃ t, exec (.bufScrubRead f false) s = .next t
        ∧ t.buf.writeback = (if f.corrected ≠ 0 ∨ (s.readCell s.buf.scrubAt c f).rebuild = true then some s.buf.scrubAt else none)
        ∧ t.buf.cells = s.buf.cells ∧ t = { s with now := t.now, regs := t.regs, buf := t.buf, cyc := t.cyc })
    ∧ (∀ (i : Nat) (c : CellRec), s.buf.writeback = some i → mget s.buf.cells i = some (some c) →
      ∃ t, exec (.bufScrubWriteback false) s = .next t
        ∧ mget t.buf.cells i = some (some { c with ccrc := ccrcOf i c.bytes })
        ∧ (∀ k, k ≠ i → mget t.buf.cells k = mget s.buf.cells k) ∧ t.buf.writeback = none
        ∧ t = { s with buf := { s.buf with cells := t.buf.cells, writeback := none } })
    ∧ (∀ (i : Nat) (met : Bool), s.buf.writeback = some i → met = true ∨ (mgetD s.buf.cells i none).isNone = true →
        exec (.bufScrubWriteback met) s = .next { s with buf := { s.buf with writeback := none } })
    ∧ (∀ (x : Template) (v : Tpl), s.tplRefs x = 0 → mget s.buf.tplPend x = some v → ∃ t, exec (.templateInstall x) s = .next t
        ∧ (v ≠ mgetD s.buf.tplForce x ⟨false, 14, 0, []⟩ → mget t.buf.tplForce x = some v) ∧ mget t.buf.tplPend x = none
        ∧ (∀ k : Nat, k ≠ x → mget t.buf.tplForce k = mget s.buf.tplForce k)
        ∧ t = { s with buf := { s.buf with tplForce := t.buf.tplForce, tplPend := t.buf.tplPend } })
    ∧ (∀ x : Template, s.tplRefs x ≠ 0 → exec (.templateInstall x) s = .next s)

/-- LED_SCRUB, LED_MIRROR_FAIL and LED_REBUILD_DONE (R105 to R108): a corrected word is counted, a mirror that fails is rebuilt from the
other, and the rebuilt mirror is in service again or the ledger stays degraded. -/
def Obligations.LedgerMirrors : Prop :=
  ∀ s : State,
    exec (.ledScrub .clean) s = .next s
    ∧ (∃ t, exec (.ledScrub .corrected) s = .next t ∧ s.Counts t R.MIRROR_ERR_CNT ∧ s.RegsBut t [R.MIRROR_ERR_CNT] ∧ t = { s with regs := t.regs })
    ∧ (∀ m : Mirror, exec (.ledScrub (.uncorrectable m)) s = exec (.ledMirrorFail m) s)
    ∧ (∀ m : Mirror, s.bit (mirrorFlag m) = false → s.bit (mirrorFlag (1 - m)) = false → ∃ t, exec (.ledMirrorFail m) s = .next t
      ∧ t.bit (mirrorFlag m) = true ∧ t.bit (mirrorFlag (1 - m)) = false ∧ t.bit R.LED_STAT_REBUILD = true ∧ t.led.rebuilt = 0
      ∧ s.RegsBut t [mirrorFlag m, R.LED_STAT_REBUILD, R.EVLOG_LOST]
      ∧ t = { s with regs := t.regs, irc := t.irc, cyc := t.cyc, led := { s.led with rebuilt := 0 } })
    ∧ (∀ m : Mirror, s.bit (mirrorFlag m) = false → s.bit (mirrorFlag (1 - m)) = true → s.bit R.FLT_STAT_ECLIPSE = false →
      s.commitDue = false → ∃ t, exec (.ledMirrorFail m) s = .next t ∧ t.bit R.FLT_STAT_ECLIPSE = true ∧ t.rd R.ECL_CAUSE = 3 ∧ t.bit R.FLT_STAT_ECL_DRAIN = false)
    ∧ (s.bit R.LED_STAT_M0_FAIL = false → s.bit R.LED_STAT_M1_FAIL = false → s.bit R.FLT_STAT_ECLIPSE = false →
      s.commitDue = false → ∃ t, exec (.ledScrub .differ) s = .next t ∧ t.bit R.FLT_STAT_ECLIPSE = true ∧ t.rd R.ECL_CAUSE = 4
        ∧ t.bit R.FLT_STAT_ECL_DRAIN = false)
    ∧ (∀ ok : Bool, s.bit R.LED_STAT_REBUILD = true → 16 ≤ s.led.rebuilt → ∃ t, exec (.ledRebuildDone ok) s = .next t
      ∧ t.bit R.LED_STAT_REBUILD = false
      ∧ (ok = true → (s.bit R.LED_STAT_M0_FAIL = true → t.bit R.LED_STAT_M0_FAIL = false)
        ∧ (s.bit R.LED_STAT_M0_FAIL = false → t.bit R.LED_STAT_M1_FAIL = false))
      ∧ (ok = false → t.bit R.LED_STAT_DEGRADED = true ∧ t.bit R.LED_STAT_M0_FAIL = s.bit R.LED_STAT_M0_FAIL)
      ∧ s.RegsBut t [R.LED_STAT_REBUILD, R.LED_STAT_M0_FAIL, R.LED_STAT_M1_FAIL, R.LED_STAT_DEGRADED, R.EVLOG_LOST]
      ∧ t = { s with regs := t.regs, irc := t.irc, cyc := t.cyc })

/-! ### Lookup tables, policers, counters, sketch (chapter 7) -/

/-- TABLE_SCRUB, SKETCH_CLEAR, SKETCH_CLEAR_DONE and SKETCH_QRY (R219, R234, R236, R237): the table scrub moves to the next word, a corrected
word counts and is good again, an uncorrectable one that was not yet reported counts, is named and raises its source; a clear of the
sketch begins, and ends with every counter it had not yet reached at 0; a query latches the four counters of its flow and their
minimum. What a scrub reads is the word with the errors that have struck it since. -/
def Obligations.ScrubAndSketch : Prop :=
  ∀ s : State,
    (∀ (w : WordState) (struck : List (Nat × WordState)), exec (.tableScrub w struck) s = exec (.tableScrub w []) (s.strike struck)
      ∧ (∃ t, exec (.tableScrub w struck) s = .next t ∧ t.mas.scrubAt = (s.mas.scrubAt + 1) % tableWords))
    ∧ (mget s.mas.words s.mas.scrubAt = none → exec (.tableScrub .clean []) s
        = .next { s with mas := { s.mas with scrubAt := (s.mas.scrubAt + 1) % tableWords } })
    ∧ (∀ w : WordState, (w = .corrected ∧ mget s.mas.words s.mas.scrubAt ≠ some .uncorrectable
        ∨ w = .clean ∧ mget s.mas.words s.mas.scrubAt = some .corrected) → ∃ t, exec (.tableScrub w []) s = .next t
      ∧ t.mas.scrubAt = (s.mas.scrubAt + 1) % tableWords ∧ t.mas.words = mdel s.mas.words s.mas.scrubAt
      ∧ t.rd R.TBL_ECC_CORR = min (s.rd R.TBL_ECC_CORR + 1) (2 ^ 32 - 1) ∧ s.RegsBut t [R.TBL_ECC_CORR]
      ∧ t = { s with regs := t.regs, mas := { s.mas with scrubAt := t.mas.scrubAt, words := t.mas.words } })
    ∧ (∀ w : WordState, w = .uncorrectable ∨ mget s.mas.words s.mas.scrubAt = some .uncorrectable →
      s.mas.reported.contains s.mas.scrubAt = false → ∃ t, exec (.tableScrub w []) s = .next t
      ∧ t.mas.scrubAt = (s.mas.scrubAt + 1) % tableWords ∧ t.mas.words = mput s.mas.words s.mas.scrubAt .uncorrectable
      ∧ t.mas.reported = s.mas.scrubAt :: s.mas.reported ∧ t.rd R.TBL_ECC_UNC = min (s.rd R.TBL_ECC_UNC + 1) (2 ^ 32 - 1)
      ∧ (t.src 228).latch = true ∧ s.RegsBut t [R.TBL_ECC_UNC, R.TBL_FAULT_IDX]
      ∧ t = { s with regs := t.regs, irc := t.irc, cyc := t.cyc, mas := t.mas })
    ∧ (s.bitAt R.ENG_RST_STAT 6 = false → s.bit R.SKETCH_STAT_CLEARING = false → ∃ t, exec .sketchClear s = .next t
      ∧ t.bit R.SKETCH_STAT_CLEARING = true ∧ t.mas.sketchClear = some (s.now, 0)
      ∧ s.RegsBut t [R.SKETCH_STAT_CLEARING] ∧ t = { s with regs := t.regs, mas := { s.mas with sketchClear := t.mas.sketchClear } })
    ∧ (∀ from_ done, s.mas.sketchClear = some (from_, done) → ∃ t, exec .sketchClearDone s = .next t
      ∧ t.bit R.SKETCH_STAT_CLEARING = false ∧ t.mas.sketchClear = none ∧ t.now = max s.now (from_ + 8192 * s.cycle)
      ∧ (∀ r x, done ≤ sketchIdx r x → t.sketchAt r x = 0)
      ∧ s.RegsBut t [R.SKETCH_STAT_CLEARING] ∧ t = { s with regs := t.regs, now := t.now, cyc := t.cyc, mas := t.mas })
    ∧ (∀ x : BitVec 16, s.bitAt R.ENG_RST_STAT 6 = false → ∃ t, exec (.sketchQry x) s = .next t
      ∧ (∀ r : Fin 4, t.rd (R.SKETCH_ROW r) = s.sketchSync.sketchAt r x.toNat % 2 ^ 32)
      ∧ t.rd R.SKETCH_EST = min (min (s.sketchSync.sketchAt 0 x.toNat) (s.sketchSync.sketchAt 1 x.toNat))
        (min (s.sketchSync.sketchAt 2 x.toNat) (s.sketchSync.sketchAt 3 x.toNat)) % 2 ^ 32
      ∧ s.RegsBut t (R.SKETCH_QRY :: R.SKETCH_EST :: (List.range 4).map R.SKETCH_ROW)
      ∧ t = { s with regs := t.regs, mas := s.sketchSync.mas })

/-- HIT_WORD_READ, CNT_PKT_LO_READ, TCNT_PKT_LO_READ and CNT_CLR (R220, R230, R614): a read of hit bits clears them, a read of a
counter latches its other words for its reader, and a cleared counter reads 0. -/
def Obligations.CounterReads : Prop :=
  ∀ s : State,
    (∀ rd : Reader, s.OwnerReached rd → ∃ t, exec (.hitWordRead rd) s = .next t
      ∧ t.sent = .readData rd R.HIT_WORD.off (mgetD s.mas.hits (s.rd R.HIT_SEL) 0) :: s.sent
      ∧ (∀ i, mget t.mas.hits i = if i = s.rd R.HIT_SEL then none else mget s.mas.hits i)
      ∧ t = { s with sent := t.sent, mas := { s.mas with hits := t.mas.hits } })
    ∧ (∀ rd : Reader, s.OwnerReached rd → ∃ t, exec (.cntPktLoRead rd) s = .next t
      ∧ t.sent = .readData rd R.CNT_PKT_LO.off ((s.counter (s.rd R.CNT_SEL)).1 % 2 ^ 32) :: s.sent
      ∧ t.latch rd R.CNT_PKT_HI = (s.counter (s.rd R.CNT_SEL)).1 / 2 ^ 32
      ∧ t.latch rd R.CNT_BYTE_LO = (s.counter (s.rd R.CNT_SEL)).2 % 2 ^ 32
      ∧ t.latch rd R.CNT_BYTE_HI = (s.counter (s.rd R.CNT_SEL)).2 / 2 ^ 32
      ∧ s.LatchesBut t rd ∧ t = { s with sent := t.sent, latches := t.latches })
    ∧ (∀ n : Tenant, s.barOn n = true → s.rd (R.TCNT_SEL n) < s.inf (R.PART_CNT_CNT_NUM n) →
      ∃ t, exec (.tcntPktLoRead n) s = .next t
        ∧ t.sent = .readData (.tenant n) (R.TCNT_PKT_LO n).off
          ((s.counter (s.inf (R.PART_CNT_CNT_BASE n) + s.rd (R.TCNT_SEL n))).1 % 2 ^ 32) :: s.sent
        ∧ t.latch (.tenant n) (R.TCNT_BYTE_LO n) = (s.counter (s.inf (R.PART_CNT_CNT_BASE n) + s.rd (R.TCNT_SEL n))).2 % 2 ^ 32
        ∧ s.LatchesBut t (.tenant n) ∧ t = { s with sent := t.sent, latches := t.latches })
    ∧ (∀ n : Tenant, s.barOn n = true → s.inf (R.PART_CNT_CNT_NUM n) ≤ s.rd (R.TCNT_SEL n) →
      ∃ t, exec (.tcntPktLoRead n) s = .next t ∧ t.sent = .readData (.tenant n) (R.TCNT_PKT_LO n).off 0 :: s.sent
        ∧ t.rd (R.TEN_VIOL n) = min (s.rd (R.TEN_VIOL n) + 1) (2 ^ (R.TEN_VIOL n).width - 1) ∧ (t.src 237).latch = true
        ∧ s.RegsBut t [R.TEN_VIOL n] ∧ t = { s with sent := t.sent, latches := t.latches, regs := t.regs, irc := t.irc, cyc := t.cyc })
    ∧ (∀ c : Counter, s.bitAt R.ENG_RST_STAT 6 = false → ∃ t, exec (.cntClr c) s = .next t ∧ t.counter c = (0, 0)
      ∧ (∀ i, i ≠ c.val → t.counter i = s.counter i) ∧ t = { s with mas := { s.mas with counters := t.mas.counters } })
    ∧ (∀ c : Counter, s.bitAt R.ENG_RST_STAT 6 = true → exec (.cntClr c) s = .next (s.reject R.CNT_CLR.off 7))

/-- TBL_STG_GO and TBL_RD_IDX_WRITE (R233): a staged entry goes to the bank in STAGING, or to a free one, at its table and index;
the read window shows the entry that the newest epoch sees. -/
def Obligations.TableStaging : Prop :=
  ∀ s : State, s.bitAt R.ENG_RST_STAT 6 = false →
    (∀ b : Nat, s.bit R.FLT_STAT_ECLIPSE = false → s.tick.commitAt = none → s.mas.stgGo ≤ s.now → s.stgBank = some b →
      b < s.mas.banks.length →
      (s.rd R.TBL_STG_SEL = 0 → s.rd R.TBL_STG_IDX < 32768 → s.stgExact.2 = false →
        (s.mas.banks.getD b Overlay.reset).exact.length < 512 →
        ∃ t, exec .tblStgGo s = .next t ∧ (t.mas.banks.getD b Overlay.reset).state = .staging
          ∧ mget (t.mas.banks.getD b Overlay.reset).exact (s.rd R.TBL_STG_IDX) = some s.stgExact.1
          ∧ (∀ c, c ≠ b → t.mas.banks[c]? = s.mas.banks[c]?) ∧ t = { s with mas := t.mas })
      ∧ (s.rd R.TBL_STG_SEL = 1 → s.rd R.TBL_STG_IDX < 1024 → s.stgTern.2 = false →
        (s.mas.banks.getD b Overlay.reset).tern.length < 64 →
        ∃ t, exec .tblStgGo s = .next t ∧ (t.mas.banks.getD b Overlay.reset).state = .staging
          ∧ mget (t.mas.banks.getD b Overlay.reset).tern (s.rd R.TBL_STG_IDX) = some s.stgTern.1
          ∧ (∀ c, c ≠ b → t.mas.banks[c]? = s.mas.banks[c]?) ∧ t = { s with mas := t.mas })
      ∧ (2 ≤ s.rd R.TBL_STG_SEL → s.rd R.TBL_STG_IDX < 512 → s.stgPol.2 = false →
        (s.mas.banks.getD b Overlay.reset).pol.length < 64 →
        ∃ t, exec .tblStgGo s = .next t ∧ (t.mas.banks.getD b Overlay.reset).state = .staging
          ∧ mget (t.mas.banks.getD b Overlay.reset).pol (s.rd R.TBL_STG_IDX) = some s.stgPol.1
          ∧ (∀ c, c ≠ b → t.mas.banks[c]? = s.mas.banks[c]?) ∧ t = { s with mas := t.mas }))
    ∧ (s.bit R.FLT_STAT_ECLIPSE = true → s.commitDue = false → exec .tblStgGo s = .next (s.reject R.TBL_STG_CTRL_GO.off 5))
    ∧ (∀ v : BitVec 15, ∃ t, exec (.tblRdIdxWrite v) s = .next t ∧ t.rd R.TBL_RD_IDX = v.toNat
      ∧ (∀ k : Fin 25, t.rd (R.TBL_RD_DATA k) = (s.tblRdWords (s.rd R.TBL_RD_SEL) v.toNat).getD k 0 % 2 ^ 32)
      ∧ s.RegsBut t (R.TBL_RD_IDX :: (List.range 25).map R.TBL_RD_DATA) ∧ t = { s with regs := t.regs })

/-- OVERLAY_COPY_START, OVERLAY_COPY_DONE and POLICER_SWEEP (R228, R231, R232): an ACTIVE bank with no older frame begins to copy;
when it is done every entry it lists stands in the table and the bank is FREE; a sweep refills one policer. -/
def Obligations.OverlayAndSweep : Prop :=
  ∀ s : State,
    (∀ b : Bank, (s.mas.banks.getD b Overlay.reset).state = .active →
      (s.mas.banks.getD b Overlay.reset).epoch ≤ s.oldestEpoch →
      (s.mas.banks.getD (1 - b.val) Overlay.reset).state ≠ .copying →
      ((s.mas.banks.getD (1 - b.val) Overlay.reset).state = .active →
        (s.mas.banks.getD b Overlay.reset).epoch ≤ (s.mas.banks.getD (1 - b.val) Overlay.reset).epoch) →
      ∃ t, exec (.overlayCopyStart b) s = .next t
        ∧ t.mas.banks.getD b Overlay.reset = { s.mas.banks.getD b Overlay.reset with state := .copying }
        ∧ (∀ c, c ≠ b.val → t.mas.banks[c]? = s.mas.banks[c]?) ∧ t = { s with mas := { s.mas with banks := t.mas.banks } })
    ∧ (∀ (b : Bank) (o : Overlay), s.mas.banks[b.val]? = some o → o.state = .copying →
      ∃ t, exec (.overlayCopyDone b) s = .next t ∧ t.mas.banks[b.val]? = some Overlay.reset
        ∧ (∀ i, (∀ q ∈ o.exact, q.1 ≠ i) → mget t.mas.exact i = mget s.mas.exact i)
        ∧ (∀ p ∈ o.exact, (∀ q ∈ o.exact, q.1 = p.1 → q = p) → mgetD t.mas.exact p.1 .empty = p.2)
        ∧ (∀ p ∈ o.tern, (∀ q ∈ o.tern, q.1 = p.1 → q = p) → mgetD t.mas.tern p.1 .empty = p.2)
        ∧ (∀ p ∈ o.pol, (∀ q ∈ o.pol, q.1 = p.1 → q = p) → mgetD t.mas.polCfg p.1 .zero = p.2)
        ∧ t = { s with mas := t.mas })
    ∧ (∀ i : Policer, ∃ t, exec (.policerSweep i) s = .next t ∧ s.now ≤ t.now ∧ t.base125 % 2 ^ 30 = i.val * 2 ^ 21
      ∧ t.polLvl i = polRefill (s.polAt s.tick.epoch i) (s.polLvl i) t.base125
      ∧ (∀ k, k ≠ i.val → t.polLvl k = s.polLvl k)
      ∧ t = { s with now := t.now, cyc := t.cyc, mas := { s.mas with polLvl := t.mas.polLvl } })

/-! ### Henabin action code (chapter 8) -/

/-- The word of a HAC instruction gives its fields back (R242). -/
def Obligations.HacWordFields : Prop :=
  ∀ (op : Fin 256) (f1 f2 : BitVec 4) (f3 f4 : BitVec 8) (imm : BitVec 32),
    insOf (hacEncode op f1 f2 f3 f4 imm) = ⟨op, f1.toNat, f2.toNat, f3.toNat, f4.toNat, imm.toNat⟩

/-- LDI, LDIH, MOV, ADD, SUB, AND, OR, XOR, SHL, SHR and CMP (R244, R251): the register written, the flags that each names, and the
move to the next word; the operand v is the immediate or the register of F4. -/
def Obligations.HacArithmetic : Prop :=
  ∀ (s : State) (a : HacAt) (f1 f2 : BitVec 4) (f3 f4 : BitVec 8) (imm : BitVec 32) (c : Ctx) (b : List Byte),
    let x : Qword := c.g.getD f2.toNat 0
    let v : Qword := if f3 = 1 then imm.setWidth 64 else c.g.getD f4.toNat 0
    let n : Ctx := { c with pc := c.pc + 1, icount := c.icount + 1 }
    let put (r : Qword) : Ctx := { n with g := lmod c.g f1.toNat (fun _ => r) }
    (s.Issues a 0x10 f1 f2 f3 f4 imm c b → ∃ t, exec (.hacLdi a f1 f2 f3 f4 imm) s = .next t
      ∧ s.HacGives t a (put (imm.setWidth 64)) b [])
    ∧ (s.Issues a 0x11 f1 f2 f3 f4 imm c b → ∃ t, exec (.hacLdih a f1 f2 f3 f4 imm) s = .next t
      ∧ s.HacGives t a (put (imm ++ (c.g.getD f1.toNat 0).setWidth 32)) b [])
    ∧ (s.Issues a 0x28 f1 f2 f3 f4 imm c b → ∃ t, exec (.hacMov a f1 f2 f3 f4 imm) s = .next t ∧ s.HacGives t a (put v) b [])
    ∧ (s.Issues a 0x20 f1 f2 f3 f4 imm c b → ∃ t, exec (.hacAdd a f1 f2 f3 f4 imm) s = .next t
      ∧ s.HacGives t a { put (x + v) with z := x + v == 0 } b [])
    ∧ (s.Issues a 0x21 f1 f2 f3 f4 imm c b → ∃ t, exec (.hacSub a f1 f2 f3 f4 imm) s = .next t
      ∧ s.HacGives t a { put (x - v) with z := x == v, lt := decide (x < v) } b [])
    ∧ (s.Issues a 0x22 f1 f2 f3 f4 imm c b → ∃ t, exec (.hacAnd a f1 f2 f3 f4 imm) s = .next t
      ∧ s.HacGives t a { put (x &&& v) with z := x &&& v == 0 } b [])
    ∧ (s.Issues a 0x23 f1 f2 f3 f4 imm c b → ∃ t, exec (.hacOr a f1 f2 f3 f4 imm) s = .next t
      ∧ s.HacGives t a { put (x ||| v) with z := x ||| v == 0 } b [])
    ∧ (s.Issues a 0x24 f1 f2 f3 f4 imm c b → ∃ t, exec (.hacXor a f1 f2 f3 f4 imm) s = .next t
      ∧ s.HacGives t a { put (x ^^^ v) with z := x == v } b [])
    ∧ (s.Issues a 0x25 f1 f2 f3 f4 imm c b → ∃ t, exec (.hacShl a f1 f2 f3 f4 imm) s = .next t
      ∧ s.HacGives t a { put (x <<< (v.toNat % 64)) with z := x <<< (v.toNat % 64) == 0 } b [])
    ∧ (s.Issues a 0x26 f1 f2 f3 f4 imm c b → ∃ t, exec (.hacShr a f1 f2 f3 f4 imm) s = .next t
      ∧ s.HacGives t a { put (x >>> (v.toNat % 64)) with z := x >>> (v.toNat % 64) == 0 } b [])
    ∧ (s.Issues a 0x27 f1 f2 f3 f4 imm c b → ∃ t, exec (.hacCmp a f1 f2 f3 f4 imm) s = .next t
      ∧ s.HacGives t a { n with z := x == v, lt := decide (x < v) } b [])

/-- BR, LDB, STB, MOVB, CMPB, SPC, FLOW, TELE, DISP, PATCH, LKX, LKT, EXIT, FWDX and EXED (R216, R218, R223, R246, R251, R254, R256, R258), where
their register values are in range, no word is uncorrectable and the exit is permitted: what each leaves in the registers, the
spaces, the choices of the program and the exit list. -/
def Obligations.HacBytesAndChoices : Prop :=
  ∀ (s : State) (a : HacAt) (f1 f2 : BitVec 4) (f3 f4 : BitVec 8) (imm : BitVec 32) (c : Ctx) (b : List Byte),
    let w : Qword := if f3 = 1 then imm.setWidth 64 else c.g.getD f2.toNat 0
    let n : Ctx := { c with pc := c.pc + 1, icount := c.icount + 1 }
    let lx := s.lookupExact c.epoch c.space (c.k.take 16)
    let lt := s.lookupTern c.epoch c.space (c.k.drop 16)
    (s.Issues a 0x04 f1 f2 f3 f4 imm c b → ∃ t, exec (.hacBr a f1 f2 f3 f4 imm) s = .next t
      ∧ s.HacGives t a (if c.condition f1.toNat then { n with pc := c.pc + 1 + imm.toNat } else n) b [])
    ∧ (s.Issues a 0x12 f1 f2 f3 f4 imm c b → ∃ t, exec (.hacLdb a f1 f2 f3 f4 imm) s = .next t
      ∧ s.HacGives t a { n with g := lmod c.g f1.toNat (fun _ => BitVec.ofNat 64 (beNat (c.bytes f2.toNat f3.toNat f4.toNat))) } b [])
    ∧ (s.Issues a 0x13 f1 f2 f3 f4 imm c b → ∃ t, exec (.hacStb a f1 f2 f3 f4 imm) s = .next t
      ∧ s.HacGives t a (n.setBytes f2.toNat f3.toNat (beBytes f4.toNat (c.reg f1.toNat).toNat)) b [])
    ∧ (s.Issues a 0x14 f1 f2 f3 f4 imm c b → ∃ t, exec (.hacMovb a f1 f2 f3 f4 imm) s = .next t
      ∧ s.HacGives t a (n.setBytes f2.toNat imm.toNat (c.bytes f1.toNat f3.toNat f4.toNat)) b [])
    ∧ (s.Issues a 0x15 f1 f2 f3 f4 imm c b → ∃ t, exec (.hacCmpb a f1 f2 f3 f4 imm) s = .next t
      ∧ s.HacGives t a { n with z := c.bytes f1.toNat f3.toNat f4.toNat == c.bytes f2.toNat imm.toNat f4.toNat } b [])
    ∧ (s.Issues a 0x32 f1 f2 f3 f4 imm c b → w.toNat ≤ 16 → ∃ t, exec (.hacSpc a f1 f2 f3 f4 imm) s = .next t
      ∧ s.HacGives t a (if (srcTenant c.src).isSome then n else { n with space := w.toNat }) b [])
    ∧ (s.Issues a 0x40 f1 f2 f3 f4 imm c b → w.toNat ≤ 4095 → (∀ k, srcTenant c.src = some k → (s.flow w.toNat).fn = k) →
      ∃ t, exec (.hacFlow a f1 f2 f3 f4 imm) s = .next t ∧ s.HacGives t a { n with flow := some w.toNat } b [])
    ∧ (s.Issues a 0x43 f1 f2 f3 f4 imm c b → w.toNat ≤ 0xFFFF → ∃ t, exec (.hacTele a f1 f2 f3 f4 imm) s = .next t
      ∧ s.HacGives t a { n with tele := some w.toNat } b [])
    ∧ (s.Issues a 0x45 f1 f2 f3 f4 imm c b → (f3 = 0xFF ∨ f3.toNat < c.exits.length) →
      ∃ t, exec (.hacDisp a f1 f2 f3 f4 imm) s = .next t
        ∧ s.HacGives t a { n with disps := (if f3 = 0xFF then c.disps.map (fun _ => some f4.toNat)
            else lmod c.disps f3.toNat (fun _ => some f4.toNat)) } b [])
    ∧ (s.Issues a 0x46 f1 f2 f3 f4 imm c b → (c.reg f2.toNat).toNat < 2 ^ 16 → (c.reg f2.toNat).toNat + f4.toNat ≤ c.len - 4 →
      ∃ t, exec (.hacPatch a f1 f2 f3 f4 imm) s = .next t
        ∧ s.HacGives t a { n with patch := some ((c.reg f2.toNat).toNat, f4.toNat) } b [])
    ∧ (s.Issues a 0x30 f1 f2 f3 f4 imm c b → lx.bad = none → ∃ t, exec (.hacLkx a f1 f2 f3 f4 imm) s = .next t
      ∧ s.HacGives t a (match lx.hit with
        | some i => { n with x := lx.result ++ beBytes 2 i ++ [1, 0], hits := c.hits ++ [i], h := true,
                             g := lmod c.g f1.toNat (fun _ => BitVec.ofNat 64 i) }
        | none => { n with x := List.replicate 16 0, h := false, g := lmod c.g f1.toNat (fun _ => BitVec.allOnes 64) }) b [R.TBL_ECC_CORR])
    ∧ (s.Issues a 0x31 f1 f2 f3 f4 imm c b → lt.bad = none → ∃ t, exec (.hacLkt a f1 f2 f3 f4 imm) s = .next t
      ∧ s.HacGives t a (match lt.hit with
        | some i => { n with t := lt.result, h := true, g := lmod c.g f1.toNat (fun _ => BitVec.ofNat 64 i) }
        | none => { n with t := List.replicate 16 0, h := false, g := lmod c.g f1.toNat (fun _ => BitVec.allOnes 64) }) b [R.TBL_ECC_CORR])
    ∧ (s.Issues a 0x41 f1 f2 f3 f4 imm c b → ∀ l s', addExit (s.spend 0 1) c.exits (c.reg f2.toNat) = .inr (s', l) →
      ∃ t, exec (.hacExit a f1 f2 f3 f4 imm) s = .next t ∧ s.HacGives t a { n with exits := l } b [R.EXIT_DUP])
    ∧ (s.Issues a 0x42 f1 f2 f3 f4 imm c b → ((c.x.getD 14 0) &&& 1) = 1 → beNat (sliceD c.x 8 2) < 4096 → srcTenant c.src = none →
      ∀ l s', addExit (s.spend 0 1) c.exits (BitVec.ofNat 64 (beNat (sliceD c.x 0 8))) = .inr (s', l) →
      ∃ t, exec (.hacFwdx a f1 f2 f3 f4 imm) s = .next t
        ∧ s.HacGives t a { n with exits := l, flow := some (beNat (sliceD c.x 8 2)) } b [R.EXIT_DUP])
    ∧ (s.Issues a 0x44 f1 f2 f3 f4 imm c b → ∀ x, c.exits[f3.toNat]? = some x → exitReserved (c.reg f2.toNat) = false →
      (exitOf (c.reg f2.toNat)).dest = x.dest → (exitOf (c.reg f2.toNat)).sub = x.sub → (exitOf (c.reg f2.toNat)).mirror = x.mirror →
      ((exitOf (c.reg f2.toNat)).draws = true → (exitOf (c.reg f2.toNat)).rgen ∈ c.drawn.map (·.1)) →
      ∃ t, exec (.hacExed a f1 f2 f3 f4 imm) s = .next t
        ∧ s.HacGives t a { n with exits := lmod c.exits f3.toNat (fun _ => exitOf (c.reg f2.toNat)) } b [])

/-- REC, POL, CNT, CRC, DIG and WAIT (R257, R259 to R263): what a recovery function and a policer decide, the counter noted, the
job that begins, and the results that a wait takes. -/
def Obligations.HacUnits : Prop :=
  ∀ (s : State) (a : HacAt) (f1 f2 : BitVec 4) (f3 f4 : BitVec 8) (imm : BitVec 32) (c : Ctx) (b : List Byte),
    let n : Ctx := { c with pc := c.pc + 1, icount := c.icount + 1 }
    (s.Issues a 0x47 f1 f2 f3 f4 imm c b → srcTenant c.src = none →
      ∃ t, exec (.hacRec a f1 f2 f3 f4 imm) s = .next t
        ∧ (∀ o, s.recStep c.epoch imm.toNat c.rSeq (s.recSeen c imm.toNat) = some o →
          s.HacGives t a { n with recs := c.recs ++ [(imm.toNat, o.discard)], z := o.discard,
                                  disps := (if o.discard then c.disps.map (fun _ => some 0xA) else c.disps) } b [])
        ∧ (s.recStep c.epoch imm.toNat c.rSeq (s.recSeen c imm.toNat) = none →
          s.HacGives t a { n with recs := c.recs ++ [(imm.toNat, false)], z := false } b []))
    ∧ (s.Issues a 0x50 f1 f2 f3 f4 imm c b → ∀ p, s.partIndex c R.PART_POL_POL_BASE R.PART_POL_POL_NUM imm.toNat = some p →
      ∃ t, exec (.hacPol a f1 f2 f3 f4 imm) s = .next t
        ∧ ∀ col, col = polColour (s.polAt c.epoch p) (polRefill (s.polAt c.epoch p) (s.polSeen c p) s.base125) c.len
            ((c.reg f2.toNat).toNat % 4) →
          s.HacGives t a { n with pols := c.pols ++ [(p, s.base125, (c.reg f2.toNat).toNat % 4, col)], g := lmod c.g f1.toNat (fun _ => BitVec.ofNat 64 col) } b [])
    ∧ (s.Issues a 0x51 f1 f2 f3 f4 imm c b → ∀ k, s.partIndex c R.PART_CNT_CNT_BASE R.PART_CNT_CNT_NUM imm.toNat = some k →
      ∃ t, exec (.hacCnt a f1 f2 f3 f4 imm) s = .next t ∧ s.HacGives t a { n with cnts := c.cnts ++ [k] } b [])
    ∧ (s.Issues a 0x60 f1 f2 f3 f4 imm c b → (∀ j ∈ c.jobs, j.bad = false) → ∀ r, jobRange (c.reg f4.toNat) c.len = some r →
      ∃ t, exec (.hacCrc a f1 f2 f3 f4 imm) s = .next t
        ∧ s.HacGives t a { n with jobs := c.jobs ++ [⟨some f1.toNat, imm.toNat, beBytes f3.toNat (c.reg f2.toNat).toNat,
            sliceD b r.1 r.2, 0, none, false, false, [], ceilDiv (f3.toNat + r.2) 8, s.now, s.tick.num⟩] } b [])
    ∧ (∀ u : State, s.unitsSync = u → u.Issues a 0x61 f1 f2 f3 f4 imm c b → f3 = 0 → u.dge.clearing = none →
      (∀ j ∈ c.jobs, j.bad = false) → ∀ r, jobRange (c.reg f2.toNat) c.len = some r →
      ∃ t, exec (.hacDig a f1 f2 f3 f4 imm) s = .next t
        ∧ u.HacGives t a { n with jobs := c.jobs ++ [⟨none, 0, [], sliceD b r.1 r.2, f1.toNat, none, false, false, [],
            digestUnits f1.toNat r.2 false / (if shaWide f1.toNat then 2 else 1), u.now, u.tick.num⟩] } b [])
    ∧ (s.Issues a 0x62 f1 f2 f3 f4 imm c b → (∀ j ∈ c.jobs, j.done = true ∧ j.bad = false) →
      ∃ t, exec (.hacWait a f1 f2 f3 f4 imm) s = .next t
        ∧ s.HacGives t a (advance (Ctx.takeResults { c with icount := c.icount + 1 })) b [])

/-- END, CLOSE and TRAP (R245, R255, R265 to R269): in classification the phase closes with its exits, or traps with the code of F3,
and the context says so; in resolution the lane's context is free again. An undefined opcode traps with UNDEF_OP. -/
def Obligations.HacEnds : Prop :=
  ∀ (s : State) (f1 f2 : BitVec 4) (f3 f4 : BitVec 8) (imm : BitVec 32) (c : Ctx) (b : List Byte),
    (∀ (a : Arr) (x : Nat), s.Issues (.cls a) 0x01 f1 f2 f3 f4 imm c b → c.resolving = false → c.exits ≠ [] → c.flow = some x →
      s.genOk c.epoch x c.exits = true → ∃ t, exec (.hacEnd (.cls a) f1 f2 f3 f4 imm) s = .next t
        ∧ t.ctxAt (.cls a) = some ({ c with pc := noResume, icount := c.icount + 1, fin := .closed }, b))
    ∧ (∀ (a : Arr) (x : Nat), s.Issues (.cls a) 0x02 f1 f2 f3 f4 imm c b → c.exits ≠ [] → c.flow = some x →
      s.genOk c.epoch x c.exits = true → ∃ t, exec (.hacClose (.cls a) f1 f2 f3 f4 imm) s = .next t
        ∧ t.ctxAt (.cls a) = some ({ c with pc := c.pc + 1, icount := c.icount + 1, fin := .closed }, b))
    ∧ (∀ a : Arr, s.Issues (.cls a) 0x02 f1 f2 f3 f4 imm c b → c.exits = [] →
      ∃ t, exec (.hacClose (.cls a) f1 f2 f3 f4 imm) s = .next t
        ∧ t.ctxAt (.cls a) = some ({ c with pc := c.pc + 1, icount := c.icount + 1, fin := .closed }, b)
        ∧ t.rd R.CLS_NOEXIT = min (s.rd R.CLS_NOEXIT + 1) (2 ^ R.CLS_NOEXIT.width - 1))
    ∧ (∀ l : Lane, s.Issues (.res l) 0x01 f1 f2 f3 f4 imm c b → c.resolving = true →
      ∃ t, exec (.hacEnd (.res l) f1 f2 f3 f4 imm) s = .next t ∧ (t.lane l).res = none)
    ∧ (∀ a : Arr, s.Issues (.cls a) 0x03 f1 f2 f3 f4 imm c b → ∃ (t : State) (info : Nat),
      exec (.hacTrap (.cls a) f1 f2 f3 f4 imm) s = .next t
        ∧ t.ctxAt (.cls a) = some ({ c with icount := c.icount + 1, fin := .trapped info }, b)
        ∧ info % 256 = f3.toNat ∧ info / 256 % 2 ^ 14 = c.pc % 2 ^ 14 ∧ t.rd R.TRAP_LAST = info
        ∧ t.rd R.TRAP_CNT = min (s.rd R.TRAP_CNT + 1) (2 ^ 32 - 1) ∧ (t.src 229).latch = true
        ∧ s.HacGives t (.cls a) { c with icount := c.icount + 1, fin := .trapped info } b [R.TRAP_CNT, R.TRAP_LAST, R.TRAP_LAST_SRC])
    ∧ (∀ a : Arr, s.ctxAt (.cls a) = some (c, b) → c.fin = .running → s.issues (.cls a) = true → c.icount < 64 → opInfo (insOf (s.hacWord c.pc)).op = none →
      ∃ (t : State) (info : Nat), exec (.hacTrap (.cls a) f1 f2 f3 f4 imm) s = .next t
        ∧ t.ctxAt (.cls a) = some ({ c with icount := c.icount + 1, fin := .trapped info }, b) ∧ info % 256 = 0x01)

/-! ### Egress (chapter 9) -/

/-- GATE_ENTRY, GCL_SWITCH, RESIDENCE_CAP_MISS, LAUNCH_TIME_REACHED, VERIFY_RECEIVED, RESPOND_RECEIVED and VERIFY_TIMEOUT (R290 to R292, R296, R300,
R305, R306): the entry of the list in force, the list that replaces it, the frames that miss their boundary, a launch time that comes
or is missed, and the verification of preemption. -/
def Obligations.GatesAndLaunches : Prop :=
  ∀ (s : State) (p : Port), s.ports.length = 6 →
    (s.gateEn p = true → (s.port p).gclFrom ≤ s.tick.num → (s.port p).operEntry + 1 < (s.port p).oper.length →
      ∃ t, exec (.gateEntry p) s = .next t
        ∧ t.now = max s.now (s.tick.start + gateOffset (entryOffset (s.port p).oper ((s.port p).operEntry + 1)))
        ∧ (t.port p).operEntry = (s.port p).operEntry + 1 ∧ (t.port p).oper = (s.port p).oper
        ∧ t.rd (R.GCL_OPER_ENTRY p) = ((s.port p).operEntry + 1) % 256
        ∧ (∀ q, t.gateOpen p q = (gclGates ((s.port p).oper.getD ((s.port p).operEntry + 1) 0xFF)).testBit q)
        ∧ (s.preemptOn p = true → gclOp ((s.port p).oper.getD ((s.port p).operEntry + 1) 0xFF) = 1 → t.bit (R.QPORT_STAT_HOLD p) = true)
        ∧ (s.preemptOn p = true → gclOp ((s.port p).oper.getD ((s.port p).operEntry + 1) 0xFF) = 2 → t.bit (R.QPORT_STAT_HOLD p) = false)
        ∧ s.RegsBut t [R.GCL_OPER_ENTRY p, R.QPORT_STAT_HOLD p, R.FC_STAT_RX_HELD p] ∧ s.OtherPorts t p
        ∧ t = { s with now := t.now, regs := t.regs, ports := t.ports, cyc := t.cyc })
    ∧ (∀ (l : List Nat) (base : Nat), s.now = s.tick.start → (s.port p).gclPend = some (l, base) → inFuture base (s.short 0) = false →
      ∃ t, exec (.gclSwitch p) s = .next t ∧ (t.port p).oper = l ∧ (t.port p).gclPend = none ∧ (t.port p).operEntry = 0
        ∧ t.bit (R.QPORT_STAT_GCL_PEND p) = false ∧ t.rd (R.GCL_SWITCH_TICK_LO p) = s.tick.num % 2 ^ 32
        ∧ (∀ e : Fin 256, t.rd (R.GCL_OPER p e) = l.getD e 0 % 2 ^ 32) ∧ t.rd (R.QPORT_STAT_OPER_LEN p) = l.length % 2 ^ 9
        ∧ (t.port p).queues = (s.port p).queues
        ∧ s.RegsBut t (R.QPORT_STAT_GCL_PEND p :: R.GCL_SWITCH_TICK_LO p :: R.QPORT_STAT_OPER_LEN p :: R.QPORT_STAT_HOLD p
          :: R.FC_STAT_RX_HELD p :: R.GCL_OPER_ENTRY p :: (List.range 256).map (R.GCL_OPER p))
        ∧ s.OtherPorts t p ∧ t = { s with regs := t.regs, ports := t.ports })
    ∧ (∀ (l : List Nat) (base : Nat), (s.port p).gclPend = some (l, base) → inFuture base (s.short 0) = true →
      exec (.gclSwitch p) s = .next s)
    ∧ (∀ q : Queue, s.now = s.tick.start → s.missed p q ≠ [] → ∃ t, exec (.residenceCapMiss p q) s = .next t
      ∧ t.bit (R.QPORT_STAT_CAP_MISS p) = true
      ∧ t.rd (R.Q_CAP_MISS p q) = min (s.rd (R.Q_CAP_MISS p q) + (s.missed p q).length) (2 ^ 32 - 1)
      ∧ (∀ x ∈ s.missed p q, ((t.itemEntry x).map (·.late)) = some true) ∧ t.missed p q = [] ∧ s.OtherPorts t p
      ∧ s.RegsBut t [R.QPORT_STAT_CAP_MISS p, R.Q_CAP_MISS p q, R.EVLOG_LOST]
      ∧ t = { s with regs := t.regs, irc := t.irc, cyc := t.cyc, ports := t.ports, led := { s.led with entries := t.led.entries }
                     hif := { s.hif with rings := t.hif.rings }, events := t.events })
    ∧ (∀ (q : Queue) (x : QItem) (n : Nat), s.head p q = some x → x.launch = some n →
      (inFuture n (s.planeShort p) = true → exec (.launchTimeReached p q) s = .next (s.upTo (s.shortAt p n)))
      ∧ (inFuture n (s.planeShort p) = false → x.late = true ∨ (s.planeShort p + 2 ^ 40 - n) % 2 ^ 40 ≤ s.inf (R.Q_LT_WINDOW p q) →
        exec (.launchTimeReached p q) s = .next s)
      ∧ (inFuture n (s.planeShort p) = false → x.late = false → s.inf (R.Q_LT_WINDOW p q) < (s.planeShort p + 2 ^ 40 - n) % 2 ^ 40 →
        s.inf (R.Q_CFG_LT_ACT p q) ≠ 1 → ∃ t, exec (.launchTimeReached p q) s = .next t ∧ s.Counts t (R.LT_LATE p)
          ∧ t.head p q = some { x with late := true } ∧ t.launchCome p { x with late := true } = true
          ∧ s.RegsBut t [R.LT_LATE p] ∧ s.OtherPorts t p ∧ t = { s with regs := t.regs, ports := t.ports })
      ∧ (∀ (f : Frame) (y : ExitRec) (e : Entry), inFuture n (s.planeShort p) = false → x.late = false →
        s.inf (R.Q_LT_WINDOW p q) < (s.planeShort p + 2 ^ 40 - n) % 2 ^ 40 → s.inf (R.Q_CFG_LT_ACT p q) = 1 → mget s.frames x.frame = some f →
        f.exits[x.exit]? = some y → y.disp = none → mget s.led.entries y.entry = some e →
        ∃ t, exec (.launchTimeReached p q) s = .next t ∧ s.Counts t (R.LT_MISSED p) ∧ mget t.led.entries y.entry = none
          ∧ s.Counts t (R.DISP_CNT 9) ∧ s.DataPath t))
    ∧ (s.inf (R.QPORT_CFG_PREEMPT_EN p) = 1 → s.looped p = false →
      exec (.verifyReceived p) s = .next { s with sent := .mpacket p true :: s.sent })
    ∧ (s.inf (R.QPORT_CFG_PREEMPT_EN p) ≠ 1 ∨ s.looped p = true → exec (.verifyReceived p) s = .next s)
    ∧ (s.rd (R.QPORT_STAT_VERIFY_STATE p) = 2 → ∃ t, exec (.respondReceived p) s = .next t ∧ t.rd (R.QPORT_STAT_VERIFY_STATE p) = 3
      ∧ t.preemptOn p = true ∧ (s.preemptOn p = false → t.tick.rerun = true)
      ∧ s.RegsBut t [R.QPORT_STAT_VERIFY_STATE p, R.QPORT_STAT_PREEMPT_ACTIVE p]
      ∧ t = { s with regs := t.regs, tick := { s.tick with rerun := t.tick.rerun } })
    ∧ (s.rd (R.QPORT_STAT_VERIFY_STATE p) = 2 → (s.port p).verifyCount < s.inf (R.QPORT_CFG_VERIFY_LIMIT p) →
      s.looped p = false → ∃ t, exec (.verifyTimeout p) s = .next t
        ∧ t.now = max s.now ((s.port p).verifyAt + s.inf (R.QPORT_CFG_VERIFY_TIME p) * 1000000 * unitsPerNs)
        ∧ t.sent = .mpacket p false :: s.sent ∧ (t.port p).verifyCount = (s.port p).verifyCount + 1 ∧ (t.port p).verifyAt = t.now
        ∧ s.OtherPorts t p ∧ t = { s with now := t.now, sent := t.sent, ports := t.ports, cyc := t.cyc })
    ∧ (s.rd (R.QPORT_STAT_VERIFY_STATE p) = 2 → s.inf (R.QPORT_CFG_VERIFY_LIMIT p) ≤ (s.port p).verifyCount →
      ∃ t, exec (.verifyTimeout p) s = .next t ∧ t.rd (R.QPORT_STAT_VERIFY_STATE p) = 4 ∧ s.Counts t (R.VERIFY_FAIL_CNT p)
        ∧ (t.src (205 + p)).latch = true ∧ t.preemptOn p = false ∧ t.tick.rerun = true
        ∧ s.RegsBut t [R.QPORT_STAT_VERIFY_STATE p, R.VERIFY_FAIL_CNT p, R.QPORT_STAT_PREEMPT_ACTIVE p, R.QPORT_STAT_HOLD p]
        ∧ t = { s with now := t.now, regs := t.regs, irc := t.irc, cyc := t.cyc, tick := { s.tick with rerun := true } })

/-- STAGE_FRAME, TX_START and TX_LAST_BYTE (R145, R146, R156, R174, R288, R289, R304): the selected frame is staged in its slot, starts
once the gap of TX_IPG has passed, and leaves with its statistics and its disposition, through the preemptable MAC as a fragment. -/
def Obligations.FramesLeave : Prop :=
  ∀ (s : State) (p : Port), s.ports.length = 6 →
    (∀ (s' u v : State) (q k : Nat) (x : QItem) (f : Frame) (y : ExitRec) (e : Entry) (b w : List Byte),
      s' = (s.syncPort p).judgeLaunches p → u = (if s'.preemptOn p then s'.stageSel p (s'.isExpress p) else s') →
      u.selectQ p (fun q => !u.isExpress p q) = some q → u.head p q = some x → u.slotOf p x = none → u.slotFor p q = some k →
      v = u.releaseSlot p k → mget v.frames x.frame = some f → f.exits[x.exit]? = some y → mget v.led.entries y.entry = some e →
      v.provenBytes f = some b → v.wireForm f y.exit b = some w → (v.port p).slots.length = 3 → v.ports.length = 6 →
      ∃ t, exec (.stageFrame p) s = .next t ∧ (t.port p).slots.getD k none = some ⟨q, x.frame, x.exit, w⟩
        ∧ mget t.led.entries y.entry = some { e with stage := 3 } ∧ s.DataPath t)
    ∧ (∀ (u : State) (b : List Byte) (l : List (List Byte)), isUp s p = true → s.bitAt R.ENG_RST_STAT p = false →
      s.bitAt R.ENG_RST_STAT 7 = false → (s.port p).tx = none → u = s.afterGap p → u.ports.length = 6 → (u.port p).pauseOut = b :: l →
      ∃ (t : State) (c : TxCur), exec (.txStart p) s = .next t ∧ t.now = max s.now (s.port p).gapUntil
        ∧ (t.port p).tx = some c ∧ c.bytes = b ∧ c.start = t.now ∧ c.sent = 0 ∧ c.item = none ∧ (t.port p).pauseOut = l
        ∧ u.OtherPorts t p ∧ t = { u with ports := t.ports } ∧ s.DataPath t)
    ∧ (∀ (u : State) (q k : Nat) (x : QItem) (g : Staged), isUp s p = true → s.bitAt R.ENG_RST_STAT p = false →
      s.bitAt R.ENG_RST_STAT 7 = false → (s.port p).tx = none → u = s.afterGap p → u.ports.length = 6 → (u.port p).pauseOut = [] →
      (u.port p).preempted = none → u.selectQ p (fun _ => true) = some q → u.head p q = some x → u.slotOf p x = some k →
      (u.port p).slots.getD k none = some g → ∃ (t : State) (c : TxCur), exec (.txStart p) s = .next t
        ∧ t.now = max s.now (s.port p).gapUntil ∧ (t.port p).tx = some c ∧ c.bytes = g.bytes ∧ c.start = t.now
        ∧ c.item = some (x.frame, x.exit) ∧ c.slot = k
        ∧ (c.pm.isSome = true ↔ u.preemptOn p = true ∧ u.isExpress p q = false)
        ∧ u.OtherPorts t p ∧ t = { u with ports := t.ports } ∧ s.DataPath t)
    ∧ (∀ c : TxCur, (s.port p).tx = some c → ∃ t, exec (.txLastByte p) s = .next t ∧ (t.port p).tx = none
        ∧ t.now = max s.now (c.start + bitsTime (8 * (c.bytes.length - c.sent)) (s.rateKb p))
        ∧ (t.port p).gapUntil = t.now + bitsTime (8 * (s.inf (R.PORT_CFG_TX_IPG p) + 8)) (s.rateKb p)
        ∧ (s.looped p = false → c.pm = none → .frame p c.start c.bytes ∈ t.sent)
        ∧ (∀ n, s.looped p = false → c.pm = some n → .fragment p c.start n c.frag (c.bytes.drop c.sent) ∈ t.sent)
        ∧ t.rd64 (R.TX_FRAMES p) (R.TX_FRAMES_HI p) = (s.rd64 (R.TX_FRAMES p) (R.TX_FRAMES_HI p) + 1) % 2 ^ 64
        ∧ t.rd64 (R.TX_OCTETS p) (R.TX_OCTETS_HI p) = (s.rd64 (R.TX_OCTETS p) (R.TX_OCTETS_HI p) + c.bytes.length) % 2 ^ 64
        ∧ (∀ (h i : Nat) (f : Frame) (x : ExitRec) (e : Entry), c.item = some (h, i) → mget s.frames h = some f → f.exits[i]? = some x →
          x.disp = none → mget s.led.entries x.entry = some e → mget t.led.entries x.entry = none ∧ s.Counts t (R.DISP_CNT 0))
        ∧ s.DataPath t)

/-! ### Redundant streams (chapter 10) -/

/-- REC_RESET (R321) with MAS not in reset: TAKE_ANY is set, HISTORY is cleared, and every counter is kept. -/
def Obligations.RecoveryReset : Prop :=
  ∀ (s : State) (f : RecFn), s.bitAt R.ENG_RST_STAT 6 = false → ∃ t, exec (.recReset f) s = .next t
    ∧ t.bit (R.REC_STAT_TAKE_ANY f) = true ∧ t.rd (R.REC_HISTORY f) = 0
    ∧ s.RegsBut t [R.REC_STAT_TAKE_ANY f, R.REC_HISTORY f] ∧ t = { s with regs := t.regs }

/-- GEN_RESET, REC_RESET_TIMER, LATENT_TEST and LATENT_RESET (R315, R318, R322): the sequence restarts, the reset timer runs out, and the
test of latent errors raises its flag or not, and runs before a reset of its counts at the same boundary. -/
def Obligations.StreamFunctions : Prop :=
  ∀ s : State,
    (∀ g : GenFn, s.bitAt R.ENG_RST_STAT 6 = false → ∃ t, exec (.genReset g) s = .next t ∧ t.rd (R.GEN_SEQ g) = 0
      ∧ s.RegsBut t [R.GEN_SEQ g] ∧ t = { s with regs := t.regs })
    ∧ (∀ (f : RecFn) (n : Nat), mget s.mas.recTimer f = some n → n + s.inf (R.REC_RESET_TICKS f) ≤ s.tick.num →
      ∃ t, exec (.recResetTimer f) s = .next t ∧ t.bit (R.REC_STAT_TAKE_ANY f) = true ∧ t.rd (R.REC_HISTORY f) = 0
        ∧ s.Counts t (R.REC_RESETS f) ∧ mget t.mas.recTimer f = none
        ∧ s.RegsBut t [R.REC_STAT_TAKE_ANY f, R.REC_HISTORY f, R.REC_RESETS f]
        ∧ t = { s with regs := t.regs, mas := { s.mas with recTimer := t.mas.recTimer } })
    ∧ (∀ (f : RecFn) (n : Nat), mget s.mas.recTimer f = some n → s.tick.num < n + s.inf (R.REC_RESET_TICKS f) →
      exec (.recResetTimer f) s = .next s)
    ∧ (∀ (f : RecFn) (lp ld : Nat), s.latentDue f (s.inf (R.LAT_TEST_TICKS f)) = true → mgetD s.mas.latTested f 0 ≠ s.tick.num →
      mgetD s.mas.latCounts f (0, 0) = (lp, ld) →
      (((lp * (s.inf (R.REC_CFG_LAT_PATHS f) - 1) : Nat) - (ld : Int)).natAbs ≤ s.inf (R.LAT_DIFF f) → exec (.latentTest f) s
          = .next { s with mas := { s.mas with latTested := mput s.mas.latTested f s.tick.num } })
      ∧ (s.inf (R.LAT_DIFF f) < ((lp * (s.inf (R.REC_CFG_LAT_PATHS f) - 1) : Nat) - (ld : Int)).natAbs → ∃ t, exec (.latentTest f) s = .next t
        ∧ t.bit (R.REC_STAT_LATENT f) = true ∧ t.bitAt (R.LAT_SUMMARY (f / 32)) (f % 32) = true ∧ s.Counts t (R.REC_LAT_CNT f)
        ∧ s.RegsBut t [R.REC_STAT_LATENT f, R.LAT_SUMMARY (f / 32), R.REC_LAT_CNT f, R.EVLOG_LOST]
        ∧ t = { s with regs := t.regs, irc := t.irc, cyc := t.cyc
                       mas := { s.mas with latTested := mput s.mas.latTested f s.tick.num } }))
    ∧ (∀ f : RecFn, s.latentDue f (s.inf (R.LAT_TEST_TICKS f)) = false ∨ mgetD s.mas.latTested f 0 = s.tick.num →
      exec (.latentTest f) s = .next s)
    ∧ (∀ f : RecFn, s.latentDue f (s.inf (R.LAT_RESET_TICKS f)) = true → ∃ u t, exec (.latentTest f) s = .next u
      ∧ exec (.latentReset f) s = .next t ∧ mgetD t.mas.latCounts f (0, 0) = (0, 0)
        ∧ (∀ k : Nat, k ≠ f → mget t.mas.latCounts k = mget s.mas.latCounts k)
        ∧ t = { u with mas := { u.mas with latCounts := t.mas.latCounts } })

/-! ### PCIe functions (chapter 11) -/

/-- VF_ENABLE_SET, VF_ENABLE_CLEAR, FLR_INITIATE, HIF_FLR, OWNER_FLR and FLR_DONE (R332, R333, R341 to R346): which functions there are, what a
reset of one clears, and its end; before READY a configuration request is answered with Retry
Status, and one to an absent tenant with Unsupported Request. -/
def Obligations.FunctionResets : Prop :=
  ∀ s : State,
    (∀ (v : BitVec 16) (ari : Bool) (u : State), u = { s with hif := { s.hif with vfWant := v.toNat, ari := ari } } →
      s.bit R.HIF_STAT_READY = true → s.bitAt R.HIF_FLR_STAT 16 = false → s.hif.numVfs = 0 →
      (s.bit R.HIF_STAT_FW_LATE = false → 1 ≤ v.toNat → v.toNat ≤ 16 → (ari = true ∨ v.toNat ≤ 7) →
        exec (.vfEnableSet v ari) s = .next { u with hif := { u.hif with numVfs := v.toNat, vfAt := s.now } })
      ∧ ((v.toNat = 0 ∨ 16 < v.toNat ∨ s.bit R.HIF_STAT_FW_LATE = true ∨ (ari = false ∧ 7 < v.toNat)) →
        exec (.vfEnableSet v ari) s = .next (u.put R.HIF_STAT_SRIOV_ERR true)))
    ∧ (∀ (v : BitVec 16) (ari : Bool), s.bit R.HIF_STAT_READY = false →
      exec (.vfEnableSet v ari) s = .next { s with sent := .config 16 .retry :: s.sent })
    ∧ (s.bit R.HIF_STAT_READY = true → s.bitAt R.HIF_FLR_STAT 16 = false → ∃ t, exec .vfEnableClear s = .next t ∧ t.hif.numVfs = 0
      ∧ (∀ n : Tenant, n.val < s.hif.numVfs → t.bitAt R.HIF_FLR_STAT n = true) ∧ t.force = s.force)
    ∧ (∀ n : Tenant, s.bit R.HIF_STAT_READY = true → s.addressable n = true → s.bitAt R.HIF_FLR_STAT n = false →
      s.bitAt R.ENG_RST_STAT 8 = false → ∃ t, exec (.flrInitiate n) s = .next t
      ∧ exec (.hifFlr n.castSucc) s = .next t ∧ t.bitAt R.HIF_FLR_STAT n = true ∧ t.hif.numVfs = s.hif.numVfs
      ∧ (∀ f : Fld, 0x1000000 * (n + 1) ≤ f.off → f.off < 0x1000000 * (n + 2) → f.lo < 32 → t.rd f = f.rst)
      ∧ (∀ b : Fin 10, t.src (10 * n + b) = IrqSrc.reset) ∧ t.src (170 + n) = IrqSrc.reset ∧ mget t.events n = none
      ∧ (s.dge.ctxs.length = 17 → t.stream n = Stream.reset) ∧ (∀ f : Fld, t.latch (.tenant n) f = f.rst)
      ∧ t.pci n = { PciFn.reset with aer := (s.pci n).aer } ∧ t.force = s.force)
    ∧ (∀ n : Tenant, s.bit R.HIF_STAT_READY = true → s.hif.numVfs ≤ n.val →
      exec (.flrInitiate n) s = .next { s with sent := .config n .unsupported :: s.sent })
    ∧ (s.bit R.HIF_STAT_READY = true → s.bitAt R.ENG_RST_STAT 8 = false → s.bitAt R.HIF_FLR_STAT 16 = false → s.Canonical →
      ∃ t, exec .ownerFlr s = .next t ∧ exec (.hifFlr 16) s = .next t
      ∧ t.bitAt R.HIF_FLR_STAT 16 = true ∧ t.hif.numVfs = 0 ∧ t.tick.commitAt = none ∧ t.led.flowStg = [] ∧ t.buf.tplStg = []
      ∧ (∀ i ∈ ownerSources, t.src i = IrqSrc.reset) ∧ (∀ f : Fld, t.latch .owner f = f.rst)
      ∧ t.force = s.force)
    ∧ (∀ f : Func, s.bitAt R.HIF_FLR_STAT f = true → s.con.serving ≠ some (.tenant f) → ∃ t, exec (.flrDone f) s = .next t
      ∧ t.bitAt R.HIF_FLR_STAT f = false ∧ (t.src 238).latch = true
      ∧ (∀ g : Func, g ≠ f → t.bitAt R.HIF_FLR_STAT g = s.bitAt R.HIF_FLR_STAT g)
      ∧ (∀ n : Tenant, f = n.castSucc → s.hif.quotaReset.testBit n = true → t.bit (R.TEN_STAT_QUOTA_RESET n) = true)
      ∧ t = { s with regs := t.regs, irc := t.irc, cyc := t.cyc, hif := { s.hif with quotaReset := t.hif.quotaReset } })

/-- QUIESCE, UNQUIESCE, MPS_MRRS_CHANGE, PERST_ASSERT, PCIE_LINK_RESET, PERST_DEASSERT, READY_TIMEOUT and EL_FLOW_WRITE (R75, R326 to R329, R347,
R348, R382): the functions that transfer nothing, the link, readiness, and the permission of Early Look. -/
def Obligations.LinkAndQuiesce : Prop :=
  ∀ s : State,
    (∀ (f : Func) (w : QuiesceCause), s.bit R.HIF_STAT_READY = true → s.addressable f = true → s.bitAt R.HIF_FLR_STAT f = false →
      ∃ t, exec (.quiesce f w) s = .next t
        ∧ t.bitAt R.HIF_QUIESCED f = true ∧ (w = .busMaster → (t.pci f).bme = false) ∧ (w = .d3hot → (t.pci f).d3 = true)
        ∧ (f = 16 → w = .d3hot → ∀ n : Tenant, t.bitAt R.HIF_QUIESCED n = true) ∧ s.DataPath t)
    ∧ (∀ f : Func, s.bit R.HIF_STAT_READY = true → s.addressable f = true → s.bitAt R.HIF_FLR_STAT f = false →
      ∃ t, exec (.unquiesce f) s = .next t ∧ (t.pci f).bme = true ∧ (t.pci f).d3 = false
        ∧ t.bitAt R.HIF_QUIESCED f = (decide (f.val < 16) && (s.pci 16).d3) ∧ s.DataPath t
        ∧ ((∀ g : Func, s.bitAt R.HIF_QUIESCED g = s.quiesced g) → s.RegsBut t [R.HIF_QUIESCED]
          ∧ t = { s with regs := t.regs, hif := { s.hif with pci := t.hif.pci } }))
    ∧ (∀ a b : Fin 3, s.bit R.HIF_STAT_READY = true → s.bitAt R.HIF_FLR_STAT 16 = false → (a.val = s.hif.mps → b.val ≠ s.hif.mrrs) →
      ∃ t, exec (.mpsMrrsChange a b) s = .next t ∧ t.hif.mps = a ∧ t.hif.mrrs = b
      ∧ t.tick.rerun = true ∧ t.rd R.HIF_LINK_UNIT = (if a.val = 0 ∨ b.val = 0 then 1 else 2) ∧ s.RegsBut t [R.HIF_LINK_UNIT]
      ∧ t = { s with regs := t.regs, hif := { s.hif with mps := a, mrrs := b }, tick := { s.tick with rerun := true } })
    ∧ (∀ (sp : Fin 4) (w : Fin 3), s.linkDead = false → ∃ t, exec (.perstDeassert sp w) s = .next t ∧ t.rd R.HIF_LINK_SPEED = sp + 1
      ∧ t.rd R.HIF_LINK_WIDTH = 2 ^ w.val ∧ t.tick.rerun = true ∧ t.pm.perstLow = false ∧ t.pm.wakeOut = false
      ∧ s.RegsBut t [R.HIF_LINK_SPEED, R.HIF_LINK_WIDTH, R.HIF_LINK_UNIT]
      ∧ t = { s with regs := t.regs, tick := { s.tick with rerun := true }, pm := { s.pm with perstLow := false, wakeOut := false }
                     hif := { s.hif with perstAt := t.hif.perstAt } })
    ∧ (s.Canonical → s.linkDead = false →
      (∃ t, exec .perstAssert s = .next t ∧ t.pm.perstLow = true ∧ t.bitAt R.HIF_FLR_STAT 16 = true ∧ t.rd R.HIF_LINK_SPEED = 0
        ∧ t.rd R.HIF_LINK_WIDTH = 0 ∧ t.force = s.force)
      ∧ (∃ t, exec (.pcieLinkReset .hotReset) s = .next t ∧ t.bitAt R.HIF_FLR_STAT 16 = true
        ∧ t.rd R.HIF_LINK_SPEED = s.rd R.HIF_LINK_SPEED ∧ t.rd R.HIF_LINK_WIDTH = s.rd R.HIF_LINK_WIDTH ∧ t.force = s.force)
      ∧ (∀ c : LinkReset, c ≠ .hotReset → ∃ t, exec (.pcieLinkReset c) s = .next t ∧ t.bitAt R.HIF_FLR_STAT 16 = true
        ∧ t.rd R.HIF_LINK_SPEED = 0 ∧ t.rd R.HIF_LINK_WIDTH = 0 ∧ t.force = s.force))
    ∧ (∀ n, s.hif.perstAt = some n → s.bit R.HIF_STAT_READY = false → ∃ t, exec .readyTimeout s = .next t
      ∧ t.now = max s.now (n + 900000000 * unitsPerNs) ∧ t.bit R.HIF_STAT_READY = true ∧ t.bit R.HIF_STAT_FW_LATE = true
      ∧ s.RegsBut t [R.HIF_STAT_READY, R.HIF_STAT_FW_LATE] ∧ t = { s with now := t.now, regs := t.regs, cyc := t.cyc, boot := { s.boot with trialEnd := t.boot.trialEnd } })
    ∧ (∀ (n : Tenant) (en : Bool), s.barOn n = true → s.bitAt R.ENG_RST_STAT 8 = false →
      ((s.flow (s.rd (R.EL_FLOW_SEL n))).fn = n.val → s.inf (R.QUOTA_EL_PERMIT n) ≠ 0 → ∃ t, exec (.elFlowWrite n en) s = .next t
        ∧ t.flow (s.rd (R.EL_FLOW_SEL n)) = { s.flow (s.rd (R.EL_FLOW_SEL n)) with elEn := en }
        ∧ (∀ k, k ≠ s.rd (R.EL_FLOW_SEL n) → t.flow k = s.flow k) ∧ t = { s with led := { s.led with flows := t.led.flows } })
      ∧ ((s.flow (s.rd (R.EL_FLOW_SEL n))).fn = n.val → s.inf (R.QUOTA_EL_PERMIT n) = 0 →
        exec (.elFlowWrite n en) s = .next (s.put (R.TEN_STAT_QUOTA_HIT n) true))
      ∧ ((s.flow (s.rd (R.EL_FLOW_SEL n))).fn ≠ n.val → s.inf (R.QUOTA_EL_PERMIT n) ≠ 0 → exec (.elFlowWrite n en) s = .next (s.tenViol n)))

/-! ### The host side: fetching, stalls, writing, rings (chapters 3, 12, 13) -/

/-- HOST_DESC_FETCH, TX_DESC_ARRIVAL, HOST_READ_COMPLETION, HOST_FRAME_LAST_READ, COMPLETION_TIMEOUT and RX_DESC_PREFETCH (R23, R119,
R349, R350, R360 to R362, R368, R369): what each makes of the ring's descriptor and of the frame that is fetched. -/
def Obligations.HostFetches : Prop :=
  ∀ (s : State) (f : Func),
    (∀ (r : TxRing) (pos : Nat), s.fetchReady f r = true → s.fetchRoom = true → s.fetchTurn f r = true → pos = (s.fresh f r).headD 0 →
      ∃ t, exec (.hostDescFetch f r) s = .next t
        ∧ (((s.ring f r).descs.map (·.pos)).contains (s.rd (R.HEAD f r)) = false → pos = s.rd (R.HEAD f r))
        ∧ t.rd (R.HEAD f r) = (s.fresh f r).tail.headD (s.rd (R.DOORBELL f r)) % 2 ^ 16
        ∧ (∀ x : Desc, x ∈ (t.ring f r).descs ↔ x ∈ (s.ring f r).descs ∨ x = ⟨pos, s.entryAddr f r pos, .fetching s.now⟩)
        ∧ (t.ring f r).lastPass = some s.now ∧ t.sent = .readReq f (s.entryAddr f r pos) 32 :: s.sent
        ∧ s.RegsBut t [R.HEAD f r] ∧ t = { s with regs := t.regs, sent := t.sent, hif := { s.hif with rings := t.hif.rings }
                                                  tick := { s.tick with work := t.tick.work } })
    ∧ (∀ (r : TxRing) (d : List Byte) (pos at_ : Nat), s.oldestFetching f r = some (pos, at_) → ((s.ring f r).descs.map (·.pos)).Nodup →
      (txMalformed (s.bit (R.RING_CFG_TS_EN f r)) d = true → ∃ (t : State) (c : Cpl), exec (.txDescArrival f r d) s = .next t
        ∧ c.words.headD 0 = 0x0E ∧ c.due = s.tick.num + 2
        ∧ (t.ring f r).descs = (s.ring f r).descs.map (fun x => if x.pos = pos then { x with st := .ready c } else x)
        ∧ t = { s with hif := { s.hif with rings := t.hif.rings } })
      ∧ (txMalformed (s.bit (R.RING_CFG_TS_EN f r)) d = false → s.bit R.FLT_STAT_ECLIPSE = true →
        ∃ (t : State) (c : Cpl), exec (.txDescArrival f r d) s = .next t ∧ c.words.headD 0 = 0x202
        ∧ (t.ring f r).descs = (s.ring f r).descs.map (fun x => if x.pos = pos then { x with st := .ready c } else x)
        ∧ t = { s with hif := { s.hif with rings := t.hif.rings } })
      ∧ (txMalformed (s.bit (R.RING_CFG_TS_EN f r)) d = false → s.bit R.FLT_STAT_ECLIPSE = false →
        ∃ (t : State) (x : Desc) (n : Nat) (l : List Nat), exec (.txDescArrival f r d) s = .next t ∧ x ∈ (t.ring f r).descs ∧ x.pos = pos
          ∧ x.st = .reading (txDescOf pos d) n 0 l
          ∧ t = { s with sent := t.sent, hif := { s.hif with rings := t.hif.rings }, tick := { s.tick with work := t.tick.work } }))
    ∧ (∀ (r : TxRing) (b : List Byte) (pos : Nat) (d : TxDesc) (i g : Nat) (l : List Nat), s.reading f r = some (pos, d, i, g, l) → g < i →
      (∃ (t : State) (v : Arrival), exec (.hostReadCompletion f r b .data) s = .next t ∧ t.arr (.host f r) = some v
        ∧ v.bytes = ((s.arr (.host f r)).map (·.bytes)).getD [] ++ b.take (i - g) ∧ s.DataPath t)
      ∧ (∀ e : ReadEnd, e ≠ .data → ∃ t, exec (.hostReadCompletion f r b e) s = .next t ∧ t.arr (.host f r) = none
        ∧ t.rd (if f.val < 16 then R.CPL_ERR_CNT f else R.OWNER_CPL_ERR_CNT)
          = min (s.rd (if f.val < 16 then R.CPL_ERR_CNT f else R.OWNER_CPL_ERR_CNT) + 1) (2 ^ 32 - 1) ∧ s.DataPath t))
    ∧ (∀ (r : TxRing) (b : List Byte) (pos at_ : Nat) (e : ReadEnd), s.reading f r = none → s.oldestFetching f r = some (pos, at_) →
      e ≠ .data → ∃ t, exec (.hostReadCompletion f r b e) s = .next t
        ∧ (∀ x ∈ (t.ring f r).descs, x.pos = pos → ∃ c, x.st = .ready c ∧ c.words.headD 0 = 0x03)
        ∧ t.rd (if f.val < 16 then R.CPL_ERR_CNT f else R.OWNER_CPL_ERR_CNT)
          = min (s.rd (if f.val < 16 then R.CPL_ERR_CNT f else R.OWNER_CPL_ERR_CNT) + 1) (2 ^ 32 - 1) ∧ s.DataPath t)
    ∧ (∀ (r : TxRing) (v : Arrival) (d : TxDesc) (i g : Nat) (l : List Nat), s.reading f r = some (d.idx, d, i, g, l) →
      s.arr (.host f r) = some v → d.len ≤ g → v.bytes.length = d.len → ((s.ring f r).descs.map (·.pos)).Nodup →
      s.acceptTurn (.host f r) = true → ∃ t, exec (.hostFrameLastRead f r) s = .next t ∧ t.arr (.host f r) = none
        ∧ (∀ x ∈ (t.ring f r).descs, x.pos = d.idx → (∃ c, x.st = .ready c) ∨ ∃ h, x.st = .accepted h) ∧ s.DataPath t
        ∧ (∀ (u u' : State) (w : Arrival) (c : Ctx) (x : Nat),
          (((s.classifyAll (.host f r)).modArr (.host f r) (fun v => { v with bytes := withFcs v.bytes })).lastCells (.host f r)) = u →
          u.arr (.host f r) = some w → u.ringRate f r w.len = some u' → w.lostClass = false → u'.bit R.FLT_STAT_ECLIPSE = false →
          u'.masRuns = true → w.begun ≠ .cannot → w.noMore = false → w.ctx = some c → c.fin ≠ .running → w.exits c ≠ [] →
          u.arrFlow c = some x → (u'.tryAccept u'.newHandle c w x (w.exits c)).why = none →
          ∃ fr : Frame, mget t.frames u'.newHandle = some fr ∧ fr.flow = x ∧ fr.cells = w.cells ∧ fr.resolved = false
            ∧ ∀ y ∈ (t.ring f r).descs, y.pos = d.idx → y.st = .accepted u'.newHandle))
    ∧ (∀ (r : TxRing) (pos : Nat) (d : TxDesc) (i g : Nat) (l : List Nat), s.reading f r = some (pos, d, i, g, l) → g < i →
      ∃ t, exec (.completionTimeout f (r.castLE (by decide))) s = .next t ∧ t.arr (.host f r) = none ∧ t.stalled = true
        ∧ t.now = max s.now (l.headD s.now + s.cplTimeout f * unitsPerNs)
        ∧ (∀ x ∈ (t.ring f r).descs, x.pos = pos → ∃ c, x.st = .ready c ∧ c.words.headD 0 = 0x04)
        ∧ t.rd (if f.val < 16 then R.CTO_CNT f else R.OWNER_CTO_CNT)
          = min (s.rd (if f.val < 16 then R.CTO_CNT f else R.OWNER_CTO_CNT) + 1) (2 ^ 32 - 1) ∧ s.DataPath t)
    ∧ (∀ (r : TxRing) (pos at_ : Nat), s.reading f r = none → s.oldestFetching f r = some (pos, at_) →
      ∃ t, exec (.completionTimeout f (r.castLE (by decide))) s = .next t ∧ t.stalled = true
        ∧ t.now = max s.now (at_ + s.cplTimeout f * unitsPerNs)
        ∧ (∀ x ∈ (t.ring f r).descs, x.pos = pos → ∃ c, x.st = .ready c ∧ c.words.headD 0 = 0x04)
        ∧ t.rd (if f.val < 16 then R.CTO_CNT f else R.OWNER_CTO_CNT)
          = min (s.rd (if f.val < 16 then R.CTO_CNT f else R.OWNER_CTO_CNT) + 1) (2 ^ 32 - 1) ∧ s.DataPath t)
    ∧ (∀ r : AnyRing, 4 ≤ r.val → r.val ≠ 8 → r.val ≠ 9 → s.ringOn f r = true → s.fresh f r ≠ [] →
      ∃ t, exec (.completionTimeout f r) s = .next t ∧ t.stalled = true ∧ t.now = s.now + s.cplTimeout f * unitsPerNs
        ∧ t.rd (if f.val < 16 then R.CTO_CNT f else R.OWNER_CTO_CNT)
          = min (s.rd (if f.val < 16 then R.CTO_CNT f else R.OWNER_CTO_CNT) + 1) (2 ^ 32 - 1)
        ∧ t = { s with now := t.now, regs := t.regs, irc := t.irc, hif := t.hif, cyc := t.cyc })
    ∧ (∀ (r : AnyRing) (d : List Byte) (pos : Nat), hasRing f r = true → 4 ≤ r.val → r.val ≠ 8 → r.val ≠ 9 → s.ringOn f r = true →
      s.fnDown f = false → s.stalled = false → s.hifUp = true → s.dmaOff = false → s.fresh f r ≠ [] → pos = (s.fresh f r).headD 0 →
      (s.ring f r).descs.length < 128 → s.mayRead f = true → s.aheadRoom = true →
      ∃ (t : State) (x : Desc), exec (.rxDescPrefetch f r d) s = .next t
        ∧ t.rd (R.HEAD f r) = (s.fresh f r).tail.headD (s.rd (R.DOORBELL f r)) % 2 ^ 16
        ∧ (∀ y : Desc, y ∈ (t.ring f r).descs ↔ y ∈ (s.ring f r).descs ∨ y = x)
        ∧ x.pos = pos ∧ x.addr = descDword d 0 + 2 ^ 32 * descDword d 1
        ∧ (rxMalformed d = false → x.st = .held)
        ∧ (rxMalformed d = true → x.st = .ready (bareCpl stMalformed (s.tick.num + 2) s.now))
        ∧ t.sent = .readReq f (s.entryAddr f r pos) 32 :: s.sent ∧ t.tick.ahead = s.tick.ahead + 1
        ∧ s.RegsBut t [R.HEAD f r] ∧ t = { s with regs := t.regs, sent := t.sent, hif := { s.hif with rings := t.hif.rings }, tick := t.tick })

/-- HOST_STALL_DETECT, HOST_STALL_CLEAR and HOST_STALL_ESCALATE (R119, R121): a posted write that waited too long sets the flag, its counters
and its log entry; the flag clears once no posted write has waited too long through 16 whole ticks; a flag that has stood for
HS_ESC_TICKS ticks escalates once. -/
def Obligations.HostStalls : Prop :=
  ∀ s : State,
    (s.stalled = false → ∃ t, exec .hostStallDetect s = .next t ∧ t.stalled = true
      ∧ t.rd R.HS_CNT = min (s.rd R.HS_CNT + 1) (2 ^ R.HS_CNT.width - 1) ∧ (t.src 233).cnt = min ((s.src 233).cnt + 1) 255
      ∧ s.RegsBut t [R.HS_STAT_HOST_STALL, R.HS_CNT, R.EVLOG_LOST]
      ∧ t = { s with regs := t.regs, irc := t.irc, cyc := t.cyc
                     hif := { s.hif with stallTick := some s.tick.num, stallLast := some s.tick.num } })
    ∧ (s.stalled = true → exec .hostStallDetect s = .next { s with hif := { s.hif with stallLast := some s.tick.num } })
    ∧ (∀ k : Nat, s.stalled = true → s.hif.stallLast = some k → k + 17 ≤ s.tick.num → ∃ t, exec .hostStallClear s = .next t
      ∧ t.stalled = false ∧ t.hif.stallTick = none ∧ s.RegsBut t [R.HS_STAT_HOST_STALL, R.EVLOG_LOST]
      ∧ t = { s with regs := t.regs, irc := t.irc, cyc := t.cyc, sent := t.sent, tick := { s.tick with work := t.tick.work }
                     hif := { s.hif with stallTick := none, rings := t.hif.rings } })
    ∧ (∀ k : Nat, s.hif.stallLast = some k → s.tick.num < k + 17 → exec .hostStallClear s = .next s)
    ∧ (∀ k : Nat, s.hif.stallTick = some k → k + s.rd R.HS_ESC_TICKS ≤ s.tick.num → ∃ t, exec .hostStallEscalate s = .next t
      ∧ t.bit R.HS_STAT_HS_ESC = true ∧ s.RegsBut t [R.HS_STAT_HS_ESC, R.EVLOG_LOST]
      ∧ t = { s with regs := t.regs, irc := t.irc, cyc := t.cyc, hif := { s.hif with stallTick := none } })
    ∧ (∀ k : Nat, s.hif.stallTick = some k → s.tick.num < k + s.rd R.HS_ESC_TICKS → exec .hostStallEscalate s = .next s)

/-- HOST_DATA_WRITE, COMPLETION_WRITE, WB_COALESCE_EXPIRE, WRITE_ACKNOWLEDGED, EVENT_RECORD_WRITE and EL_RECORD_WRITE (R96, R97, R366,
R377, R380, R387 to R391): what is posted to host memory, and where the ring's positions stand then. -/
def Obligations.HostWrites : Prop :=
  ∀ s : State,
    (∀ (h : Nat) (i : Fin 8) (fr : Frame) (x : ExitRec) (g r : Nat) (e : Entry) (d : Desc) (o : List Byte), mget s.frames h = some fr →
      fr.exits[i.val]? = some x → s.dataDesc h i x = some (g, r, d, e) → s.dataTurn fr = true → s.provenBytes fr = some o →
      ∃ (t : State) (w : Posted), exec (.hostDataWrite h i) s = .next t
        ∧ t.hif.posted = s.hif.posted ++ [w] ∧ w.fn = g ∧ w.ends = [(h, i.val, false)]
        ∧ w.tlps = (s.cutWrites d.addr (s.exitBytes fr x.exit o).1).map (fun w => ((s.pci g).ro, w.1, w.2))
        ∧ (∀ y ∈ (t.ring g r).descs, y.pos = x.desc → ∃ c, y.st = .ready c ∧ c.exit = some (h, i.val) ∧ c.due = fr.accTick + 2)
        ∧ t = { s with sent := t.sent, hif := { s.hif with rings := t.hif.rings, posted := t.hif.posted }
                       tick := { s.tick with work := t.tick.work } })
    ∧ (∀ (f : Func) (r : AnyRing), s.mayWrite f = true → s.batchDue (s.batch f r) = true → s.batchTurn (s.batch f r) = true →
      ∃ t, exec (.completionWrite f r) s = .next t
        ∧ t.rd (R.CPL f r) = (s.rd (R.CPL f r) + (s.batch f r).length) % 2 ^ 16
        ∧ (t.ring f r).descs = (s.ring f r).descs.drop (s.batch f r).length
        ∧ t.hif.posted.length = s.hif.posted.length + 1 ∧ t.sent.length = s.sent.length + 1
        ∧ t = { s with regs := t.regs, irc := t.irc, cyc := t.cyc, sent := t.sent
                       hif := { s.hif with rings := t.hif.rings, posted := t.hif.posted }, tick := { s.tick with work := t.tick.work } })
    ∧ (∀ (f : Func) (r : AnyRing) (d : Desc) (c : Cpl) (l : List (Desc × Cpl)), r.val ≠ 9 → s.mayWrite f = true → s.batch f r = (d, c) :: l →
      ∃ t, exec (.wbCoalesceExpire f r) s = .next t ∧ t.now = max s.now (c.readyAt + s.rd R.WB_COALESCE * unitsPerNs)
        ∧ t.rd (R.CPL f r) = (s.rd (R.CPL f r) + (l.length + 1)) % 2 ^ 16
        ∧ (t.ring f r).descs = (s.ring f r).descs.drop (l.length + 1) ∧ t.hif.posted.length = s.hif.posted.length + 1
        ∧ t = { s with now := t.now, regs := t.regs, irc := t.irc, cyc := t.cyc, sent := t.sent
                       hif := { s.hif with rings := t.hif.rings, posted := t.hif.posted }, tick := { s.tick with work := t.tick.work } })
    ∧ (∀ (w : Posted) (l : List Posted), s.hif.posted = w :: l → s.hifUp = true →
      ∃ t, exec .writeAcknowledged s = .next t ∧ t.hif.posted = l ∧ s.DataPath t
      ∧ (∀ (h i : Nat) (fr : Frame) (x : ExitRec) (e : Entry), w.ends = [(h, i, false)] → mget s.frames h = some fr →
        fr.exits[i]? = some x → x.disp = none → mget s.led.entries x.entry = some e →
        mget t.led.entries x.entry = some { e with stage := 5 })
      ∧ (∀ (h i : Nat) (fr : Frame) (x : ExitRec) (e : Entry), w.ends = [(h, i, true)] → mget s.frames h = some fr →
        fr.exits[i]? = some x → x.disp = none → mget s.led.entries x.entry = some e →
        mget t.led.entries x.entry = none ∧ t.rd (R.DISP_CNT 1) = min (s.rd (R.DISP_CNT 1) + 1) (2 ^ (R.DISP_CNT 1).width - 1)))
    ∧ (s.hifUp = false → exec .writeAcknowledged s = .next s)
    ∧ (∀ (f : Func) (e : EvRec) (l : List EvRec), mgetD s.events f.val [] = e :: l → s.mayRecord f = true → s.cplPending f e.after = false →
      ((s.ringOn f 9 = false ∨ s.recFree f 9 = 0) → ∃ t, exec (.eventRecordWrite f) s = .next t ∧ mgetD t.events f.val [] = l
        ∧ t.rd (R.RING_CNT1 f 9) = min (s.rd (R.RING_CNT1 f 9) + 1) (2 ^ 32 - 1) ∧ (t.ring f 9).skipped = (s.ring f 9).skipped + 1
        ∧ s.RegsBut t [R.RING_CNT1 f 9] ∧ t = { s with regs := t.regs, events := t.events, hif := { s.hif with rings := t.hif.rings } })
      ∧ (s.ringOn f 9 = true → s.recFree f 9 ≠ 0 → (s.ring f 9).skipped = 0 →
        s.wbDue ((s.evBatch f).map (fun e => (e.readyAt, e.due))) = true → ∃ (t : State) (w : Posted), exec (.eventRecordWrite f) s = .next t
        ∧ mgetD t.events f.val [] = (e :: l).drop ((s.evBatch f).filter (fun e => e.kind != 4)).length
        ∧ t.rd (R.HEAD f 9) = (s.rd (R.HEAD f 9) + (s.evBatch f).length) % 2 ^ 16
        ∧ t.rd (R.RING_CNT0 f 9) = min (s.rd (R.RING_CNT0 f 9) + (s.evBatch f).length) (2 ^ 32 - 1)
        ∧ (t.src (ringSource f 9)).latch = true ∧ t.hif.posted = s.hif.posted ++ [w] ∧ w.fn = f ∧ w.ends = []
        ∧ s.RegsBut t [R.HEAD f 9, R.RING_CNT0 f 9]
        ∧ t = { s with regs := t.regs, events := t.events, sent := t.sent, irc := t.irc, cyc := t.cyc
                       hif := { s.hif with rings := t.hif.rings, posted := t.hif.posted }, tick := { s.tick with work := t.tick.work } }))
    ∧ (∀ (f : Func) (e : EvRec) (l : List EvRec), s.mayRecord f = true → s.evBatch f = e :: l →
      exec (.wbCoalesceExpire f 9) s = .next ((s.upTo (e.readyAt + s.rd R.WB_COALESCE * unitsPerNs)).recordsGo f true))
    ∧ (∀ (n : Tenant) (e : ElRec) (l : List ElRec), s.elRecs n = e :: l → s.ringOn n 8 = true → s.fnDown n = false → s.hifUp = true →
      s.dmaOff = false → ∃ t, exec (.elRecordWrite n) s = .next t ∧ t.elRecs n = l
        ∧ t.rd (R.HEAD n 8) = (s.rd (R.HEAD n 8) + e.entries.length) % 2 ^ 16
        ∧ t.rd (R.RING_CNT0 n 8) = min (s.rd (R.RING_CNT0 n 8) + 1) (2 ^ 32 - 1)
        ∧ (e.kind = 0x13 → t.rd (R.EL_CONFIRM n) = min (s.rd (R.EL_CONFIRM n) + 1) (2 ^ 32 - 1))
        ∧ (e.kind = 0x14 → t.rd (R.EL_RETRACT n) = min (s.rd (R.EL_RETRACT n) + 1) (2 ^ 32 - 1))
        ∧ s.RegsBut t [R.HEAD n 8, R.RING_CNT0 n 8, R.EL_LATE n, R.EL_STAT_OUTSTANDING n, R.EL_CONFIRM n, R.EL_RETRACT n]
        ∧ t = { s with regs := t.regs, irc := t.irc, cyc := t.cyc, sent := t.sent
                       hif := { s.hif with el := t.hif.el, posted := t.hif.posted }, tick := { s.tick with work := t.tick.work } })

/-- DOORBELL, RING_ENABLE, RING_RESET and RING_RESET_END (R352 to R357), where the function and the ring are there and HIF does not
reset. -/
def Obligations.RingControl : Prop :=
  ∀ (s : State) (f : Func) (r : AnyRing), s.barOn f = true → hasRing f r = true → s.bitAt R.ENG_RST_STAT 8 = false →
    (∀ v : BitVec 16, s.ringOn f r = true → r.val ≠ 8 → r.val ≠ 9 →
      (s.rd (R.HEAD f r) + 2 ^ 16 - s.rd (R.CPL f r)) % 2 ^ 16 ≤ (v.toNat + 2 ^ 16 - s.rd (R.CPL f r)) % 2 ^ 16 →
      (v.toNat + 2 ^ 16 - s.rd (R.CPL f r)) % 2 ^ 16 ≤ s.ringSize f r → ∃ t, exec (.doorbell f r v) s = .next t
        ∧ t.rd (R.DOORBELL f r) = v.toNat ∧ s.RegsBut t [R.DOORBELL f r] ∧ (t.ring f r).descs = (s.ring f r).descs
        ∧ t = { s with regs := t.regs, hif := { s.hif with rings := t.hif.rings } })
    ∧ (∀ v : BitVec 16, s.ringOn f r = true → r.val ≠ 8 → r.val ≠ 9 → f = 16 →
      s.ringSize f r < (v.toNat + 2 ^ 16 - s.rd (R.CPL f r)) % 2 ^ 16 → ∃ t, exec (.doorbell f r v) s = .next t
        ∧ t.rd (R.DOORBELL f r) = s.rd (R.DOORBELL f r) ∧ t.bit R.REJ_STAT_CFG_REJECT = true ∧ t.rd R.REJ_STAT_WHY = 1
        ∧ t = { s with regs := t.regs })
    ∧ (∀ v : Dword, s.bit (R.RING_CFG_EN f r) = false → s.bit (R.RING_STAT_RESETTING f r) = false → v.toNat % 2 = 1 →
      ringCfgBad r 1 (v.toNat / 2 ^ 4 % 16) (v.toNat / 2 ^ 8 % 2) (v.toNat / 2 ^ 16 % 2 ^ 14) = false →
      s.quotaOk f r (v.toNat / 2 ^ 4 % 16) = true → ∃ t, exec (.ringEnable f r v) s = .next t
        ∧ t.bit (R.RING_CFG_EN f r) = true ∧ t.bit (R.RING_STAT_ACTIVE f r) = true
        ∧ t.rd (R.RING_CFG_LOG2_SIZE f r) = v.toNat / 2 ^ 4 % 16 ∧ t.rd (R.RING_CFG_BUF_SIZE f r) = v.toNat / 2 ^ 16 % 2 ^ 14
        ∧ t.rd (R.HEAD f r) = 0 ∧ t.rd (R.CPL f r) = 0 ∧ t.rd (R.DOORBELL f r) = 0
        ∧ s.RegsBut t [R.RING_CFG_EN f r, R.RING_STAT_ACTIVE f r, R.RING_CFG_LOG2_SIZE f r, R.RING_CFG_TS_EN f r, R.RING_CFG_BUF_SIZE f r,
          R.HEAD f r, R.CPL f r, R.DOORBELL f r] ∧ t = { s with regs := t.regs })
    ∧ (∀ v : Dword, s.bit (R.RING_CFG_EN f r) = false → v.toNat % 2 = 1 → f ≠ 16 →
      ringCfgBad r 1 (v.toNat / 2 ^ 4 % 16) (v.toNat / 2 ^ 8 % 2) (v.toNat / 2 ^ 16 % 2 ^ 14) = false →
      s.quotaOk f r (v.toNat / 2 ^ 4 % 16) = false → exec (.ringEnable f r v) s = .next (s.put (R.TEN_STAT_QUOTA_HIT f) true))
    ∧ (s.bit (R.RING_CFG_EN f r) = true → s.bit (R.RING_STAT_RESETTING f r) = false → ∃ t, exec (.ringReset f r) s = .next t
        ∧ t.bit (R.RING_STAT_RESETTING f r) = true ∧ t.bit (R.RING_STAT_ACTIVE f r) = false
        ∧ (r.val ≠ 8 → r.val ≠ 9 → ∀ d ∈ (t.ring f r).descs, (∀ n, d.st ≠ .fetching n) ∧ d.st ≠ .held)
        ∧ (r.val = 9 → mgetD t.events f.val [] = []) ∧ (r.val = 8 → ∀ n : Tenant, n.val = f.val → t.elRecs n = [])
        ∧ s.DataPath t)
    ∧ (s.bit (R.RING_CFG_EN f r) = true → s.bit (R.RING_STAT_RESETTING f r) = true →
        exec (.ringReset f r) s = .next (s.put (R.RING_STAT_GO_IGNORED f r) true))
    ∧ (s.bit (R.RING_STAT_RESETTING f r) = true → (s.ring f r).descs = [] → ∃ t, exec (.ringResetEnd f r) s = .next t
        ∧ t.bit (R.RING_STAT_RESETTING f r) = false ∧ t.bit (R.RING_CFG_EN f r) = false
        ∧ t.rd (R.HEAD f r) = 0 ∧ t.rd (R.CPL f r) = 0 ∧ t.rd (R.DOORBELL f r) = 0
        ∧ s.RegsBut t [R.RING_CFG_EN f r, R.RING_STAT_RESETTING f r, R.HEAD f r, R.CPL f r, R.DOORBELL f r]
        ∧ t = { s with regs := t.regs, events := t.events, hif := { s.hif with rings := t.hif.rings } })

/-! ### Network time (chapter 14) -/

/-- TD_RATE_LO_WRITE, SET_VALID, CLR_VALID, SYNC_TIMEOUT and HOLD_MAX_EXPIRE (R404 to R408), where each takes effect: the state
that the domain enters, what VALID reads then, and the rate registers; a change that is due comes
before a write. -/
def Obligations.DomainStates : Prop :=
  ∀ (s : State) (d : Dom),
    (s.syncDue d = false → (s.domState d ≠ 2 ∨ s.rd (R.HOLD_MAX d) = 0 ∨ ((s.td[d.val]?).map (·.holdTicks)).getD 0 < s.rd (R.HOLD_MAX d)) →
      s.domDue d = s)
    ∧ (∀ (v : Dword) (u : State), s.tuUp = true → s.domDue d = u →
      (toSigned 40 (v.toNat + 2 ^ 32 * u.rd (R.TD_RATE_HI d))).natAbs ≤ 0x7A1200000 →
      ∃ t, exec (.tdRateLoWrite d v) s = .next t ∧ t.rd (R.TD_RATE_LO d) = v.toNat
        ∧ (u.domState d = 2 → t.domState d = 1 ∧ t.tdValid d = true) ∧ (u.domState d ≠ 2 → t.domState d = u.domState d)
        ∧ t = { s with regs := t.regs, td := t.td, irc := t.irc, cyc := t.cyc })
    ∧ (∀ u : State, s.tuUp = true → s.domDue d = u → u.maySetValid d = true →
      ∃ t, exec (.setValid d) s = .next t ∧ t.domState d = 1 ∧ t.tdValid d = true
        ∧ u.RegsBut t [R.DOM_STAT_STATE d, R.DOM_STAT_VALID d, R.EVLOG_LOST]
        ∧ t = { s with regs := t.regs, td := t.td, irc := t.irc, cyc := t.cyc })
    ∧ (∀ u : State, s.tuUp = true → s.domDue d = u → ∃ t, exec (.clrValid d) s = .next t ∧ t.domState d = 0
        ∧ t.rd (R.DOM_STAT_SYNC_CNT d) = 0 ∧ t.bit (R.DOM_STAT_RATE_UNTRAINED d) = true
        ∧ t.rd (R.HOLD_RATE_LO d) = 0 ∧ t.rd (R.HOLD_RATE_HI d) = 0
        ∧ u.RegsBut t [R.DOM_STAT_STATE d, R.DOM_STAT_VALID d, R.EVLOG_LOST, R.DOM_STAT_SYNC_CNT d, R.DOM_STAT_RATE_UNTRAINED d,
          R.HOLD_RATE_LO d, R.HOLD_RATE_HI d]
        ∧ t = { s with regs := t.regs, td := t.td, irc := t.irc, cyc := t.cyc })
    ∧ (s.domState d = 1 → s.rd (R.SYNC_TIMEOUT d) ≤ ((s.td[d.val]?).map (·.sinceRate)).getD 0 →
      ∃ t, exec (.syncTimeout d) s = .next t ∧ t.domState d = 2 ∧ t.tdValid d = true
        ∧ t.rd (R.HOLDOVER_CNT d) = min (s.rd (R.HOLDOVER_CNT d) + 1) (2 ^ 32 - 1)
        ∧ s.RegsBut t [R.DOM_STAT_STATE d, R.DOM_STAT_VALID d, R.EVLOG_LOST, R.HOLDOVER_CNT d]
        ∧ t = { s with regs := t.regs, td := t.td, irc := t.irc, cyc := t.cyc })
    ∧ (s.domState d = 2 → s.rd (R.HOLD_MAX d) ≠ 0 → s.rd (R.HOLD_MAX d) ≤ ((s.td[d.val]?).map (·.holdTicks)).getD 0 →
      ∃ t, exec (.holdMaxExpire d) s = .next t ∧ t.domState d = 0 ∧ t.tdValid d = false
        ∧ t.rd (R.TD_RATE_LO d) = s.rd (R.HOLD_RATE_LO d) % 2 ^ 32
        ∧ s.RegsBut t [R.DOM_STAT_STATE d, R.DOM_STAT_VALID d, R.EVLOG_LOST, R.TD_RATE_LO d, R.TD_RATE_HI d]
        ∧ t = { s with regs := t.regs, td := t.td, irc := t.irc, cyc := t.cyc })

/-- TD_ADJ_STEP, TD_ADJ_SLEW, SLEW_DONE and SET_GO (R409 to R411), in the core cycle after the write, where GUARD does not refuse:
a step moves the domain by the amount written, a slew adds it to what is left, the end of a slew leaves none, and a set gives the domain the whole time.
A correction that GUARD refuses leaves the domain and is counted with its size. -/
def Obligations.Corrections : Prop :=
  ∀ (s : State) (d : Dom), s.tuUp = true → s.td.length = 2 →
    (∀ v : Dword, s.bit (R.TD_ADJ_CTRL_MODE d) = false → v ≠ 0 →
      s.guards d (toSigned 32 v.toNat) (s.bit (R.TD_ADJ_CTRL_FORCE d)) = false →
      ∃ t, exec (.tdAdjStep d v) s = .next t ∧ s.nextCycle ≤ t.now
        ∧ (t.tdVal d s.nextCycle : Int)
          = ((s.tdVal d s.nextCycle % tdWrap : Nat) + toSigned 32 v.toNat * (tdUnit : Nat)) % (tdWrap : Nat)
        ∧ t = { s with now := t.now, regs := t.regs, irc := t.irc, td := t.td, tu := t.tu, cyc := t.cyc })
    ∧ (∀ (v : Dword) (u : State), s.bit (R.TD_ADJ_CTRL_MODE d) = true → v ≠ 0 → u = s.upTo s.nextCycle →
      s.guards d (toSigned 32 v.toNat) (s.bit (R.TD_ADJ_CTRL_FORCE d)) = false →
      ∃ t, exec (.tdAdjSlew d v) s = .next t
        ∧ t.adjLeft d = u.adjLeft d + toSigned 32 v.toNat * (tdUnit : Nat)
        ∧ t.bit (R.DOM_STAT_SLEWING d) = decide (t.adjLeft d ≠ 0)
        ∧ s.RegsBut t [R.DOM_STAT_SLEWING d] ∧ t = { u with regs := t.regs, td := t.td })
    ∧ (∀ (v : Dword) (u : State), v ≠ 0 → u = s.upTo s.nextCycle →
      s.guards d (toSigned 32 v.toNat) (s.bit (R.TD_ADJ_CTRL_FORCE d)) = true →
      ∃ t, exec (if s.bit (R.TD_ADJ_CTRL_MODE d) then .tdAdjSlew d v else .tdAdjStep d v) s = .next t
        ∧ t.bit (R.DOM_STAT_GUARD_HIT d) = true ∧ t.rd (R.GUARD_LAST d) = v.toNat
        ∧ t.rd (R.GUARD_CNT d) = min (s.rd (R.GUARD_CNT d) + 1) (2 ^ 32 - 1)
        ∧ s.RegsBut t [R.DOM_STAT_GUARD_HIT d, R.GUARD_CNT d, R.GUARD_LAST d, R.EVLOG_LOST]
        ∧ t = { u with regs := t.regs, irc := t.irc, cyc := t.cyc })
    ∧ (s.bit (R.DOM_STAT_SLEWING d) = true → 0 < s.rd (R.SLEW_PPB d) → s.ClockOk →
      ∃ t, exec (.slewDone d) s = .next t ∧ t.adjLeft d = 0 ∧ t.bit (R.DOM_STAT_SLEWING d) = false
        ∧ s.RegsBut t [R.DOM_STAT_SLEWING d] ∧ t = { s with regs := t.regs, td := t.td, now := t.now, cyc := t.cyc })
    ∧ (∀ (force : Bool) (u : State), u = s.upTo s.nextCycle →
      s.guards d ((s.setTime d : Int) - (u.tdNs d % (2 ^ 48 * 1000000000) : Nat)) force = false →
      ∃ t, exec (.setGo d force) s = .next t ∧ t.tdVal d s.nextCycle = s.setTime d * tdUnit % tdWrap ∧ t.adjLeft d = 0
        ∧ t.bit (R.DOM_STAT_SLEWING d) = false
        ∧ t = { s with now := t.now, regs := t.regs, irc := t.irc, td := t.td, tu := t.tu, cyc := t.cyc })

/-- TOUT_ARM, TOUT_DISARM, TOUT_EDGE, TOUT_PULSE_END, TU_SNAP, TCAP_EDGE and LEAP_APPLY (R403, R417, R418, R421, R424, R425, R427): the output is
armed, disarmed, driven and returns to idle; the snapshot of both domains and the tick, the captured edge, and the announced leap
second. -/
def Obligations.OutputsAndInputs : Prop :=
  ∀ s : State,
    (∀ i : ToutPin, s.tu.tout.length = 8 →
      (s.tuUp = true → (s.rd (R.TOUT_CFG_MODE i) = 1 ∨ s.rd (R.TOUT_CFG_MODE i) = 3) →
        inFuture (s.rd64 (R.TOUT_START_LO i) (R.TOUT_START_HI i)) (s.short (s.outDom i)) = true →
        ∃ t, exec (.toutArm i) s = .next t ∧ t.bit (R.TOUT_CTRL_ARMED i) = true
          ∧ (∃ n, (t.out i).next = some n ∧ n % 2 ^ 40 = s.rd64 (R.TOUT_START_LO i) (R.TOUT_START_HI i) % 2 ^ 40 ∧ s.tdNs (s.outDom i) ≤ n)
          ∧ (∀ k : ToutPin, k ≠ i → t.out k = s.out k) ∧ s.RegsBut t [R.TOUT_CTRL_ARMED i]
          ∧ t = { s with regs := t.regs, tu := t.tu })
      ∧ (s.tuUp = true → ∃ t, exec (.toutDisarm i) s = .next t ∧ t.bit (R.TOUT_CTRL_ARMED i) = false
          ∧ (t.out i).away = false ∧ (t.out i).next = none ∧ (t.out i).endAt = none
          ∧ (∀ k : ToutPin, k ≠ i → t.out k = s.out k) ∧ s.RegsBut t [R.TOUT_CTRL_ARMED i] ∧ t.now = max s.now s.nextCycle
          ∧ t = { s with now := t.now, regs := t.regs, tu := t.tu, cyc := t.cyc })
      ∧ (∀ n, (s.out i).next = some n → (s.out i).idle = false → s.tuUp = true → s.bit (R.TOUT_CFG_REQ_VALID i) = false →
          s.rd (R.TOUT_CFG_MODE i) ≠ 3 →
          ∃ t, exec (.toutEdge i) s = .next t ∧ t.now = max s.now (s.outInstant i n) ∧ (t.out i).away = true
            ∧ (t.out i).endAt = some (t.now + s.rd (R.TOUT_WIDTH i) * unitsPerNs)
            ∧ (t.out i).next = (if s.rd (R.TOUT_CFG_MODE i) = 2 then some (n + s.rd (R.TOUT_PERIOD i)) else none)
            ∧ (∀ k : ToutPin, k ≠ i → t.out k = s.out k) ∧ t = { s with now := t.now, tu := t.tu, cyc := t.cyc })
      ∧ (∀ n, (s.out i).next = some n → (s.out i).idle = false → s.tuUp = true → s.bit (R.TOUT_CFG_REQ_VALID i) = false →
          s.rd (R.TOUT_CFG_MODE i) = 3 →
          ∃ t, exec (.toutEdge i) s = .next t ∧ t.now = max s.now (s.outInstant i n)
            ∧ (t.out i).away = s.bit (R.TOUT_CFG_LEVEL i) ∧ (t.out i).next = none ∧ t.bit (R.TOUT_CTRL_ARMED i) = false
            ∧ s.RegsBut t [R.TOUT_CTRL_ARMED i] ∧ t = { s with now := t.now, tu := t.tu, regs := t.regs, cyc := t.cyc })
      ∧ (∀ e, (s.out i).endAt = some e → ∃ t, exec (.toutPulseEnd i) s = .next t ∧ t.now = max s.now e
          ∧ (t.out i).away = false ∧ (t.out i).endAt = none
          ∧ (s.rd (R.TOUT_CFG_MODE i) = 1 → t.bit (R.TOUT_CTRL_ARMED i) = false)
          ∧ s.RegsBut t [R.TOUT_CTRL_ARMED i] ∧ t = { s with now := t.now, tu := t.tu, regs := t.regs, cyc := t.cyc }))
    ∧ (s.tuUp = true → ∃ t, exec .tuSnap s = .next t
      ∧ (∀ d : Dom, t.rd (R.SNAP (3 * d)) = s.tdNs d % 1000000000 ∧ t.rd (R.SNAP (3 * d + 1)) = s.tdSec d % 2 ^ 32
        ∧ t.rd (R.SNAP (3 * d + 2)) = s.tdSec d / 2 ^ 32 % 2 ^ 32)
      ∧ t.rd (R.SNAP 6) = s.tickNum % 2 ^ 32 ∧ t.rd (R.SNAP 7) = s.tickNum / 2 ^ 32
      ∧ s.RegsBut t ((List.range 8).map R.SNAP) ∧ t = { s with regs := t.regs })
    ∧ (∀ (j : TcapPin) (rising : Bool) (width : Nat) (l : List (List Nat)), s.tuUp = true →
      (if rising then s.rd (R.TCAP_CFG_EDGE j) % 2 = 1 else s.rd (R.TCAP_CFG_EDGE j) / 2 ≠ 0) →
      (s.rd (R.TCAP_CFG_FILTER j) + 1) * 4 ≤ width → s.tu.tcap[j.val]? = some l → l.length < 8 →
      ∃ (t : State) (w : List Nat), exec (.tcapEdge j rising width) s = .next t ∧ t.tu.tcap[j.val]? = some (l ++ [w])
        ∧ w.length = 8 ∧ (w.headD 0).testBit 0 = true ∧ (w.headD 0).testBit 1 = rising
        ∧ (w.headD 0).testBit 2 = s.tdValid 0 ∧ (w.headD 0).testBit 3 = s.tdValid 1
        ∧ t.rd (R.TCAP_COUNT j) = l.length + 1 ∧ s.RegsBut t [R.TCAP_COUNT j]
        ∧ t = { s with regs := t.regs, irc := t.irc, tu := t.tu, cyc := t.cyc })
    ∧ (∀ (j : TcapPin) (rising : Bool) (width : Nat), (s.tuUp = false ∨ 8 ≤ (s.tu.tcap.getD j []).length) →
      (if rising then s.rd (R.TCAP_CFG_EDGE j) % 2 = 1 else s.rd (R.TCAP_CFG_EDGE j) / 2 ≠ 0) →
      (s.rd (R.TCAP_CFG_FILTER j) + 1) * 4 ≤ width →
      exec (.tcapEdge j rising width) s = .next (s.inc (R.TCAP_LOST j)))
    ∧ (s.leapSet = true → s.tdValid 0 = true → ∃ t, exec .leapApply s = .next t ∧ s.now ≤ t.now
      ∧ t.utcOffset = toSigned 16 (ofSigned 16 (s.utcOffset + (if s.bit R.UTC_CFG_LEAP61 then 1 else -1)))
      ∧ t.bit (if s.bit R.UTC_CFG_LEAP61 then R.UTC_CFG_LEAP61 else R.UTC_CFG_LEAP59) = false
      ∧ s.RegsBut t [R.UTC_CFG_OFFSET, R.UTC_CFG_LEAP61, R.UTC_CFG_LEAP59, R.EVLOG_LOST]
      ∧ t = { s with regs := t.regs, irc := t.irc, now := t.now, cyc := t.cyc })

/-- The calendar converter (R428 to R430): CAL_TIME_TO_DATE and CAL_SEC_TO_DATE give the date of the seconds, CAL_DATE_TO_SEC the
seconds of the date, and CAL_DATE_SET sets the domain to them in the next core cycle; each sets DONE. -/
def Obligations.CalendarConverter : Prop :=
  ∀ s : State, s.tuUp = true →
    (∀ (d : Dom) (c : Civil), s.toCivil (s.tdSec d) = some c → ∃ t, exec (.calTimeToDate d) s = .next t ∧ t.bit R.CAL_STAT_DONE = true
      ∧ t.date = c
      ∧ s.RegsBut t [R.CAL_CTRL_OP, R.CAL_CTRL_DOM, R.CAL_STAT_DONE, R.CAL_DATE0, R.CAL_DATE1] ∧ t = { s with regs := t.regs })
    ∧ (∀ c : Civil, s.toCivil (s.rd64 R.CAL_SEC_LO R.CAL_SEC_HI) = some c → ∃ t, exec .calSecToDate s = .next t
      ∧ t.bit R.CAL_STAT_DONE = true
      ∧ t.date = c
      ∧ s.RegsBut t [R.CAL_CTRL_OP, R.CAL_STAT_DONE, R.CAL_DATE0, R.CAL_DATE1] ∧ t = { s with regs := t.regs })
    ∧ (s.possible s.date = true → ∃ t, exec .calDateToSec s = .next t ∧ t.bit R.CAL_STAT_DONE = true
      ∧ t.rd64 R.CAL_SEC_LO R.CAL_SEC_HI = (s.taiOf s.date % 2 ^ 48).toNat
      ∧ s.RegsBut t [R.CAL_CTRL_OP, R.CAL_STAT_DONE, R.CAL_SEC_LO, R.CAL_SEC_HI] ∧ t = { s with regs := t.regs })
    ∧ (s.possible s.date = false → ∃ t, exec .calDateToSec s = .next t ∧ t.bit R.CAL_STAT_DONE = true
      ∧ t.bit R.CAL_STAT_DATE_REJECT = true
      ∧ s.RegsBut t [R.CAL_CTRL_OP, R.CAL_STAT_DONE, R.CAL_STAT_DATE_REJECT] ∧ t = { s with regs := t.regs })
    ∧ (∀ d : Dom, s.td.length = 2 → s.possible s.date = true → s.tdValid d = false →
      ∃ t, exec (.calDateSet d) s = .next t ∧ t.bit R.CAL_STAT_DONE = true
        ∧ t.tdVal d s.nextCycle = (s.taiOf s.date % 2 ^ 48).toNat * 1000000000 * tdUnit % tdWrap ∧ t.adjLeft d = 0
        ∧ t = { s with now := t.now, regs := t.regs, irc := t.irc, td := t.td, tu := t.tu, cyc := t.cyc })

/-- A date converts to seconds and back to itself (R428 to R430), while no leap second is announced. -/
def Obligations.CalendarRoundTrip : Prop :=
  ∀ (s : State) (c : Civil), s.leapSet = false → s.possible c = true → s.toCivil (s.taiOf c).toNat = some c

/-! ### Digests and check values (chapter 15) -/

/-- CRC_JOB_DONE, DIG_JOB_DONE, BANK_RETIRE and CRU_PARITY_FAULT (R261, R262, R436, R437, R445, R454, R455, R457): the result of a frame's
oldest job on a unit at the end of its last block, the banks that retire, and a unit's parity error. -/
def Obligations.FrameJobs : Prop :=
  ∀ s : State,
    (∀ (h : Nat) (u : CruUnit) (c : Ctx) (j : Job) (v : State), s.ctxOf h = some c →
      c.jobs.find? (fun j => j.unit == some u.val && !j.done) = some j → s.bitAt R.ENG_RST_STAT (11 + u) = false →
      v = (s.upTo (s.jobEnd (some u.val) h + 4 * s.cycle)).cruSync u →
      ∃ (t : State) (d c' : Ctx) (k : Nat) (i : Job), exec (.crcJobDone h u) s = .next t
        ∧ v.ctxOf h = some d ∧ d.still = c.still ∧ t.ctxOf h = some c' ∧ c.jobs[k]? = some j ∧ d.jobs[k]? = some i
        ∧ c'.jobs[k]? = some { i with done := true, left := 0, result := beBytes 8 (s.crcResult c.epoch u (j.fold ++ j.data)) }
        ∧ (∀ i, i ≠ k → c'.jobs[i]? = d.jobs[i]?) ∧ c' = { d with jobs := c'.jobs } ∧ (∀ g, g ≠ h → t.ctxOf g = v.ctxOf g)
        ∧ t = { v with mas := { v.mas with lanes := t.mas.lanes } }
        ∧ v = { s with now := v.now, cyc := v.cyc, mas := { s.mas with lanes := v.mas.lanes }, crus := v.crus })
    ∧ (∀ (h corr : Nat) (c : Ctx) (j : Job) (v : State), s.ctxOf h = some c →
      c.jobs.find? (fun j => j.unit.isNone && !j.done) = some j → s.bitAt R.ENG_RST_STAT 10 = false → s.dge.clearing = none →
      v = (s.upTo (s.jobEnd none h)).dgeSync →
      ∃ (t : State) (d c' : Ctx) (k : Nat) (i : Job), exec (.digJobDone h corr) s = .next t
        ∧ v.ctxOf h = some d ∧ d.still = c.still ∧ t.ctxOf h = some c' ∧ c.jobs[k]? = some j ∧ d.jobs[k]? = some i
        ∧ (j.key = none → c'.jobs[k]? = some { i with done := true, left := 0, result := sha j.alg j.data })
        ∧ (∀ m, j.key = some m → c'.jobs[k]? = some { i with
          done := true, left := 0
          result := hmac j.alg (s.keyBankAt m c.epoch).inner (s.keyBankAt m c.epoch).outer j.data })
        ∧ (∀ i, i ≠ k → c'.jobs[i]? = d.jobs[i]?) ∧ c' = { d with jobs := c'.jobs } ∧ (∀ g, g ≠ h → t.ctxOf g = v.ctxOf g)
        ∧ t.rd R.DGE_ECC_CORR = min (s.rd R.DGE_ECC_CORR + corr) (2 ^ R.DGE_ECC_CORR.width - 1) ∧ s.RegsBut t [R.DGE_ECC_CORR]
        ∧ t = { v with regs := t.regs, mas := { v.mas with lanes := t.mas.lanes } }
        ∧ v = { s with now := v.now, cyc := v.cyc, mas := { s.mas with lanes := v.mas.lanes }, dge := v.dge })
    ∧ (∃ t, exec .bankRetire s = .next t
        ∧ (∀ k x, mget s.dge.slots k = some x → mget t.dge.slots k = some (match x.retiring with
          | some e => if s.noOlder e then { x with other := KeyBank.reset, retiring := none } else x
          | none => x))
        ∧ (∀ (u : CruUnit) (e : Nat), (s.cru u).retiring = some e → s.noOlder e = true → t.cru u = { s.cru u with retiring := none })
        ∧ (∀ (u : CruUnit) (e : Nat), (s.cru u).retiring = some e → s.noOlder e = false → t.cru u = s.cru u)
        ∧ t = { s with dge := { s.dge with slots := t.dge.slots }, crus := t.crus })
    ∧ (∀ u : CruUnit, ∃ t, exec (.cruParityFault u) s = .next t ∧ s.Counts t (R.CRU_FAULT_CNT u) ∧ (t.src 232).latch = true
        ∧ (∀ (h : Nat) (c : Ctx) (j : Job), s.ctxOf h = some c → j ∈ c.jobs → j.unit = some u.val → j.done = false →
          (∀ l ∈ s.mas.lanes, ∀ x ∈ l.res.toList ++ l.parked, x.1 ≠ h → ∀ k ∈ x.2.jobs, k.unit = some u.val → k.done = true) →
          ∃ k : Job, t.ctxOf h = some { c with jobs := [k] } ∧ k.unit = some u.val ∧ k.done = true ∧ k.bad = true ∧ k.result = [])
        ∧ (∀ j : JobPort, (∀ l ∈ s.mas.lanes, ∀ x ∈ l.res.toList ++ l.parked, ∀ k ∈ x.2.jobs, k.unit = some u.val → k.done = true) →
          ((s.cruPort u j).state = 1 ∨ (s.cruPort u j).state = 2) → (j = 1 → (s.cruPort u 0).state = 0) →
          (t.cruPort u j).state = 4 ∧ (t.cruPort u j).reason = 1)
        ∧ s.RegsBut t [R.CRU_FAULT_CNT u]
        ∧ t = { s with regs := t.regs, irc := t.irc, cyc := t.cyc, mas := { s.mas with lanes := t.mas.lanes }, dge := t.dge
                       crus := t.crus })

/-- KEY_LOAD_GO, KEY_LOAD_DONE, DGE_CLEAR, DGE_CTRL_CLEAR and DGE_CLEAR_END (R443 to R445, R449): a load begins and ends, a clear zeroes all
that DGE holds, and its end is counted and reported; of causes in one core cycle the lowest counts, a later one is absorbed. -/
def Obligations.KeysAndClears : Prop :=
  ∀ s : State,
    (s.bitAt R.ENG_RST_STAT 10 = false → s.bit R.FLT_STAT_ECLIPSE = false → s.tick.commitAt = none → s.dge.clearing = none →
      (s.keySlot (s.rd R.KEY_SEL)).retiring = none → ∃ t, exec .keyLoadGo s = .next t
        ∧ (s.bit R.KEY_CTRL_GO = false → t.bit R.KEY_CTRL_GO = true ∧ s.RegsBut t [R.KEY_CTRL_GO]
          ∧ t = { s.dgeSync with
            regs := t.regs
            dge := { s.dgeSync.dge with load := some (s.loadBlocks, blockCycles (s.rd R.KEY_ATTR_ALG), s.now) } })
        ∧ (s.bit R.KEY_CTRL_GO = true → t.bit R.KEY_STAT_GO_IGNORED = true ∧ s.RegsBut t [R.KEY_STAT_GO_IGNORED]
          ∧ t = { s with regs := t.regs }))
    ∧ (s.bit R.KEY_CTRL_GO = true → s.bitAt R.ENG_RST_STAT 10 = false → ∃ t, exec .keyLoadDone s = .next t
        ∧ (∀ n cyc at_, (s.dgeTo s.farAhead).dge.load = some (n, cyc, at_) → t.now = max s.now at_)
        ∧ t.keySlot (s.rd R.KEY_SEL) = { s.keySlot (s.rd R.KEY_SEL) with
          staged := true
          other := keyBankOf (s.rd R.KEY_ATTR_ALG) (s.bit R.KEY_ATTR_CON) (s.bit R.KEY_ATTR_CLEAR) (s.keyBytes.take (s.rd R.KEY_ATTR_LEN)) }
        ∧ (∀ k : Nat, k ≠ s.rd R.KEY_SEL → t.keySlot k = s.keySlot k) ∧ (∀ w : Fin 32, t.rd (R.KEY_DATA w) = 0)
        ∧ t.bit R.KEY_CTRL_GO = false ∧ t.dge.load = none ∧ s.RegsBut t (R.KEY_CTRL_GO :: (List.range 32).map R.KEY_DATA)
        ∧ t = { s with now := t.now, cyc := t.cyc, regs := t.regs, mas := { s.mas with lanes := t.mas.lanes }, dge := t.dge })
    ∧ (∀ (c : Instr) (n : Nat), (c = .dgeClear n ∧ 1 ≤ n ∧ n ≤ 5) ∨ (c = .dgeCtrlClear ∧ n = 6 ∧ s.bitAt R.ENG_RST_STAT 10 = false) →
      (∀ at_ m : Nat, s.dge.clearing = some (at_, m) → at_ / s.cycle = s.now / s.cycle →
        exec c s = .next { s with dge := { s.dge with clearing := some (at_, min m n) } })
      ∧ (∀ at_ m : Nat, s.dge.clearing = some (at_, m) → at_ / s.cycle ≠ s.now / s.cycle → exec c s = .next s)
      ∧ (s.dge.clearing = none → ∃ t, exec c s = .next t ∧ t.dge.clearing = some (s.now, n) ∧ t.dge.slots = [] ∧ t.dge.load = none
        ∧ (∀ x ∈ t.dge.ctxs, x.state = 0 ∨ (x.state = 4 ∧ x.reason = 1 ∧ x.chain = [] ∧ x.buf = [] ∧ x.part = [] ∧ x.digest = []))
        ∧ (∀ w : Fin 32, t.rd (R.KEY_DATA w) = 0) ∧ t.rd R.SYS_DATA_LO = 0 ∧ t.bit R.KEY_CTRL_GO = false
        ∧ (∀ (h : Nat) (c : Ctx) (j : Job), t.ctxOf h = some c → j ∈ c.jobs → j.unit = none → j.done = true ∧ j.bad = true ∧ j.result = [])
        ∧ s.RegsBut t (R.KEY_CTRL_GO :: R.SYS_DATA_LO :: (List.range 32).map R.KEY_DATA)
        ∧ t = { s with regs := t.regs, mas := { s.mas with lanes := t.mas.lanes }, dge := t.dge, crus := t.crus }))
    ∧ (∀ a n : Nat, s.dge.clearing = some (a, n) → n < 2 ^ R.DGE_CLEAR_CAUSE.width → ∃ t, exec .dgeClearEnd s = .next t
        ∧ t.dge.clearing = none ∧ t.rd R.DGE_CLEAR_CAUSE = n
        ∧ s.Counts t R.DGE_CLEAR_CNT ∧ t.bit R.DGE_STAT_CLEARED = true
        ∧ s.RegsBut t [R.DGE_CLEAR_CAUSE, R.DGE_CLEAR_CNT, R.DGE_STAT_CLEARED, R.EVLOG_LOST]
        ∧ t = { s with regs := t.regs, irc := t.irc, cyc := t.cyc
                       dge := { s.dge with clearing := none, pipes := List.replicate 4 s.now } })

/-- What DGE and a job port take into their state earlier or later does not change the digest or the check value they end with: neither a
block of a context that starts, nor the bytes that make no full block, nor a block of a job port (R434, R436, R438, R452, R455). -/
def Obligations.AbsorbingKeepsDigest : Prop :=
  (∀ (x y : Stream) (n : Nat), x.part.length < shaBlock x.alg →
    (y = Stream.fill n x ∨ (x.state = 1 ∧ x.blockReady = true ∧ y = x.startBlock n)) →
    y.digestOf = x.digestOf ∧ y.part.length < shaBlock x.alg ∧ y.count + y.buf.length = x.count + x.buf.length)
  ∧ (∀ (x : CruPort) (n : Nat),
    crcFeed x.width x.poly x.refin (x.startBlock n).reg ((x.startBlock n).part ++ (x.startBlock n).buf)
      = crcFeed x.width x.poly x.refin x.reg (x.part ++ x.buf))

/-- SYS_OPEN, SYS_APPEND, SYS_TAIL, SYS_FINAL, SYS_ABORT, STREAM_DONE, DIGEST_15_READ and CONTEXT_PREEMPT (R436, R438 to R442, R448) while DGE
takes writes: the owner's computation on context 16, and the end of any context's. -/
def Obligations.Streams : Prop :=
  ∀ s : State, s.dge.ctxs.length = 17 → s.dgeReject = none →
    (∀ (alg : Nat) (k : Sys2Proof.KeySlot) (h : Bool), alg < 5 → (s.stream 16).state ≠ 1 → (s.stream 16).state ≠ 2 →
      ((s.stream 16).state = 0 ∨ (s.stream 16).holder ≠ 2) → ∃ t, exec (.sysOpen alg h k) s = .next t
        ∧ t.rd R.SYS_CTRL_ALG = alg % 8 ∧ t.bit R.SYS_CTRL_HMAC = h ∧ t.rd R.SYS_CTRL_KEY = k.val
        ∧ (h = false → s.StreamGives t 16 (Stream.start alg 1 s.now none))
        ∧ (∀ b, h = true → s.streamKey alg k false = some b → s.StreamGives t 16 (Stream.start alg 1 s.now (some b)))
        ∧ (h = true → s.streamKey alg k false = none → t.dge = s.dge ∧ t.mas = s.mas ∧ t.bit R.SYS_STAT_OPEN_REFUSED = true)
        ∧ s.RegsBut t [R.SYS_CTRL_ALG, R.SYS_CTRL_HMAC, R.SYS_CTRL_KEY, R.SYS_STAT_OPEN_REFUSED]
        ∧ t = { s with regs := t.regs, mas := t.mas, dge := t.dge })
    ∧ ((s.stream 16).state = 1 → (s.stream 16).holder = 1 →
      (∀ v : Dword, ∃ t, exec (.sysAppend v) s = .next t
        ∧ s.StreamGives t 16 ((s.stream 16).append s.now (leBytes 4 (s.rd R.SYS_DATA_LO) ++ leBytes 4 v.toNat))
        ∧ t = { s with mas := t.mas, dge := t.dge })
      ∧ (∀ n : Fin 8, n.val ≠ 0 → ∃ (t : State) (l : List Byte), exec (.sysTail n) s = .next t ∧ l.length = n.val
        ∧ l.take 4 = (leBytes 4 (s.rd R.SYS_DATA_LO)).take n.val ∧ s.StreamGives t 16 ((s.stream 16).append s.now l)
        ∧ t.draws = (if n.val ≤ 4 then s.draws else s.draws + 1) ∧ t = { s with draws := t.draws, mas := t.mas, dge := t.dge })
      ∧ (∃ t, exec .sysFinal s = .next t ∧ s.StreamGives t 16 ((s.stream 16).final s.now) ∧ ((s.stream 16).final s.now).state = 2
        ∧ t = { s with mas := t.mas, dge := t.dge })
      ∧ (∃ t, exec .sysAbort s = .next t ∧ s.StreamGives t 16 Stream.reset ∧ t = { s with mas := t.mas, dge := t.dge })
      ∧ (∀ (n : Nat) (v : State), s.dge.mgcWait = some n → v = (s.upTo (n + 10000000 * unitsPerNs)).dgeSync →
        ∃ t, exec .contextPreempt s = .next t ∧ t.now = max s.now (n + 10000000 * unitsPerNs)
        ∧ t.dge.ctxs[16]? = some { Stream.reset with state := 4, holder := 2, reason := 5 }
        ∧ (∀ k : Nat, k ≠ 16 → t.dge.ctxs[k]? = v.dge.ctxs[k]?)
        ∧ t = { v with dge := { v.dge with ctxs := t.dge.ctxs, mgcWait := none } }
        ∧ v = { s with now := v.now, cyc := v.cyc, mas := { s.mas with lanes := v.mas.lanes }, dge := v.dge }))
    ∧ (∀ (c : DgeCtx) (corr : Nat) (v : State), (s.stream c).state = 2 →
      v = (s.upTo ((s.dgeTo s.farAhead).dge.ctxs.getD c (s.stream c)).busyUntil).dgeSync →
      ∃ t, exec (.streamDone c corr) s = .next t
        ∧ t.dge.ctxs[c.val]? = some { Stream.reset with
          state := 3, holder := (s.stream c).holder, alg := (s.stream c).alg
          count := (s.stream c).count + (s.stream c).buf.length, digest := (s.stream c).digestOf }
        ∧ (∀ k : Nat, k ≠ c.val → t.dge.ctxs[k]? = v.dge.ctxs[k]?)
        ∧ t.rd R.DGE_ECC_CORR = min (s.rd R.DGE_ECC_CORR + corr) (2 ^ R.DGE_ECC_CORR.width - 1) ∧ s.RegsBut t [R.DGE_ECC_CORR]
        ∧ t = { v with regs := t.regs, dge := { v.dge with ctxs := t.dge.ctxs } }
        ∧ v = { s with now := v.now, cyc := v.cyc, mas := { s.mas with lanes := v.mas.lanes }, dge := v.dge })
    ∧ (∀ rd : Reader, s.OwnerReached rd → ∃ t, exec (.digest15Read rd) s = .next t
        ∧ t.sent = .readData rd (R.DIGEST 15).off (leNat (sliceD (s.stream 16).digest 60 4)) :: s.sent
        ∧ ((s.stream 16).state = 3 → s.StreamGives t 16 Stream.reset)
        ∧ ((s.stream 16).state ≠ 3 → t.dge = s.dge ∧ t.mas = s.mas)
        ∧ t = { s with sent := t.sent, mas := t.mas, dge := t.dge })

/-- CRU_JOB_OPEN, CRU_JOB_APPEND, CRU_JOB_TAIL, CRU_JOB_FINAL, CRU_JOB_ABORT and CRU_PORT_JOB_DONE (R452 to R456) while the unit takes writes:
the job port goes from IDLE through OPEN and FINISHING to DONE with the check value of its bytes, 4 cycles after its last block. -/
def Obligations.CruPorts : Prop :=
  ∀ (s : State) (u : CruUnit) (j : JobPort), s.crus.length = 4 → (s.cru u).ports.length = 2 → s.bitAt R.ENG_RST_STAT (11 + u) = false →
    (∀ n : Fin 16, n.val ≤ 8 → (s.cruPort u j).state ≠ 1 → (s.cruPort u j).state ≠ 2 → s.jpar64 u j R.POLY_LO R.POLY_HI ≠ 0 →
      s.jpar64 u j R.POLY_LO R.POLY_HI < 2 ^ s.rd (R.JPAR_CFG_WIDTH u j) → s.jpar64 u j R.INIT_LO R.INIT_HI < 2 ^ s.rd (R.JPAR_CFG_WIDTH u j) →
      s.jpar64 u j R.XOROUT_LO R.XOROUT_HI < 2 ^ s.rd (R.JPAR_CFG_WIDTH u j) → ∃ t, exec (.cruJobOpen u j n) s = .next t
        ∧ t.rd (R.JCTRL_FOLD_LEN u j) = n.val
        ∧ s.PortGives t u j { CruPort.reset with
          state := 1, width := s.rd (R.JPAR_CFG_WIDTH u j), poly := s.jpar64 u j R.POLY_LO R.POLY_HI
          refin := s.bit (R.JPAR_CFG_REFIN u j), refout := s.bit (R.JPAR_CFG_REFOUT u j)
          xorout := s.jpar64 u j R.XOROUT_LO R.XOROUT_HI, reg := s.jpar64 u j R.INIT_LO R.INIT_HI
          part := beBytes n.val (s.rd64 (R.JFOLD_LO u j) (R.JFOLD_HI u j)), lastAt := s.now }
        ∧ s.RegsBut t [R.JCTRL_FOLD_LEN u j] ∧ t = { s with regs := t.regs, mas := t.mas, crus := t.crus })
    ∧ ((s.cruPort u j).state = 1 →
      (∀ v : Dword, ∃ t, exec (.cruJobAppend u j v) s = .next t
        ∧ ((s.cruPort u j).buf.length ≤ 56 → s.PortGives t u j { s.cruPort u j with
          buf := (s.cruPort u j).buf ++ (leBytes 4 (s.rd (R.JDATA_LO u j)) ++ leBytes 4 v.toNat), lastAt := s.now })
        ∧ (56 < (s.cruPort u j).buf.length → s.PortGives t u j { CruPort.reset with state := 4, reason := 3 })
        ∧ t = { s with mas := t.mas, crus := t.crus })
      ∧ (∀ n : Fin 8, n.val ≠ 0 → ∃ (t : State) (l : List Byte), exec (.cruJobTail u j n) s = .next t
          ∧ l.length = n.val ∧ l.take 4 = (leBytes 4 (s.rd (R.JDATA_LO u j))).take n.val
          ∧ ((s.cruPort u j).buf.length + n.val ≤ 64 → s.PortGives t u j { s.cruPort u j with
            buf := (s.cruPort u j).buf ++ l, lastAt := s.now })
          ∧ (64 < (s.cruPort u j).buf.length + n.val → s.PortGives t u j { CruPort.reset with state := 4, reason := 3 })
          ∧ t = { s with draws := t.draws, mas := t.mas, crus := t.crus })
      ∧ (∃ t, exec (.cruJobFinal u j) s = .next t ∧ s.PortGives t u j { s.cruPort u j with state := 2, lastAt := s.now }
        ∧ t = { s with mas := t.mas, crus := t.crus }))
    ∧ (∃ t, exec (.cruJobAbort u j) s = .next t ∧ s.PortGives t u j CruPort.reset ∧ t = { s with mas := t.mas, crus := t.crus })
    ∧ (∀ (v : State) (x : CruPort), (s.cruPort u j).state = 2 →
      v = s.upTo ((((s.cruTo u s.farAhead).cru u).ports.getD j (s.cruPort u j)).readyAt + 4 * s.cycle) → x = v.cruPort u j →
      ∃ t, exec (.cruPortJobDone u j) s = .next t
        ∧ x.width = (s.cruPort u j).width ∧ x.refout = (s.cruPort u j).refout ∧ x.xorout = (s.cruPort u j).xorout
        ∧ v.PortGives t u j { x with
          state := 3, lastAt := v.now
          result := Nat.xor (if x.refout then reflect x.width x.reg else x.reg) x.xorout }
        ∧ t = { s with now := v.now, cyc := v.cyc, mas := t.mas, crus := t.crus })

/-! ### Interrupts and FIFOs (chapter 16) -/

/-- IRQ_MESSAGE_ISSUE, IRQ_HELD_RELEASE, EOI, PEND_WRITE and IRQ_CNT_READ (R461 to R466, R468, R469, R473): the message that goes next, one
that is held and let go, the end of service, and the bits and counts of a source. -/
def Obligations.Interrupts : Prop :=
  ∀ s : State,
    (∀ i k a : Nat, s.bitAt R.ENG_RST_STAT 15 = false → (∀ n, s.irc.lastMsg = some n → n + 16 * s.cycle ≤ s.now) →
      s.countOffline.nextMsg = some (i, k, a) → k < 16 → ∃ t, exec .irqMessageIssue s = .next t
        ∧ (t.src i).insvc = true ∧ (t.src i).pend = false ∧ (t.src i).oldest = none ∧ (t.src i).lastIssue = some s.now
        ∧ (t.src i).lastSlot = k ∧ t.irc.lastMsg = some s.now ∧ s.Counts t R.MSG_CNT ∧ t.bit (R.SLOT_STATE_IDLE k) = false
        ∧ (s.countOffline.msgHeld (sourceOwner i) k = false → (t.src i).held = none
          ∧ t.sent = .message i k (s.rd64 (R.MSIX_ADDR_LO (sourceOwner i) k) (R.MSIX_ADDR_HI (sourceOwner i) k)) (s.src i).vec :: s.sent)
        ∧ (s.countOffline.msgHeld (sourceOwner i) k = true → (t.src i).held = some (k, (s.src i).vec) ∧ t.sent = s.sent)
        ∧ (∀ j, j ≠ i → t.src j = { s.src j with offlineHeld := (t.src j).offlineHeld })
        ∧ t = { s with regs := t.regs, irc := t.irc, sent := t.sent, tick := { s.tick with work := t.tick.work } })
    ∧ (s.bitAt R.ENG_RST_STAT 15 = true → ∃ t, exec .irqMessageIssue s = .next t
      ∧ (∀ j, t.src j = { s.src j with offlineHeld := (t.src j).offlineHeld }) ∧ s.RegsBut t [R.HELD_CNT]
      ∧ t = { s with regs := t.regs, irc := { s.irc with src := t.irc.src } })
    ∧ (∀ (i : IrqSource) (k v : Nat), (s.src i).held = some (k, v) → s.msgHeld (sourceOwner i) k = false →
      ∃ t, exec (.irqHeldRelease i) s = .next t ∧ t.src i = { s.src i with held := none }
        ∧ t.sent = .message i k (s.rd64 (R.MSIX_ADDR_LO (sourceOwner i) k) (R.MSIX_ADDR_HI (sourceOwner i) k)) v :: s.sent
        ∧ (mwf s.irc.src = true → (∀ j : Nat, j ≠ i → sourceOwner j = sourceOwner i → (s.src j).held.map (·.1) ≠ some k) →
          (t.pba (sourceOwner i)).testBit k = false)
        ∧ (∀ j : Nat, j ≠ i → t.src j = s.src j)
        ∧ t = { s with irc := { s.irc with src := t.irc.src }, sent := t.sent, tick := { s.tick with work := t.tick.work } })
    ∧ (s.bitAt R.ENG_RST_STAT 15 = false →
      (∀ i : IrqSource, ∃ t, exec (.eoi i) s = .next t
        ∧ (mget s.cyc.srcs i = none → t.src i = { s.src i with insvc := false, latch := false, oldest := none })
        ∧ ((mget s.cyc.srcs i).isSome = true → t.src i = { s.src i with insvc := false })
        ∧ (∀ j : Nat, j ≠ i → t.src j = s.src j) ∧ t = { s with irc := { s.irc with src := t.irc.src } })
      ∧ (∀ i : IrqSource, ∃ t, exec (.pendWrite i) s = .next t ∧ t.src i = { s.src i with pend := true } ∧ t.pend i = true
        ∧ (∀ j : Nat, j ≠ i → t.src j = s.src j) ∧ t = { s with irc := { s.irc with src := t.irc.src } })
      ∧ (∀ (rd : Reader) (i : IrqSource) (b n : Nat), s.OwnerReached rd → mgetD s.cyc.srcs i ((s.src i).cnt, 0) = (b, n) →
        ∃ t, exec (.irqCntRead rd i) s = .next t
        ∧ t.sent = .readData rd (R.CNT i).off b :: s.sent
        ∧ t.src i = { s.src i with cnt := if sourceOwner i = 16 then n else (s.src i).cnt } ∧ (n = 0 → t.cyc = s.cyc)
        ∧ (∀ j : Nat, j ≠ i → t.src j = s.src j) ∧ t = { s with sent := t.sent, cyc := t.cyc, irc := { s.irc with src := t.irc.src } })
      ∧ (∀ (m : Tenant) (i : IrqSource) (b n : Nat), sourceOwner i = m → s.barOn m = true →
        mgetD s.cyc.srcs i ((s.src i).cnt, 0) = (b, n) → ∃ (t : State) (o : Nat), exec (.irqCntRead (.tenant m) i) s = .next t
        ∧ t.sent = .readData (.tenant m) o b :: s.sent ∧ t.src i = { s.src i with cnt := n } ∧ (n = 0 → t.cyc = s.cyc)
        ∧ (∀ j : Nat, j ≠ i → t.src j = s.src j) ∧ t = { s with sent := t.sent, cyc := t.cyc, irc := { s.irc with src := t.irc.src } }))

/-- EVLOG_LO_READ, TELE_SAMPLE, TELE_D_0_READ, TLR_MOVE, TLR_TAIL_WRITE and FIFO_AGE_EXPIRE (R482 to R488): entries and records are put at the
end of their FIFO, leave it at the front, once, and what is left ages. -/
def Obligations.Fifos : Prop :=
  ∀ s : State,
    (s.bitAt R.ENG_RST_STAT 15 = false → ∀ rd : Reader, s.OwnerReached rd →
      (∀ (e : LogEntry) (l : List LogEntry), s.irc.log = e :: l → s.cyc.log < s.irc.log.length → ∃ t, exec (.evlogLoRead rd) s = .next t
        ∧ t.sent = .readData rd R.EVLOG_LO.off (e.word % 2 ^ 32) :: s.sent ∧ t.latch rd R.EVLOG_HI = e.word / 2 ^ 32
        ∧ t.irc.log = l ∧ t.irc.logAge = 0 ∧ t.irc.lastRemoved = e ∧ s.LatchesBut t rd
        ∧ t = { s with sent := t.sent, latches := t.latches, irc := t.irc })
      ∧ (s.irc.log.length ≤ s.cyc.log → ∃ t, exec (.evlogLoRead rd) s = .next t ∧ t.bit R.EVLOG_STAT_UNDERRUN = true
        ∧ t.sent = .readData rd R.EVLOG_LO.off (s.irc.lastRemoved.word % 2 ^ 32) :: s.sent
        ∧ s.RegsBut t [R.EVLOG_STAT_UNDERRUN] ∧ t = { s with sent := t.sent, regs := t.regs })
      ∧ (∀ (e : List Nat) (l : List (List Nat)), s.rd R.TELE_CFG_DEST = 0 → s.irc.tele = e :: l → s.cyc.tele < s.irc.tele.length →
        ∃ t, exec (.teleD0Read rd) s = .next t ∧ t.sent = .readData rd (R.TELE_D 0).off (e.headD 0) :: s.sent
        ∧ (∀ k : Fin 15, t.latch rd (R.TELE_D (k + 1)) = e.getD (k + 1) 0) ∧ t.irc.tele = l ∧ t.irc.teleAge = 0 ∧ s.LatchesBut t rd
        ∧ t = { s with sent := t.sent, latches := t.latches, irc := t.irc }))
    ∧ (s.bit R.TELE_CFG_EN = true → s.irc.teleTick ≠ some s.tick.num → s.tickNum % s.rd R.TELE_CFG_PERIOD = 0 →
      ∃ t, exec .teleSample s = .next t ∧ t.irc.teleTick = some s.tick.num
        ∧ (s.rd R.TELE_CFG_TYPES = 1 → s.rd R.TELE_CFG_DEST ≠ 2 → s.irc.teleLost = 0 → s.irc.tele.length < teleMax →
          ∃ r, t.irc.tele = s.irc.tele ++ [r] ∧ r.length = 16 ∧ r.headD 0 % 2 ^ 8 = 1 ∧ r.headD 0 / 2 ^ 16 = s.irc.teleSeq
            ∧ t.irc.teleSeq = (s.irc.teleSeq + 1) % 2 ^ 16 ∧ t = { s with irc := t.irc, cyc := t.cyc }))
    ∧ (∀ (r : List Nat) (l : List (List Nat)), s.rd R.TELE_CFG_DEST = 1 → s.irc.tele = r :: l → s.mayWrite 16 = true → s.stalled = false → s.ringRoom = true →
      (s.rd R.TLR_HEAD + 2 ^ 16 - s.rd R.TLR_TAIL) % 2 ^ 16 < 2 ^ s.rd R.TLR_LOG2 → ∃ (t : State) (b : List Byte), exec .tlrMove s = .next t
        ∧ t.sent = .write 16 false (s.rd64 R.TLR_BASE_LO R.TLR_BASE_HI + 64 * (s.rd R.TLR_HEAD % 2 ^ s.rd R.TLR_LOG2)) b :: s.sent
        ∧ b.length = 4 * r.length ∧ t.irc.tele = l ∧ t.rd R.TLR_HEAD = (s.rd R.TLR_HEAD + 1) % 2 ^ 16 ∧ (t.src 243).latch = true
        ∧ s.RegsBut t [R.TLR_HEAD]
        ∧ t = { s with regs := t.regs, irc := t.irc, cyc := t.cyc, sent := t.sent, tick := { s.tick with work := t.tick.work } })
    ∧ (∀ v : BitVec 16, s.bitAt R.ENG_RST_STAT 15 = false → (v.toNat + 2 ^ 16 - s.rd R.TLR_TAIL) % 2 ^ 16 ≤ (s.rd R.TLR_HEAD + 2 ^ 16 - s.rd R.TLR_TAIL) % 2 ^ 16 →
      ∃ t, exec (.tlrTailWrite v) s = .next t ∧ t.rd R.TLR_TAIL = v.toNat ∧ s.RegsBut t [R.TLR_TAIL] ∧ t = { s with regs := t.regs })
    ∧ (s.rd R.EVLOG_AGE_TICKS ≠ 0 → s.irc.log ≠ [] → s.rd R.EVLOG_AGE_TICKS ≤ s.irc.logAge → s.irc.aged.1 = false →
      ∃ t, exec (.fifoAgeExpire .evlog) s = .next t
      ∧ t.bit R.EVLOG_STAT_AGE = true ∧ t.irc.aged.1 = true ∧ s.RegsBut t [R.EVLOG_STAT_AGE]
        ∧ t = { s with regs := t.regs, cyc := t.cyc, irc := { s.irc with src := t.irc.src, aged := t.irc.aged } })
    ∧ (s.rd R.TELE_AGE_TICKS ≠ 0 → s.irc.tele ≠ [] → s.rd R.TELE_AGE_TICKS ≤ s.irc.teleAge → s.irc.aged.2 = false →
      ∃ t, exec (.fifoAgeExpire .tele) s = .next t
      ∧ t.bit R.TELE_STAT_AGE = true ∧ t.irc.aged.2 = true ∧ s.RegsBut t [R.TELE_STAT_AGE]
        ∧ t = { s with regs := t.regs, cyc := t.cyc, irc := { s.irc with src := t.irc.src, aged := t.irc.aged } })

/-! ### The Molsum console (chapter 17) -/

/-- MBX_CMD_GO, MBX_RPL_POP, UART_BYTE_RECEIVED, UART_TX_BYTE_END, NETCON_FRAME and CONSOLE_RETRY (R441, R490, R491, R495, R503 to R509, R511 to
R514): how lines come in and replies go out. -/
def Obligations.ConsoleInputs : Prop :=
  ∀ s : State,
    (∀ f : Func, (∀ c : Instr, c = .mbxCmdGo f ∨ c = .mbxRplPop f →
        (s.addressable f = false → exec c s = .next s)
        ∧ (s.addressable f = true → (s.pci f).mse = false → exec c s = .next ((s.aerLog f 1).emit (.config f .unsupported)))
        ∧ (s.addressable f = true → (s.pci f).mse = true → f.val < 16 → s.bitAt R.HIF_FLR_STAT f = true → exec c s = .next s))
      ∧ (s.barOn f = true → f.val < 16 → s.inf (R.QUOTA_MBX_EN f) = 0 → exec (.mbxCmdGo f) s = .next (s.put (R.TEN_STAT_QUOTA_HIT f) true))
      ∧ (s.barOn f = true → (f.val < 16 → s.inf (R.QUOTA_MBX_EN f) ≠ 0) → s.bit (R.MBX_STAT_CMD_BUSY f) = true →
        exec (.mbxCmdGo f) s = .next (s.put (R.MBX_STAT_GO_IGNORED f) true))
      ∧ (s.barOn f = true → (f.val < 16 → s.inf (R.QUOTA_MBX_EN f) ≠ 0) → s.bit (R.MBX_STAT_CMD_BUSY f) = false → s.conIdle = false →
        ∃ (t : State) (x : ConLine), exec (.mbxCmdGo f) s = .next t ∧ s.LineTaken t x ∧ t.con = { s.con with lines := t.con.lines }
          ∧ x.ch = chNum (.mbx f) ∧ x.strict = s.strict (chNum (.mbx f)) ∧ x.bad = false ∧ x.at_ = s.now
          ∧ x.bytes = (((List.range 40).map (fun w => leBytes 4 (s.rd (mbxWord f w)))).flatten.take (s.rd (R.MBX_CMD_LEN f))).take 161
          ∧ t.bit (R.MBX_STAT_CMD_BUSY f) = true ∧ s.RegsBut t (R.MBX_STAT_CMD_BUSY f :: j1Regs)
          ∧ t = { s with regs := t.regs, con := t.con, mas := { s.mas with lanes := t.mas.lanes }, crus := t.crus })
      ∧ (s.barOn f = true → (s.chan (chNum (.mbx f))).events = [] → s.con.waiting = [] → s.con.lines = [] →
        ∃ t, exec (.mbxRplPop f) s = .next t
          ∧ t.chan (chNum (.mbx f)) = { s.chan (chNum (.mbx f)) with replies := (s.chan (chNum (.mbx f))).replies.drop 1 }
          ∧ t = { s with con := { s.con with chans := t.con.chans } })
      ∧ (∀ w : List Byte, s.barOn f = true → (s.chan (chNum (.mbx f))).events = [] → (s.chan (chNum (.mbx f))).replies.length = 16 →
        s.con.waiting = [(f.val, true, w)] → s.con.lines = [] → ∃ t, exec (.mbxRplPop f) s = .next t
          ∧ (t.chan (chNum (.mbx f))).replies = (s.chan (chNum (.mbx f))).replies.drop 1 ++ [(false, w)] ∧ t.con.waiting = []
          ∧ t.bit (R.MBX_STAT_CMD_BUSY f) = false ∧ (t.src (170 + f.val)).latch = true
          ∧ s.RegsBut t [R.MBX_STAT_CMD_BUSY f] ∧ t = { s with regs := t.regs, irc := t.irc, cyc := t.cyc, con := t.con }))
    ∧ (∀ b : Byte, (s.rd R.CON_CFG_UART_MODE = 0 → ∀ ok : Bool, exec (.uartByteReceived b ok) s = .next s)
      ∧ (s.rd R.CON_CFG_UART_MODE ≠ 0 → s.bit R.BOOT_STAT_RECOVERY = false →
        (∃ t, exec (.uartByteReceived b false) s = .next t ∧ s.Counts t R.CON_FRAMING ∧ t.con = { s.con with partBad := true }
          ∧ s.RegsBut t [R.CON_FRAMING] ∧ t = { s with regs := t.regs, con := t.con })
        ∧ (512 ≤ s.uartBehind → ∃ t, exec (.uartByteReceived b true) s = .next t ∧ s.Counts t R.CON_OVERRUN
          ∧ t.con = { s.con with partBad := true } ∧ s.RegsBut t [R.CON_OVERRUN] ∧ t = { s with regs := t.regs, con := t.con })
        ∧ (s.uartBehind < 512 →
          (b ≠ 0x0A → b ≠ 0x0D → (s.strict 0 = true ∨ b ≠ 0x08 ∧ b ≠ 0x7F) → ∃ t, exec (.uartByteReceived b true) s = .next t
            ∧ t.con.part = (s.con.part ++ [b]).take 512 ∧ t.con.lastCr = false ∧ t.con.lines = s.con.lines
            ∧ t.con.tx = (if s.strict 0 then s.con.tx else s.con.tx ++ [b]) ∧ t = { s with con := t.con })
          ∧ (s.strict 0 = false → (b = 0x08 ∨ b = 0x7F) → ∃ t, exec (.uartByteReceived b true) s = .next t
            ∧ t.con.part = s.con.part.dropLast ∧ t.con.lines = s.con.lines ∧ t = { s with con := t.con })
          ∧ (b = 0x0A → s.con.lastCr = true → exec (.uartByteReceived b true) s = .next { s with con := { s.con with lastCr := false } })
          ∧ ((b = 0x0D ∨ b = 0x0A ∧ s.con.lastCr = false) → s.conIdle = false → s.crus.length = 4 → (s.cru 3).ports.length = 2 →
            ∃ t, exec (.uartByteReceived b true) s = .next t
            ∧ s.LineTaken t ⟨0, s.con.part.take 161, s.strict 0, s.con.partBad, s.now⟩ ∧ t.con.part = [] ∧ t.J1Ran s.con.part
            ∧ t.con.partBad = false ∧ t.con.tx = (if s.strict 0 then s.con.tx else s.con.tx ++ crlf) ∧ s.RegsBut t j1Regs
            ∧ t = { s with regs := t.regs, con := t.con, mas := { s.mas with lanes := t.mas.lanes }, crus := t.crus }))))
    ∧ (s.con.tx = [] → exec .uartTxByteEnd s = .next s)
    ∧ (∀ (b : Byte) (l : List Byte), s.con.tx = b :: l → (s.chan 0).events = [] → ∃ t, exec .uartTxByteEnd s = .next t
      ∧ t.now = max s.now (s.con.txAt + ceilDiv (10 * 64 * 1000000000) (bauds.getD s.con.rate 115200)) ∧ t.sent = .conByte b :: s.sent
      ∧ t.con.tx = l ∧ t.con.txAt = t.now
      ∧ (s.con.rateNext = none → t.con.rate = s.con.rate ∧ t.regs = s.regs)
      ∧ (∀ n r, s.con.rateNext = some (n, r) → n ≤ 1 → r < 8 →
        t.con.rate = (if s.rd R.PM_STAT_STATE = 2 then s.con.rate else r) ∧ t.rd R.CON_CFG_BAUD = r ∧ t.con.rateNext = none)
      ∧ s.RegsBut t [R.CON_CFG_BAUD] ∧ t = { s with now := t.now, cyc := t.cyc, sent := t.sent, regs := t.regs, con := t.con })
    ∧ (s.hif.mgc = [] → exec .netconFrame s = .next s)
    ∧ (∀ (h i : Nat) (f : Frame) (x : ExitRec) (o b pay sa : List Byte) (p : Port), s.hif.mgc.head? = some (h, i) →
      mget s.frames h = some f → f.resolved = true → f.exits[i]? = some x → s.provenBytes f = some o → b = (s.exitBytes f x.exit o).1 →
      f.src = .port p → s.mgcStopped = false → (s.con.lines.filter (fun x => decide (2 ≤ x.ch ∧ x.ch ≤ 7))).length < 8 →
      s.inf R.NETCON_CFG_PORTS / 2 ^ p.val % 2 = 1 → (parseTags (s.tpidOf f.src) b).etype = s.inf R.NETCON_CFG_ETYPE →
      pay = b.drop ((parseTags (s.tpidOf f.src) b).etypeOff + 2) → sa = sliceD b 6 6 →
      (s.ownerHolds16 = true → (s.netWants sa pay).isSome = true →
        exec .netconFrame s = .next { s with dge := { s.dge with mgcWait := some (s.dge.mgcWait.getD s.now) } })
      ∧ (s.ownerHolds16 = false → pay.getD 0 0 ≠ 1 → ∃ t, exec .netconFrame s = .next t ∧ s.Counts t R.NET_REJECT
        ∧ t.con.lines = s.con.lines ∧ t.con.peers = s.con.peers)
      ∧ (∀ n : Nat, s.ownerHolds16 = false → s.conIdle = false → pay.getD 0 0 = 1 → pay.getD 1 0 = 1 →
        (pay.getD 2 0).toNat = s.inf R.NETCON_CFG2_KEY → n = (pay.getD 3 0).toNat → 1 ≤ n → n ≤ 160 → n + 20 ≤ pay.length →
        s.netTag (s.inf R.NETCON_CFG2_KEY) sa (pay.take (4 + n)) = some (sliceD pay (4 + n) 16) → ∃ t, exec .netconFrame s = .next t
          ∧ s.LineTaken t ⟨2 + p, (sliceD pay 4 n).take 161, true, false, s.now⟩ ∧ mget t.con.peers p = some sa
          ∧ t.rd R.NET_REJECT = s.rd R.NET_REJECT))
    ∧ (∀ (x : ConLine) (n : Nat) (l : List (List Byte)), s.con.lines = [x] → s.conIdle = true → s.judgeLine x = .retry →
      (x.ch = 0 → (s.chan 0).stored = some (n, l) → ∃ t, exec (.consoleRetry .uart) s = .next t ∧ t.con.lines = []
        ∧ t.con.tx = s.con.tx ++ (l.map (· ++ crlf)).flatten ∧ t = { s with con := t.con })
      ∧ (∀ f : Func, x.ch = chNum (.mbx f) → (s.chan x.ch).stored = some (n, l) → l ≠ [] → l.length ≤ 16 →
        (s.chan x.ch).replies.length + l.length ≤ 16 → ∃ t, exec (.consoleRetry (.mbx f)) s = .next t ∧ t.con.lines = []
          ∧ (t.chan x.ch).replies = (s.chan x.ch).replies ++ l.map (fun r => (false, r)) ∧ t.bit (R.MBX_STAT_CMD_BUSY f) = false
          ∧ s.RegsBut t [R.MBX_STAT_CMD_BUSY f] ∧ t = { s with regs := t.regs, irc := t.irc, cyc := t.cyc, con := t.con })
      ∧ (∀ p : Port, x.ch = chNum (.net p) → (s.chan x.ch).stored = none →
        exec (.consoleRetry (.net p)) s = .next { s with con := { s.con with lines := [] } }))

/-- PING, MODE, BAUD, SHOW, RD, WR, SET, STAGE_DROP, CHECK, COMMIT, LOG, TELE_ON and TELE_OFF (R497, R498, R503, R517 to R524): what each does for
the line in service, and how it answers; and what an answer on the UART is. -/
def Obligations.ConsoleVerbs : Prop :=
  ∀ s : State,
    (∀ (x : ConLine) (q : Option Nat) (ts : List Tok) (text : List Byte), s.con.lines = [x] → x.ch = 0 → readLine x = .command q ts →
      (∃ b, b = devLine x.strict q (txt "ok" ++ (if text.isEmpty then [] else txt " " ++ text)) ∧ (s.ok text).con.tx = s.con.tx ++ b ++ crlf
        ∧ (s.ok text).con.lines = [] ∧ (s.ok text).con.serving = none ∧ ((s.ok text).chan 0).stored = q.map (fun n => (n, [b]))
        ∧ s.Counts (s.ok text) R.LINES_OK ∧ s.RegsBut (s.ok text) (R.LINES_OK :: j1Regs)
        ∧ (s.crus.length = 4 → (s.cru 3).ports.length = 2 → (s.ok text).J1Ran b)
        ∧ s.ok text = { s with
          con := (s.ok text).con, regs := (s.ok text).regs, mas := { s.mas with lanes := (s.ok text).mas.lanes }, crus := (s.ok text).crus })
      ∧ (∀ e : Nat, s.Counts (s.er e) R.LINES_ER ∧ s.RegsBut (s.er e) (R.LINES_ER :: j1Regs) ∧ (s.er e).con.lines = []
        ∧ (s.er e).con.tx = s.con.tx ++ devLine x.strict q (txt "er" ++ txt " " ++ (dec e ++ txt " " ++ errorText e)) ++ crlf))
    ∧ (∀ (ch : Channel) (v : ConVerb) (x : ConLine) (q : Option Nat) (a : List Tok) (u : State), s.Serves ch v x q a → u = s.netTakes x →
      (v = .ping → exec (.ping ch) s = .next (if a = [] then u.ok (txt "pong") else u.er 10))
      ∧ (v = .mode → ∀ t i, a = [t] → keyword x.strict [txt "strict", txt "interactive"] t = .ok i →
        ∃ w : State, exec (.mode ch) s = .next w.flushLines
        ∧ (ch = .uart → w.bit R.CON_STAT_STRICT = (i == 0)) ∧ (∀ f : Func, ch = .mbx f → w.bit (R.MBX_STAT_STRICT f) = (i == 0)))
      ∧ (v = .baud → ∀ t n, a = [t] → number t = some n →
        (∀ r, bauds.findIdx? (· == n) = some r → exec (.baud ch) s = .next { u.ok with
          con := { u.ok.con with rateNext := some (u.ok.con.tx.length, r) } })
        ∧ (n ∉ bauds → exec (.baud ch) s = .next (u.er 16)))
      ∧ (v = .show_ → ∀ t i, a = [t] → keyword x.strict showWords t = .ok i → s.bit R.BOOT_STAT_RECOVERY = false →
        (i = 0 → exec (.show ch) s = .next (u.ok u.showDevice)) ∧ (i = 1 → exec (.show ch) s = .next (u.ok u.showTick))
        ∧ (i = 2 → exec (.show ch) s = .next (u.ok (u.showTime 0))) ∧ (i = 3 → exec (.show ch) s = .next (u.ok u.showEpoch))
        ∧ (i = 5 → tenantOf x.ch = none → exec (.show ch) s = .next (u.ok u.showBuffer))
        ∧ (i = 8 → tenantOf x.ch = none → exec (.show ch) s = .next (u.conFinish u.showStage))
        ∧ (∀ n, tenantOf x.ch = some n → (i = 9 → exec (.show ch) s = .next (u.ok (u.showSelf n)))
          ∧ (i = 4 ∨ i = 5 ∨ i = 7 ∨ i = 8 → exec (.show ch) s = .next (u.er 17))))
      ∧ (v = .rd → ∀ t n, a = [t] → number t = some n → tenantOf x.ch = none →
        (n % 4 = 0 → n < 0x400000 → exec (.rd ch) s = .next ((u.readReg .mgc n).2.ok (hex32 (u.readReg .mgc n).1)))
        ∧ ((n % 4 ≠ 0 ∨ 0x400000 ≤ n) → exec (.rd ch) s = .next (u.er 16)))
      ∧ (v = .wr → ∀ t y n k, a = [t, y] → number t = some n → number y = some k → tenantOf x.ch = none → n % 4 = 0 → n < 0x400000 →
        k < 2 ^ 32 → (∀ w, u.ownerWrite n k = (none, w) → exec (.wr ch) s = .next w.ok)
          ∧ (∀ c w, u.ownerWrite n k = (some c, w) → exec (.wr ch) s = .next (w.er (rejectEr c))))
      ∧ (v = .set → ∀ t r k d i r' f y n, a = t :: r → keyword x.strict (setRegs.map (fun d => txt d.name)) t = .ok k → setRegs[k]? = some d →
        setIndices d.dims r = .ok (i, r') → setField x.strict d r' = .ok (f, [y]) →
        fieldValue (signedFields.contains (d.name, f.name)) (f.hi + 1 - f.lo) y = .ok n → ∀ off,
        off = d.base + ((d.dims.zip i).map (fun x => x.1.1 * x.2)).sum → barRegs none off ≠ [] → (f.takes = true → f.lim.ok n = true) →
        u.comboBad d.base i (u.setWord off d i f n) = false →
        (s.tick.commitAt ≠ none → isStaging d = true → exec (.setField ch) s = .next ((u.put R.BCHK_STATUS_LOCKED true).er 21))
        ∧ (∀ w, s.tick.commitAt = none → u.ownerWrite off (u.setWord off d i f n) = (none, w) → exec (.setField ch) s = .next w.ok))
      ∧ (v = .stageDrop → a = [] → (s.tick.commitAt = none → exec (.stageDrop ch) s = .next u.stageDrop.ok
          ∧ (s.Canonical → (∀ f : Fld, stagedKey (Fld.key f) = true → u.stageDrop.rd f = s.inf f)
            ∧ ∀ f : Fld, stagedKey (Fld.key f) = false → u.stageDrop.rd f = u.rd f))
        ∧ (s.tick.commitAt ≠ none → exec (.stageDrop ch) s = .next (u.er 21)))
      ∧ (v = .check → a = [] → exec (.check ch) s = .next { u with
          tick := { u.tick with checks := u.tick.checks ++ [.check ch] }, con := { u.con with serving := some .check } })
      ∧ (v = .commit → a = [] → (s.tick.commitAt = none → exec (.commit ch) s = .next { u with
          tick := { u.tick with checks := u.tick.checks ++ [.commit ch none] }, con := { u.con with serving := some .check } })
        ∧ (s.tick.commitAt ≠ none → exec (.commit ch) s = .next (u.er 33)))
      ∧ (v = .commit → ∀ ta tt tn n, a = [ta, tt, tn] → keyword x.strict [txt "at"] ta = .ok 0 → keyword x.strict [txt "tick"] tt = .ok 0 →
        number tn = some n → n < 2 ^ 48 → s.tick.commitAt = none → exec (.commit ch) s = .next { u with
          tick := { u.tick with checks := u.tick.checks ++ [.commit ch (some n)] }, con := { u.con with serving := some .check } })
      ∧ (v = .log → ∀ t n, a = [t] → number t = some n → (1 ≤ n → n ≤ 64 → ∀ l w, State.logLines n u = (l, w) →
          exec (.log ch) s = .next (w.conFinish ⟨true, dec l.length, l⟩) ∧ l.length ≤ n)
        ∧ ((n = 0 ∨ 64 < n) → exec (.log ch) s = .next (u.er 16)))
      ∧ (v = .teleOn → a = [] → (s.con.tele = none → ∃ w : State, exec (.teleOn ch) s = .next w.ok ∧ w.con.tele = some x.ch ∧ w.rd R.TELE_CFG_DEST = 2)
        ∧ (s.con.tele = some x.ch → exec (.teleOn ch) s = .next u.ok)
        ∧ (∀ c, s.con.tele = some c → c ≠ x.ch → exec (.teleOn ch) s = .next (u.er 20)))
      ∧ (v = .teleOff → a = [] → (s.con.tele = some x.ch → ∃ w : State, exec (.teleOff ch) s = .next w.ok ∧ w.con.tele = none ∧ w.rd R.TELE_CFG_DEST = 0)
        ∧ (s.con.tele ≠ some x.ch → exec (.teleOff ch) s = .next (u.er 18))))

/-- MDIO_RD, MDIO_WR, RESET_ENGINE, RESET_TENANT, RESET_SELF, RESET_DEVICE, DIGEST_OPEN, DIGEST_DATA, DIGEST_FINAL, DIGEST_ABORT, UPDATE_STATUS,
UPDATE_BEGIN, UPDATE_DATA, UPDATE_END, UPDATE_ACTIVATE and UPDATE_CONFIRM (R525 to R527, R577, R581, R586): what each does for the line in
service, and how it answers. -/
def Obligations.ConsoleWork : Prop :=
  ∀ (s : State) (ch : Channel) (v : ConVerb) (x : ConLine) (q : Option Nat) (a : List Tok) (u : State), s.Serves ch v x q a →
    u = s.netTakes x →
    (∀ (p d r m : Nat) (tp t_ tr : Tok), number tp = some p → number t_ = some d → number tr = some r → p < 6 → d < 32 → r < 65536 →
      m = s.inf (R.PHY_LOC_BUS p) → s.mdio.length = 2 → m < 2 →
      (v = .mdioRd → a = [tp, t_, tr] →
        (s.inf (R.PHY_LOC_CL45 p) = 1 → s.parked m = false → (s.mdioOf m).running = none → (s.mdioOf m).mgc = [] →
          ∃ w, exec (.mdioRd ch) s = .next w
          ∧ w.con.serving = some (.mdio m) ∧ (w.mdioOf m).running = some (1, ⟨1, 3, s.inf (R.PHY_LOC_PRTAD p), d, r, 0, 0⟩)
          ∧ (w.mdioOf m).since = s.now ∧ (w.mdioOf m).owner = (s.mdioOf m).owner
          ∧ w.con.lines = s.con.lines ∧ w = { u with con := w.con, mdio := w.mdio, sent := w.sent })
        ∧ (s.inf (R.PHY_LOC_CL45 p) ≠ 1 → (d ≠ 0 ∨ 32 ≤ r) → exec (.mdioRd ch) s = .next (u.er 16)))
      ∧ (∀ (tv : Tok) (n : Nat), number tv = some n → n < 65536 → v = .mdioWr → a = [tp, t_, tr, tv] →
        (s.inf (R.PHY_LOC_CL45 p) = 1 → s.parked m = false → (s.mdioOf m).running ≠ none → ∃ w, exec (.mdioWr ch) s = .next w
          ∧ w.con.serving = some (.mdio m) ∧ (w.mdioOf m).mgc = (s.mdioOf m).mgc ++ [(1, ⟨1, 1, s.inf (R.PHY_LOC_PRTAD p), d, r, n, 0⟩)]
          ∧ (w.mdioOf m).running = (s.mdioOf m).running ∧ w = { u with con := w.con, mdio := w.mdio })))
    ∧ (v = .resetEngine → ∀ t e, a = [t] → keyword x.strict engineWords t = .ok e → e ≠ 16 →
      (s.bitAt R.ENG_RST_STAT e = false → ∃ w, exec (.resetEngine ch) s = .next w ∧ w.con.serving = some (.engine e)
        ∧ w.bitAt R.ENG_RST_STAT e = true ∧ w.con.lines = s.con.lines ∧ w.force = s.force)
      ∧ (s.bitAt R.ENG_RST_STAT e = true → s.selfNow e = false → exec (.resetEngine ch) s = .next (((u.log 0x82 x.ch).put R.FLT_STAT_GO_IGNORED true).er 18)))
    ∧ (v = .resetTenant → ∀ t n, a = [t] → number t = some n → n < 16 → s.bitAt R.HIF_FLR_STAT n = false →
      (n < s.hif.numVfs → x.ch ≠ 8 + n → ∃ w, exec (.resetTenant ch) s = .next w ∧ w.con.serving = some (.tenant n)
        ∧ w.bitAt R.HIF_FLR_STAT n = true ∧ w.force = s.force)
      ∧ (s.hif.numVfs ≤ n → exec (.resetTenant ch) s = .next (u.log 0x82 x.ch).ok))
    ∧ (v = .resetSelf → a = [] → ∀ n, tenantOf x.ch = some n → n < s.hif.numVfs → s.bitAt R.HIF_FLR_STAT n = false →
      ∃ w : State, exec (.resetSelf ch) s = .next w.flushLines ∧ w.bitAt R.HIF_FLR_STAT n = true ∧ (∀ y ∈ w.con.lines, y.ch ≠ x.ch) ∧ w.force = s.force)
    ∧ (v = .resetDevice → a = [] → exec (.resetDevice ch) s = .next { (u.log 0x82 x.ch).ok with
        boot := { (u.log 0x82 x.ch).ok.boot with resetDue := some ((u.log 0x82 x.ch).ok.now + 1000000 * unitsPerNs) } })
    ∧ (∀ c : Nat, c = digestCtx x.ch →
      (v = .digestOpen → ∀ t i, a = [t] → keyword x.strict algWords t = .ok i →
        (s.dgeShut = false → ((s.stream c).state = 0 ∨ (s.stream c).state = 3 ∧ (s.stream c).holder = holderOf x.ch) →
          exec (.digestOpen ch) s = .next (u.setStream c (Stream.start i (holderOf x.ch) s.now none)).ok)
        ∧ (c = 16 → (s.stream 16).state ≠ 0 → (s.stream 16).holder = 2 → exec (.digestOpen ch) s = .next (u.er 20)))
      ∧ (v = .digestData → ∀ t l, a = [t] → hexData t = some l →
        (l.length ≤ 64 → (s.stream c).state = 1 → (s.stream c).holder = holderOf x.ch → exec (.digestData ch) s = .next (u.feed c l).ok)
        ∧ (64 < l.length → exec (.digestData ch) s = .next (u.er 16))
        ∧ (l.length ≤ 64 → (s.stream c).state = 0 → exec (.digestData ch) s = .next (u.er 18)))
      ∧ (v = .digestFinal → a = [] → s.dge.ctxs.length = 17 → s.dgeShut = false → (s.stream c).state = 1 → (s.stream c).holder = holderOf x.ch →
        ∃ (w : State) (d : List Byte), exec (.digestFinal ch) s = .next ((w.setStream c Stream.reset).ok (hexBytes d))
          ∧ d = (s.stream c).digestOf.take (digestLen (s.stream c).alg) ∧ w = { u with now := w.now, cyc := w.cyc, mas := { u.mas with lanes := w.mas.lanes }, dge := w.dge })
      ∧ (v = .digestAbort → a = [] → ((s.stream c).holder = holderOf x.ch →
          exec (.digestAbort ch) s = .next (u.setStream c Stream.reset).ok)
        ∧ ((s.stream c).holder ≠ holderOf x.ch → exec (.digestAbort ch) s = .next u.ok)))
    ∧ (v = .updateStatus → a = [] → exec (.updateStatus ch) s = .next (u.ok u.statusText))
    ∧ (s.foreignSession ch = false →
      (v = .updateBegin → ∀ t k, a = [t] → keyword x.strict [txt "a", txt "b"] t = .ok k →
        (s.jnl.get k = 3 ∨ s.jnl.get k = 4 → ∀ ok : Bool, exec (.updateBegin ch ok) s = .next (u.er 41))
        ∧ (s.jnl.get k ≠ 3 → s.jnl.get k ≠ 4 → exec (.updateBegin ch false) s = .next (u.er 45) ∧ ∃ w : State,
          exec (.updateBegin ch true) s = .next w.ok
          ∧ w.boot.session = some (ch, k, 0) ∧ w.jnl.get k = 1 ∧ w.slot k = [] ∧ w.slot (1 - k) = s.slot (1 - k)))
      ∧ (v = .updateData → ∀ to_ th off l, a = [to_, th] → number to_ = some off → off < 2 ^ 32 → hexData th = some l → l.length ≤ 64 →
        (s.loading ch = none → ∀ ok : Bool, exec (.updateData ch ok) s = .next (u.er 40))
        ∧ (∀ k n, s.loading ch = some (k, n) → (off ≠ n ∨ 3145728 < off + l.length) → ∀ ok : Bool, exec (.updateData ch ok) s = .next (u.er 42))
        ∧ (∀ k, s.loading ch = some (k, off) → off + l.length ≤ 3145728 → ∃ w : State, exec (.updateData ch true) s = .next w.ok
          ∧ w.slot k = norPut (s.slot k) off l ∧ w.boot.session = some (ch, k, off + l.length)))
      ∧ (v = .updateEnd → a = [] → ∀ k n, s.loading ch = some (k, n) → s.ownerHolds16 = false →
        (s.genuine (s.slot k) = false → ∃ w : State, exec (.updateEnd ch true) s = .next (w.er 43) ∧ w.boot.session = none ∧ w.jnl = s.jnl)
        ∧ (s.genuine (s.slot k) = true → s.passesRollback (imageSv (s.slot k)) = true → ∃ w : State,
          exec (.updateEnd ch true) s = .next w.ok
          ∧ w.boot.session = none ∧ w.jnl.get k = 2))
      ∧ (v = .updateActivate → a = [] → s.jnl.slotIn 3 = none → ∀ k, s.stagedSlot = some k → s.passesRollback (s.jnl.sv k) = true →
        ∃ w : State, exec (.updateActivate ch true) s = .next w.ok ∧ w.jnl.get k = 3 ∧ w.jnl.trials = 0)
      ∧ (v = .updateActivate → a = [] → s.stagedSlot = none → ∀ ok : Bool, exec (.updateActivate ch ok) s = .next (u.er 40))
      ∧ (v = .updateConfirm → a = [] → ∀ m : Nat,
        (s.bit R.BOOT_STAT_TRIAL = true → s.jnl.get (s.rd R.BOOT_STAT_SLOT) = 3 → ∃ w : State,
          exec (.updateConfirm ch true m) s = .next w.ok
          ∧ w.jnl.get (s.rd R.BOOT_STAT_SLOT) = 4 ∧ w.jnl.trials = 0 ∧ w.boot.trialEnd = none
          ∧ (s.jnl.get (1 - s.rd R.BOOT_STAT_SLOT) = 4 → w.jnl.get (1 - s.rd R.BOOT_STAT_SLOT) = 2))
        ∧ (s.bit R.BOOT_STAT_TRIAL = false → ∀ ok : Bool, exec (.updateConfirm ch ok m) s = .next (u.er 18))))

/-! ### Power states and wake (chapter 18) -/

/-- PM_REQ_DAY, PM_REQ_DUSK, PM_REQ_TWILIGHT, PM_REQ_NIGHT, DUSK_SWITCH, BIAS_SETTLED, DUSK_EXIT_SWITCH, DRAIN_COMPLETE, DRAIN_TIMEOUT,
PME_TURN_OFF, L2_WAIT_TIMEOUT, L2_REACHED, TW_NIGHT_EXPIRE and LTR_MECHANISM_ENABLE (R533 to R544): where each transition begins, how it goes
on and ends, and what refuses it. -/
def Obligations.PowerTransitions : Prop :=
  ∀ s : State,
    (∀ (c : Instr) (n : Nat), (c = .pmReqDay ∧ n = 0) ∨ (c = .pmReqDusk ∧ n = 1) ∨ (c = .pmReqTwilight ∧ n = 2)
        ∨ (c = .pmReqNight ∧ n = 3) →
      (s.bit R.FLT_STAT_ECLIPSE = true → exec c s = .next (s.reject R.PM_CTRL_GO.off 5))
      ∧ (s.bit R.FLT_STAT_ECLIPSE = false → s.bit R.PM_STAT_BUSY = true → ∃ t, exec c s = .next t ∧ t.bit R.PM_STAT_GO_IGNORED = true
        ∧ t.rd R.PM_CTRL_TARGET = n ∧ s.RegsBut t [R.PM_CTRL_TARGET, R.PM_STAT_GO_IGNORED] ∧ t = { s with regs := t.regs })
      ∧ (s.bit R.FLT_STAT_ECLIPSE = false → s.bit R.PM_STAT_BUSY = false →
        (s.rd R.PM_STAT_STATE = n → s.rd R.PM_STAT_STATE ≠ 3 → exec c s = .next (s.wr R.PM_CTRL_TARGET n))
        ∧ ((s.rd R.PM_STAT_STATE = 0 ∧ 2 ≤ n ∨ s.rd R.PM_STAT_STATE = 2 ∧ n = 0) → ∃ t, exec c s = .next t ∧ t.rd R.PM_STAT_REFUSE = 7
          ∧ (t.src 245).latch = true ∧ s.RegsBut t [R.PM_CTRL_TARGET, R.PM_STAT_REFUSE, R.EVLOG_LOST]
          ∧ t = { s with regs := t.regs, irc := t.irc, cyc := t.cyc })
        ∧ (s.rd R.PM_STAT_STATE = 1 → n = 0 → ∃ t, exec c s = .next t ∧ t.bit R.PM_STAT_BUSY = true
          ∧ s.RegsBut t [R.PM_CTRL_TARGET, R.PM_STAT_BUSY] ∧ t = { s with regs := t.regs, pm := { s.pm with phase := .ramp s.now true } })
        ∧ (s.rd R.PM_STAT_STATE = 0 → n = 1 → s.tick.commitAt = none →
          (∀ p : Port, s.inf (R.PORT_CFG_IF p) = 0 ∨ s.inf (R.PORT_CFG_RATE_MAX p) ≤ 1) → ∃ t, exec c s = .next t
            ∧ t.bit R.PM_STAT_BUSY = true ∧ s.RegsBut t [R.PM_CTRL_TARGET, R.PM_STAT_BUSY]
            ∧ t = { s with regs := t.regs, pm := { s.pm with phase := .duskCheck }
                           tick := { s.tick with checks := s.tick.checks ++ [.dusk] } })
        ∧ (s.rd R.PM_STAT_STATE = 1 → 2 ≤ n → (n = 2 → s.listenBad = false) → s.tick.commitAt = none → ∃ t, exec c s = .next t
            ∧ t.bit R.PM_STAT_BUSY = true ∧ t.bit R.PM_STAT_DRAIN = true
            ∧ s.RegsBut t [R.PM_CTRL_TARGET, R.PM_STAT_BUSY, R.PM_STAT_DRAIN]
            ∧ t = { s with regs := t.regs, pm := { s.pm with phase := .drain s.tick.num (decide (n = 3)) } })))
    ∧ (∀ n : Nat, s.pm.phase = .duskAt n →
      (n ≤ s.tick.num → s.now = s.tick.start → ∃ t, exec .duskSwitch s = .next t ∧ t.rd R.PM_STAT_STATE = 1
        ∧ s.RegsBut t [R.PM_STAT_STATE] ∧ t = { s with regs := t.regs, pm := { s.pm with phase := .ramp s.now false } })
      ∧ ((s.tick.num < n ∨ s.now ≠ s.tick.start) → exec .duskSwitch s = .next s))
    ∧ (∀ n : Nat, s.pm.phase = .ramp n true → exec .biasSettled s = .next { s with pm := { s.pm with phase := .dayAt } })
    ∧ (∀ (c : Instr) (n : Nat), (c = .biasSettled ∧ s.pm.phase = .ramp n false)
        ∨ (c = .duskExitSwitch ∧ s.pm.phase = .dayAt ∧ s.now = s.tick.start) →
      ∃ t, exec c s = .next t ∧ t.pm.phase = .settled ∧ t.rd R.PM_STAT_STATE = (if c = .duskExitSwitch then 0 else s.rd R.PM_STAT_STATE)
        ∧ t.bit R.PM_STAT_BUSY = false ∧ t.rd R.PM_STAT_REFUSE = 0 ∧ (t.src 245).latch = true
        ∧ (s.hif.ltrOn = true → t.rd R.PM_STAT_STATE ≤ 1 →
          t.sent = .ltr (if t.rd R.PM_STAT_STATE = 0 then 10000 else 1000000) :: s.sent)
        ∧ (s.hif.ltrOn = false → t.sent = s.sent)
        ∧ s.RegsBut t [R.PM_STAT_STATE, R.PM_STAT_BUSY, R.PM_STAT_DRAIN, R.PM_STAT_TW_READY, R.PM_STAT_REFUSE, R.EVLOG_LOST]
        ∧ t = { s with regs := t.regs, irc := t.irc, cyc := t.cyc, sent := t.sent, pm := { s.pm with phase := .settled } })
    ∧ (∀ (n : Nat) (night : Bool), s.pm.phase = .drain n night →
      (s.led.entries = [] → s.freeCells = cellCount → ∃ t, exec .drainComplete s = .next t ∧ t.bit R.PM_STAT_TW_READY = true
        ∧ (t.src 245).latch = true ∧ s.RegsBut t [R.PM_STAT_TW_READY]
        ∧ t = { s with regs := t.regs, irc := t.irc, cyc := t.cyc, pm := { s.pm with phase := .handOver s.now night false } })
      ∧ (s.led.entries ≠ [] → exec .drainComplete s = .next s)
      ∧ (n + s.rd R.TW_DRAIN_TICKS ≤ s.tick.num → ∃ t, exec .drainTimeout s = .next t ∧ t.pm.phase = .settled ∧ t.rd R.PM_STAT_REFUSE = 3
        ∧ t.bit R.PM_STAT_BUSY = false ∧ t.bit R.PM_STAT_DRAIN = false ∧ t.pm.shut = s.tick.num + 1
        ∧ t.rd R.PM_STAT_STATE = s.rd R.PM_STAT_STATE ∧ t.force = s.force))
    ∧ (∀ (n : Nat) (night off : Bool), s.pm.phase = .handOver n night off →
      exec .pmeTurnOff s = .next { s with sent := .pmeToAck :: s.sent, pm := { s.pm with phase := .handOver n night true } }
      ∧ (∃ t, exec .l2WaitTimeout s = .next t ∧ t.now = max s.now (n + s.rd R.TW_L2_WAIT * 1000000 * unitsPerNs) ∧ t.pm.phase = .settled
        ∧ t.rd R.PM_STAT_REFUSE = 4 ∧ t.bit R.PM_STAT_BUSY = false ∧ t.bit R.PM_STAT_TW_READY = false
        ∧ t.rd R.PM_STAT_STATE = s.rd R.PM_STAT_STATE ∧ t.force = s.force)
      ∧ (off = true → s.mgcStopped = false → (∀ p : Port, s.parked (s.inf (R.PHY_LOC_BUS p)) = false) →
        s.pm.slept = 0 →
        (∃ p : Port, s.inf (R.PORT_CFG_IF p) ≠ 0 ∧ (night = true ∨ s.listens p = false) ∧ s.bit (R.PHY_PM_ADDR_EN p) = true) →
        ∃ t, exec .l2Reached s = .next t ∧ t.pm.phase = .phySleep night ∧ t.pm.handAt = s.now ∧ t.pm.handWake = false
        ∧ (∀ p : Port, t.pm.hand.testBit p
            = (s.inf (R.PORT_CFG_IF p) != 0 && (night || !s.listens p) && s.bit (R.PHY_PM_ADDR_EN p)))
        ∧ t.pm.slept = t.pm.hand ∧ t.rd R.HIF_LINK_SPEED = 0 ∧ s.RegsBut t [R.HIF_LINK_SPEED, R.HIF_LINK_WIDTH]
        ∧ t = { s with regs := t.regs, pm := t.pm, mdio := t.mdio, sent := t.sent })
      ∧ (off = true → (s.mgcStopped = true
          ∨ ∀ p : Port, s.inf (R.PORT_CFG_IF p) = 0 ∨ (night = false ∧ s.listens p = true) ∨ s.bit (R.PHY_PM_ADDR_EN p) = false) →
        (night = true → ∃ t, exec .l2Reached s = .next t ∧ t.pm.phase = .night ∧ t.pins.tapIr = 2 ∧ t.frames = [] ∧ t.force = [])
        ∧ (night = false → ∃ t, exec .l2Reached s = .next t ∧ t.pm.phase = .settled
          ∧ t.rd R.PM_STAT_STATE = 2 ∧ t.bit R.PM_STAT_BUSY = false ∧ t.pm.twSince = s.tick.num ∧ t.rd R.HIF_LINK_SPEED = 0
          ∧ (s.mgcStopped = false → (s.bit R.TW_CFG_PARK_A = true → t.bit (R.MDIO_CFG_PARK 0) = true)
            ∧ (s.bit R.TW_CFG_PARK_B = true → t.bit (R.MDIO_CFG_PARK 1) = true))
          ∧ t.force = s.force))
      ∧ (off = false → exec .l2Reached s = .next s))
    ∧ (∀ c : Instr, (c = .twNightExpire ∧ s.rd R.TW_NIGHT_TICKS ≠ 0 ∧ s.pm.twSince + s.rd R.TW_NIGHT_TICKS ≤ s.tick.num)
        ∨ (c = .pmReqNight ∧ s.bit R.FLT_STAT_ECLIPSE = false) → s.rd R.PM_STAT_STATE = 2 → s.bit R.PM_STAT_BUSY = false →
      ((s.mgcStopped = true
          ∨ ∀ p : Port, s.inf (R.PORT_CFG_IF p) = 0 ∨ s.bit (R.PHY_PM_ADDR_EN p) = false ∨ s.pm.slept.testBit p = true) →
        ∃ t, exec c s = .next t ∧ t.pm.phase = .night ∧ t.pins.tapIr = 2 ∧ t.frames = [] ∧ t.force = []
          ∧ (∀ f : Fld, f.lo < 32 → (f.off < 0x94000 ∨ 0x94200 ≤ f.off) → t.rd f = f.rst)
          ∧ (∀ f : Fld, f.lo < 32 → 0x94000 ≤ f.off → f.off < 0x94200 → t.rd f = s.rd f))
      ∧ (s.mgcStopped = false → (∀ p : Port, s.parked (s.inf (R.PHY_LOC_BUS p)) = false) →
        (∃ p : Port, s.inf (R.PORT_CFG_IF p) ≠ 0 ∧ s.bit (R.PHY_PM_ADDR_EN p) = true ∧ s.pm.slept.testBit p = false) →
        ∃ t, exec c s = .next t ∧ t.pm.phase = .phySleep true ∧ t.bit R.PM_STAT_BUSY = true ∧ t.pm.handAt = s.now ∧ t.pm.handWake = false
          ∧ (∀ p : Port, t.pm.hand.testBit p
              = (s.inf (R.PORT_CFG_IF p) != 0 && s.bit (R.PHY_PM_ADDR_EN p) && !s.pm.slept.testBit p))
          ∧ t.pm.slept = Nat.lor s.pm.slept t.pm.hand ∧ s.RegsBut t [R.PM_CTRL_TARGET, R.PM_STAT_BUSY]
          ∧ t = { s with regs := t.regs, pm := t.pm, mdio := t.mdio, sent := t.sent }))
    ∧ (s.bit R.HIF_STAT_READY = true → s.bitAt R.HIF_FLR_STAT 16 = false → exec .ltrMechanismEnable s = .next { s with
        hif := { s.hif with ltrOn := true }
        sent := if s.rd R.PM_STAT_STATE ≤ 1 then .ltr (if s.rd R.PM_STAT_STATE = 0 then 10000 else 1000000) :: s.sent else s.sent })
    ∧ (s.bit R.HIF_STAT_READY = false → exec .ltrMechanismEnable s = .next { s with sent := .config 16 .retry :: s.sent })

/-- WAKE_PIN_EDGE, WAKE_PATTERN_MATCH, LINK_ENERGY_WAKE, PERST_WAKE, UART_BREAK and the request for Dusk in Twilight (R545 to R553): a wake
in Twilight ends in Dusk, a wake in Night waits for the rails, each with its source in the last-wake record and in LW_PEND; a source in
the same cycle joins the wake, and the record names the lowest. -/
def Obligations.Wakes : Prop :=
  ∀ s : State,
    (∀ (c : Instr) (n : Nat),
      (∃ (w : WakePin) (up : Bool), c = .wakePinEdge w up ∧ n = w + 1 ∧ (s.rd (R.WK_CFG_EDGE w)).testBit (if up then 0 else 1) = true)
        ∨ (∃ (p : Port) (b : List Byte) (i : Nat), c = .wakePatternMatch p b ∧ n = 5 ∧ s.listens p = true ∧ isUp s p = true ∧ fcsGood b = true
          ∧ (List.range 32).find? (patMatches s.pm.pats p b) = some i)
        ∨ (∃ p : Port, c = .linkEnergyWake p ∧ n = 6 ∧ s.bitAt R.TW_CFG_LE_PORTS p = true ∧ s.listens p = false)
        ∨ (c = .perstWake ∧ n = 7 ∧ s.pm.perstLow = true) ∨ (c = .uartBreak ∧ n = 8)
        ∨ (c = .pmReqDusk ∧ n = 9 ∧ s.bit R.FLT_STAT_ECLIPSE = false ∧ s.bit R.PM_STAT_BUSY = false) →
      s.rd R.PM_STAT_STATE = 2 → s.pm.phase ≠ .night → s.sameWake n = false → ∃ t, exec c s = .next t ∧ t.rd R.PM_STAT_STATE = 1 ∧ t.pm.phase = .settled
        ∧ t.rd R.LW_REC0 % 16 = n ∧ t.rd R.LW_REC0 / 2 ^ 14 % 4 = 2 ∧ t.bitAt R.LW_PEND (n - 1) = true
        ∧ t.rd R.WAKE_CNT = (s.rd R.WAKE_CNT + 1) % 2 ^ 32 ∧ t.pm.wakeOut = decide (n ≠ 7) ∧ t.pm.slept = 0
        ∧ t.bit R.PM_STAT_BUSY = false ∧ t.bit (R.MDIO_CFG_PARK 0) = false ∧ t.bit (R.MDIO_CFG_PARK 1) = false
        ∧ (t.src 245).latch = true ∧ t.force = s.force)
    ∧ (∀ (c : Instr) (n : Nat),
      (∃ (w : WakePin) (up : Bool), c = .wakePinEdge w up ∧ n = w + 1 ∧ (s.rd (R.WK_CFG_EDGE w)).testBit (if up then 0 else 1) = true)
        ∨ (c = .perstWake ∧ n = 7 ∧ s.pm.perstLow = true) → s.pm.phase = .night → s.sameWake n = false →
      (s.pm.wakeDue = none → ∃ t, exec c s = .next t ∧ t.pm.wakeDue = some n ∧ t.pm.wakeOut = decide (n ≠ 7) ∧ t.pm.phase = .night
        ∧ t.rd R.LW_REC0 % 16 = n ∧ t.rd R.LW_REC0 / 2 ^ 14 % 4 = 3 ∧ t.bitAt R.LW_PEND (n - 1) = true
        ∧ t.rd R.WAKE_CNT = (s.rd R.WAKE_CNT + 1) % 2 ^ 32
        ∧ s.RegsBut t [R.WK_LEVEL, R.LW_REC0, R.LW_REC1, R.LW_REC2, R.LW_PEND, R.WAKE_CNT] ∧ t = { s with regs := t.regs, pm := t.pm })
      ∧ (s.pm.wakeDue ≠ none → ∃ t, exec c s = .next t ∧ t.pm.wakeDue = s.pm.wakeDue ∧ t.bitAt R.LW_PEND (n - 1) = true
        ∧ t.rd R.LW_REC0 = s.rd R.LW_REC0 ∧ s.RegsBut t [R.WK_LEVEL, R.LW_PEND] ∧ t = { s with regs := t.regs, pm := t.pm }))
    ∧ (∀ (w : WakePin) (up : Bool) (at_ k from_ : Nat), (s.rd (R.WK_CFG_EDGE w)).testBit (if up then 0 else 1) = true →
      s.pm.woke = some (at_, k, from_) → s.sameWake (w + 1) = true → ∃ t, exec (.wakePinEdge w up) s = .next t
        ∧ t.bitAt R.LW_PEND w = true ∧ t.rd R.WAKE_CNT = s.rd R.WAKE_CNT ∧ (w + 1 < k → t.rd R.LW_REC0 % 16 = w + 1)
        ∧ (k ≤ w + 1 → t.rd R.LW_REC0 = s.rd R.LW_REC0) ∧ s.RegsBut t [R.WK_LEVEL, R.LW_PEND, R.LW_REC0]
        ∧ t = { s with regs := t.regs, pm := t.pm })
    ∧ (∀ (w : WakePin) (up : Bool), (s.rd (R.WK_CFG_EDGE w)).testBit (if up then 0 else 1) = false → ∃ t,
      exec (.wakePinEdge w up) s = .next t ∧ t.bitAt R.WK_LEVEL w = up
        ∧ (∀ v : WakePin, v ≠ w → t.bitAt R.WK_LEVEL v = s.bitAt R.WK_LEVEL v) ∧ s.RegsBut t [R.WK_LEVEL] ∧ t = { s with regs := t.regs })
    ∧ (s.pm.phase ≠ .night → s.rd R.PM_STAT_STATE ≠ 2 →
      (s.pm.perstLow = true → exec .perstWake s = .next { s with pm := { s.pm with perstLow := false, wakeOut := false } })
      ∧ (∀ (p : Port) (b : List Byte), exec (.wakePatternMatch p b) s = .next s) ∧ ∀ p : Port, exec (.linkEnergyWake p) s = .next s)
    ∧ (s.pm.phase = .night → exec .uartBreak s = .next s)
    ∧ (s.pm.phase ≠ .night → s.rd R.PM_STAT_STATE = 0 → s.sameWake 8 = false → ∃ t, exec .uartBreak s = .next t
      ∧ t.rd R.CON_STAT_BREAK = 1 ∧ t.con.part = [] ∧ t.con.partBad = false ∧ t.force = s.force
      ∧ s.RegsBut t (R.CON_STAT_BREAK :: R.EV_LINES_LOST :: R.EVLOG_LOST :: j1Regs)
      ∧ t = { s with regs := t.regs, irc := t.irc, cyc := t.cyc, con := t.con, mas := { s.mas with lanes := t.mas.lanes }, crus := t.crus })

/-! ### Starts, resets, test (chapters 19, 22, 23) -/

/-- POWER_ON, NIGHT_RAILS_GOOD, SYSRST_DEASSERT, DEVICE_RESET, TRIAL_TIMER_EXPIRE, PORST_ASSERT and the end of a test-mode reset (R549, R554, R561, R562, R564, R579, R582, R583,
R635, R636, R654, R662, R669): what a reset keeps, when the start that follows runs, and where the start ends. -/
def Obligations.StartsAndResets : Prop :=
  ∀ (s : State) (st : StartInputs),
    (∀ (c : Instr) (u : State) (dev : Bool),
      (c = .powerOn st ∧ dev = false ∧ s.pins.porst = true ∧ s.pm.phase ≠ .night
          ∧ u = { s with pins := { s.pins with porst := false }, boot := { s.boot with phase := .waiting }, base0 := s.now })
        ∨ (c = .nightRailsGood st ∧ dev = false ∧ s.pins.porst = false ∧ s.pm.phase = .night ∧ s.pm.wakeDue ≠ none
          ∧ u = { s with pm := { s.pm with phase := .settled }, boot := { s.boot with phase := .waiting }, base0 := s.now }
          ∧ s.pins.low = [])
        ∨ (c = .sysrstDeassert st ∧ dev = true ∧ s.pins.porst = false ∧ s.pm.phase ≠ .night ∧ s.boot.phase = .held
          ∧ u = { s with pins := { s.pins with sysrst := false } })
        ∨ (c = .tapReset st ∧ dev = true ∧ s.pins.porst = false ∧ s.pm.phase ≠ .night ∧ s.boot.phase = .held ∧ s.testHeld = true
          ∧ u = { s with pins := { s.pins with tapIr := 2 } })
        ∨ (∃ n, c = .deviceReset false st ∧ dev = true ∧ s.boot.resetDue = some n ∧ s.pins.porst = false ∧ u = (s.upTo n).stopDevice)
        ∨ (∃ n, c = .trialTimerExpire st ∧ dev = true ∧ s.boot.trialEnd = some n ∧ s.mgcStopped = false ∧ s.pins.porst = false
          ∧ u = ((s.upTo n).log 0xA5 0).stopDevice) →
      u.pins.sysrst = false → u.testHeld = false → u.pins.low = [] →
      (testHalts (st.failed.filter (fun k => decide (1 ≤ k ∧ k < 32))) = true → ∃ t, exec c s = .next t ∧ t.boot.phase = .halted
        ∧ t.bit R.BOOT_STAT_RECOVERY = true ∧ t.pins.mbist.testBit 2 = true ∧ t.force = u.force)
      ∧ (∀ v : State, testHalts (st.failed.filter (fun k => decide (1 ≤ k ∧ k < 32))) = false →
        ((u.startReads dev st).readJournal st.norBad).chooseSlot st = (none, v) → ∃ t, exec c s = .next t ∧ t.boot.phase = .ended
          ∧ t.bit R.BOOT_STAT_RECOVERY = true ∧ t.force = u.force)
      ∧ (∀ (k : Chosen) (v : State), testHalts (st.failed.filter (fun k => decide (1 ≤ k ∧ k < 32))) = false →
        ((u.startReads dev st).readJournal st.norBad).chooseSlot st = (some k, v) → k.slot < 2 → configRecords (v.slot k.slot) = [] →
        st.cfgSame = true → ∃ t, exec c s = .next t ∧ t.boot.phase = .config ∧ t.rd R.BOOT_STAT_SLOT = k.slot
          ∧ t.bit R.BOOT_STAT_TRIAL = k.trial ∧ t.bit R.BOOT_STAT_FALLBACK = k.fallback ∧ t.rd R.IMG_SV = imageSv (v.slot k.slot) % 2 ^ 32
          ∧ t.tick.checks = v.tick.checks ++ [.boot] ∧ t.ladder.kickAt = v.now ∧ t.boot.sram = mgcSegments (v.slot k.slot) ∧ t.force = u.force))
    ∧ (∃ t, exec .porstAssert s = .next t ∧ t.regs = [] ∧ t.force = [] ∧ t.frames = [] ∧ t.led = Led.reset ∧ t.pins.porst = true
      ∧ t.pins.tapIr = 2 ∧ t.boot.phase = .none ∧ t.boot.fuse = s.boot.fuse ∧ t.boot.slotA = s.boot.slotA ∧ t.now = s.now
      ∧ t.pending = s.pending)
    ∧ (s.pm.phase ≠ .night → s.pins.porst = false → s.testHeld = false → s.boot.phase ≠ .none → s.boot.phase ≠ .waiting →
      ∃ t, exec (.deviceReset true st) s = .next t ∧ t.pins.sysrst = true ∧ t.boot.phase = .held ∧ t.force = [] ∧ t.frames = []
        ∧ t.ports = List.replicate 6 PortState.reset ∧ t.led = { Led.reset with retention := s.led.retention, retCrc := s.led.retCrc } ∧ t.con = Con.reset
        ∧ t.tick.num = 0 ∧ t.rd R.ECL_CAUSE = s.rd R.ECL_CAUSE % 2 ^ R.ECL_CAUSE.width
        ∧ (∀ f : Fld, f.lo < 32 → 0x94000 ≤ f.off → f.off < 0x94200 → t.rd f = s.rd f)
        ∧ (∀ f : Fld, f.lo < 32 → (f.off < 0x94000 ∨ 0x94200 ≤ f.off) → f.off ≠ R.ECL_CAUSE.off → f.off ≠ R.ECL_TICK_LO.off →
          f.off ≠ R.ECL_TICK_HI.off → t.rd f = f.rst))
    ∧ (s.pm.phase = .night → exec (.deviceReset true st) s = .next { s with pins := { s.pins with sysrst := true } })
    ∧ (s.boot.resetDue = none → exec (.deviceReset false st) s = .next s)

/-- RAIL_MONITOR_LOW, RAIL_MONITOR_GOOD, TAP_RESET, EXTEST, SAMPLE_PRELOAD, IDCODE, HIGHZ, CLAMP, EXTEST_PULSE, EXTEST_TRAIN, MBIST_RESULT and BYPASS (R633,
R635, R636, R660 to R662, R664, R666): what a rail that fails does, and which instruction of the test access port is in force, what a scan shifts
out and puts into the boundary-scan cells, what the pins and the AC transmitters then do, and the reset that five of them hold. -/
def Obligations.RailsAndTest : Prop :=
  ∀ s : State,
    (∀ r : Rail, s.pins.low.contains r = true → exec (.railMonitorLow r) s = .next s)
    ∧ (s.pins.low.contains .aon = false → ∃ t, exec (.railMonitorLow .aon) s = .next t ∧ t.pins.low = s.pins.low ++ [.aon]
      ∧ t.pins.tapIr = 2 ∧ t.regs = [] ∧ t.force = [] ∧ t.boot.phase = .none)
    ∧ (∀ r : Rail, r = .core ∨ r = .sram → s.pins.low.contains r = false → s.coreRuns = true → s.dge.clearing = none →
      ∃ t, exec (.railMonitorLow r) s = .next t ∧ t.pins.low = s.pins.low ++ [r] ∧ t.pins.tapIr = 2 ∧ t.dge.clearing = some (s.now, 4))
    ∧ (∀ r : Rail, r = .asx ∨ r = .hsx → s.pins.low.contains r = false → s.coreRuns = true → s.Canonical → ∃ t,
      exec (.railMonitorLow r) s = .next t
      ∧ t.pins.low = s.pins.low ++ [r] ∧ t.pins.tapIr = s.pins.tapIr ∧ t.rd R.HIF_LINK_SPEED = 0 ∧ t.bitAt R.HIF_FLR_STAT 16 = true
      ∧ (∀ p : Port, t.bitAt R.ENG_RST_STAT p = true) ∧ t.force = s.force)
    ∧ (∀ r : Rail, r = .ioA ∨ r = .ioB → s.pins.low.contains r = false → ∃ t, exec (.railMonitorLow r) s = .next t
      ∧ t.pins.io33.testBit (if r = .ioA then 0 else 1) = false ∧ t = { s with pins := t.pins })
    ∧ (∀ (r : Rail) (v : Bool) (st : StartInputs), s.pins.low.contains r = true → s.boot.phase ≠ .waiting → s.boot.phase ≠ .held →
      r ≠ .aon → ∃ t, exec (.railMonitorGood r v st) s = .next t ∧ t.pins.low = s.pins.low.filter (fun x => x != r)
        ∧ (r = .ioA → t.pins.io33.testBit 0 = v) ∧ (r = .ioB → t.pins.io33.testBit 1 = v) ∧ t = { s with pins := t.pins })
    ∧ (∀ (r : Rail) (v : Bool) (st : StartInputs), s.pins.low.contains r = false → exec (.railMonitorGood r v st) s = .next s)
    ∧ (∀ (dr : Option Scan) (c : Instr) (n : Nat),
      (c, n) ∈ [(Instr.extest dr, 0), (.highz dr, 3), (.clamp dr, 4), (.extestPulse dr, 5), (.extestTrain dr, 6)] →
      (s.tapOn = false → exec c s = .next s)
      ∧ (∀ (v : State) (k : Nat) (bits : List Sent),
        k = (match dr with
          | some x => if n = 3 ∨ n = 4 then s.pins.cells else x.tdi.toNat
          | none => s.pins.cells) →
        bits = (match dr with
          | some x => if n = 3 ∨ n = 4 then [.tdo 1 0] else [.tdo 100 (v.captured x)]
          | none => []) →
        s.tapOn = true → v = s.tapHold n → ∃ t, exec c s = .next t ∧ t.pins = { s.pins with tapIr := n, cells := k } ∧ t.testHeld = true
        ∧ (n = 0 → t.sent = .pads (some k) :: (bits ++ v.sent)) ∧ (n = 3 → t.sent = bits ++ .pads none :: v.sent)
        ∧ (n = 4 → t.sent = bits ++ .pads (some k) :: v.sent)
        ∧ (n = 5 → dr.isSome = true → t.sent = .edges (txBits k .control) (txBits k .data &&& txBits k .control) 1
          :: .pads (some k) :: (bits ++ v.sent))
        ∧ ((n = 5 ∨ n = 6) → dr = none → t.sent = .pads (some k) :: v.sent)
        ∧ (∀ x, n = 6 → dr = some x → x.idle ≠ 0 → t.sent = .edges (txBits k .control)
          ((if x.idle % 2 = 1 then txBits k .data else 1023 - txBits k .data) &&& txBits k .control) x.idle
          :: .pads (some k) :: (bits ++ v.sent))
        ∧ (s.testHeld = false → s.boot.phase ≠ .none → s.boot.phase ≠ .waiting → t.boot.phase = .held ∧ t.force = [] ∧ t.frames = []
          ∧ t.led.retention = s.led.retention)
        ∧ ((s.testHeld = true ∨ s.boot.phase = .none ∨ s.boot.phase = .waiting) → t = { s with pins := t.pins, sent := t.sent })))
    ∧ (∀ (dr : Option Scan) (st : StartInputs) (c : Instr) (n k : Nat) (bits : List Sent),
      (c = .samplePreload dr st ∧ n = 1 ∧ (dr = none → k = s.pins.cells ∧ bits = [])
          ∧ ∀ x, dr = some x → k = x.tdi.toNat ∧ bits = [.tdo 100 (s.captured x)])
        ∨ (k = s.pins.cells ∧ ((c = .tapReset st ∧ n = 2 ∧ bits = [])
          ∨ (c = .idcode dr st ∧ n = 2 ∧ bits = if dr.isSome then [.tdo 32 idCode] else [])
          ∨ (c = .mbistResult dr st ∧ n = 8 ∧ bits = if dr.isSome then [.tdo 32 s.pins.mbist] else [])
          ∨ (∃ op : Byte, c = .bypass op dr st ∧ n = op.toNat ∧ s.bypasses op.toNat = true ∧ bits = if dr.isSome then [.tdo 1 0] else []))) →
      (s.tapOn = true → (s.testHeld = false ∨ s.boot.phase ≠ .held ∧ s.boot.phase ≠ .waiting) →
        exec c s = .next { s with pins := { s.pins with tapIr := n, cells := k }, sent := bits ++ s.sent })
      ∧ (s.tapOn = false → c ≠ .tapReset st → exec c s = .next s))

/-! ### Resets of engines, Eclipse (chapter 20) -/

/-- ENG_RST, MAC_RST, MGC_RESET, ENGINE_RESET_DONE, ENGINE_PARITY_FAULT, MGC_WATCHDOG_EXPIRE, MGC_KICK and MGC_SRAM_UNCORRECTABLE (R34, R109,
R155, R431, R591 to R595, R608): a reset begins, is ignored where it runs already, and ends; an engine resets itself, or escalates
once it has done so too often; MGC halts, or its watchdog restarts. -/
def Obligations.EngineResets : Prop :=
  ∀ s : State,
    (∀ e : Engine, s.bitAt R.ENG_RST_STAT e = true → s.selfNow e = false → exec (.engRst e) s = .next (s.put R.FLT_STAT_GO_IGNORED true))
    ∧ (∀ e : Engine, s.selfNow e = true → exec (.engRst e) s = .next s)
    ∧ (∀ e : Engine, s.bitAt R.ENG_RST_STAT e = false → s.selfNow e = false → ∃ t, exec (.engRst e) s = .next t ∧ t.bitAt R.ENG_RST_STAT e = true
      ∧ t.bitAt R.ENG_RST e = true ∧ mget t.ladder.resetAt e = some s.now
      ∧ (e = 7 → ∀ p : Port, s.ports.length = 6 → (t.port p).gclFrom = s.tick.num + 1 ∧ (t.port p).credits = List.replicate 8 (0, s.now))
      ∧ (e = 9 → t.bit R.TU_STAT_TU_RESET = true) ∧ (e = 16 → t.tick.commitAt = none ∧ s.Counts t R.MGC_RST_CNT)
      ∧ t.force = s.force ∧ t.now = s.now)
    ∧ exec .mgcReset s = exec (.engRst 16) s
    ∧ (∀ p : Port, s.bitAt R.ENG_RST_STAT p = false → s.ports.length = 6 → ∃ t, exec (.macRst p) s = .next t
      ∧ t.bitAt R.ENG_RST_STAT p = true ∧ t.bit (R.PORT_CTRL_MAC_RST p) = true ∧ (t.port p).tx = none ∧ (t.port p).preempted = none
      ∧ (t.port p).slots = List.replicate 3 none ∧ ((s.port p).tx = none ∨ s.looped p = true → t.sent = s.sent)
      ∧ (∀ (x : TxCur) (b : List Byte), (s.port p).tx = some x → s.looped p = false → b = x.bytes.take (s.sentBytes p x) →
        t.sent = .frame p x.start (b ++ leBytes 4 (2 ^ 32 - 1 - fcsOf b)) :: s.sent)
      ∧ s.OtherPorts t p ∧ t.force = s.force ∧ t.now = s.now)
    ∧ (∀ p : Port, s.bitAt R.ENG_RST_STAT p = true → exec (.macRst p) s = .next s)
    ∧ (∀ e : Engine, s.bitAt R.ENG_RST_STAT e = true → (e.val < 6 → s.sxLow = false) → e ≠ 16 → s.con.serving ≠ some (.engine e) →
      (∀ c ∈ s.hif.heldAcc, c.block ≠ some e.val) →
      ∃ t, exec (.engineResetDone e) s = .next t ∧ t.bitAt R.ENG_RST_STAT e = false ∧ t.bitAt R.ENG_RST e = false
        ∧ mget t.ladder.resetAt e = none ∧ (s.ladder.selfRun.testBit e = true → (t.src 249).latch = true)
        ∧ (∀ p : Port, e.val = p.val → t.bit (R.PORT_CTRL_MAC_RST p) = false) ∧ (e = 9 → t.bit R.TU_STAT_TU_RESET = false)
        ∧ (e.val = 7 → ∀ p : Port, s.ports.length = 6 → (t.port p).gclFrom = s.tick.num + 1 ∧ (t.port p).credits = List.replicate 8 (0, s.now))
        ∧ (e.val ≠ 8 → t = { s with
          regs := t.regs, irc := t.irc, cyc := t.cyc, ports := t.ports, ladder := t.ladder, td := t.td, dge := t.dge, crus := t.crus }))
    ∧ (∀ (e : Engine) (c : Access), s.bitAt R.ENG_RST_STAT e = true → c.block = some e.val → s.hif.heldAcc = [c] →
      ∃ t : State, exec (.engineResetDone e) s = .next (t.applyAccess c) ∧ t.bitAt R.ENG_RST_STAT e = false ∧ t.hif.heldAcc = [])
    ∧ (∀ i : IrqSource, s.bitAt R.ENG_RST_STAT 15 = true →
      exec (.eoi i) s = .next { s with hif := { s.hif with heldAcc := s.hif.heldAcc ++ [.eoi i] } })
    ∧ (s.bitAt R.ENG_RST_STAT 16 = true → s.con.lines = [] → s.ladder.codeBad = false → s.con.serving = none →
      ∃ t, exec (.engineResetDone 16) s = .next t ∧ t.bitAt R.ENG_RST_STAT 16 = false ∧ t.bit R.FLT_STAT_MGC_HALT = false
        ∧ t.ladder.kickAt = s.now)
    ∧ (∀ e : Engine, selfResets e = true →
      ((mgetD s.ladder.selfAt e []).filter (fun t => decide (s.tick.num < t + s.rd R.ESC_WINDOW))).length < s.rd R.ESC_LIMIT →
      ∃ t, exec (.engineParityFault e) s = .next t ∧ s.Counts t (R.SELF_RST_CNT e) ∧ t.bitAt R.ENG_RST_STAT e = true
        ∧ t.ladder.selfRun.testBit e = true)
    ∧ (∀ e : Engine, selfResets e = true → s.bit R.FLT_STAT_ECLIPSE = false →
      s.rd R.ESC_LIMIT ≤ ((mgetD s.ladder.selfAt e []).filter (fun t => decide (s.tick.num < t + s.rd R.ESC_WINDOW))).length →
      s.commitDue = false → ∃ t, exec (.engineParityFault e) s = .next t ∧ t.bit R.FLT_STAT_ECLIPSE = true ∧ t.rd R.ECL_CAUSE = 7)
    ∧ (∀ e : Engine, selfResets e = false → exec (.engineParityFault e) s = .next s)
    ∧ (s.mgcStopped = false → ∃ t, exec .mgcWatchdogExpire s = .next t
      ∧ t.now = max s.now (s.ladder.kickAt + s.rd R.MGC_WD * 1000000 * unitsPerNs) ∧ t.bit R.FLT_STAT_MGC_HALT = true
      ∧ s.RegsBut t [R.FLT_STAT_MGC_HALT, R.EVLOG_LOST] ∧ t = { s with now := t.now, cyc := t.cyc, regs := t.regs, irc := t.irc })
    ∧ (s.mgcStopped = false → exec .mgcKick s = .next { s with ladder := { s.ladder with kickAt := s.now } })
    ∧ (∃ t, exec .mgcSramUncorrectable s = .next t ∧ t.bit R.FLT_STAT_MGC_HALT = true ∧ t.ladder.codeBad = true
      ∧ s.RegsBut t [R.FLT_STAT_MGC_HALT, R.EVLOG_LOST] 
      ∧ t = { s with regs := t.regs, irc := t.irc, cyc := t.cyc, ladder := { s.ladder with codeBad := true } })

/-- ECLIPSE_REQ, QUEUE_LINK_ERROR, SUPPLY_CLOCK_ALARM, LANE_FAULT and ECLIPSE_DRAIN_END (R210, R603 to R607): entry with its cause, what it
abandons, and the end of the drain. -/
def Obligations.EclipseCauses : Prop :=
  ∀ s : State,
    (∀ (c : Instr) (n : Nat), ((c = .eclipseReq ∧ n = 10) ∨ (∃ p : Port, c = .queueLinkError p ∧ n = 8)
        ∨ ∃ a : AlarmKind, c = .supplyClockAlarm a true ∧ n = 9) → s.bit R.FLT_STAT_ECLIPSE = false →
      s.commitDue = false → ∃ t, exec c s = .next t ∧ t.bit R.FLT_STAT_ECLIPSE = true ∧ t.rd R.ECL_CAUSE = n ∧ t.rd R.ECL_TICK_LO = s.tickNum % 2 ^ 32
        ∧ t.tick.commitAt = none ∧ (∀ p : Nat, (t.port p).pauseOut = []) ∧ t.ladder.eclAt = some s.now
        ∧ (n ≠ 9 → s.rd R.ECL_DRAIN_TICKS ≠ 0 → t.bit R.FLT_STAT_ECL_DRAIN = true)
        ∧ (n = 9 → ∀ x ∈ t.tu.tout, x.idle = true ∧ x.away = false ∧ x.next = none ∧ x.endAt = none)
        ∧ t.force = s.force ∧ t.now = s.now ∧ t.tick.num = s.tick.num)
    ∧ (s.bit R.FLT_STAT_ECLIPSE = false → s.commitDue = true →
      exec .eclipseReq s = .next (s.commitNow.enterEclipse 10 (fun _ => false))
      ∧ (∀ p : Port, exec (.queueLinkError p) s = .next (s.commitNow.enterEclipse 8 (fun x => x.dest == p.val)))
      ∧ ∀ a : AlarmKind, exec (.supplyClockAlarm a true) s = .next (s.commitNow.enterEclipse 9 (fun _ => false)))
    ∧ (s.bit R.FLT_STAT_ECLIPSE = true → exec .eclipseReq s = .next s)
    ∧ (exec (.supplyClockAlarm .supply false) s = exec (.dgeClear 4) s ∧ exec (.supplyClockAlarm .clock false) s = exec (.dgeClear 5) s)
    ∧ (∀ l : Lane, s.laneUp l = true → (s.rd R.MAS_STAT_LANE_FAIL ≠ 0 → s.commitDue = false) → ∃ t, exec (.laneFault l) s = .next t ∧ t.bitAt R.MAS_STAT_LANE_FAIL l = true
      ∧ s.Counts t R.LANE_FAULT_CNT ∧ (t.src 228).latch = true ∧ (t.lane l).res = none ∧ (t.lane l).parked = [] ∧ t.tick.rerun = true
      ∧ (s.rd R.MAS_STAT_LANE_FAIL ≠ 0 → s.bit R.FLT_STAT_ECLIPSE = false → t.bit R.FLT_STAT_ECLIPSE = true ∧ t.rd R.ECL_CAUSE = 5)
      ∧ (s.rd R.MAS_STAT_LANE_FAIL = 0 → s.RegsBut t [R.MAS_STAT_LANE_FAIL, R.LANE_FAULT_CNT, R.EVLOG_LOST]))
    ∧ (s.bit R.FLT_STAT_ECL_DRAIN = true → (s.led.entries = [] ∨ s.rd R.ECL_DRAIN_TICKS ≤ s.ladder.drained) →
      ∃ t, exec .eclipseDrainEnd s = .next t ∧ t.bit R.FLT_STAT_ECL_DRAIN = false ∧ s.DataPath t
        ∧ (s.led.entries = [] → s.RegsBut t [R.FLT_STAT_ECL_DRAIN, R.EVLOG_LOST]
          ∧ t = { s with regs := t.regs, irc := t.irc, cyc := t.cyc }))

/-! ### Registers (chapters 0 and 21) -/

/-- TICK_NUM_LO_READ, STAT_LO_READ, FLOW_REC_W0_READ, TD_NS_READ, TSQ_W0_READ and TCAP_W0_READ (R42, R91, R156, R402, R416, R425, R613, R617):
the first word leaves, the other words of the snapshot or of the removed entry stand in the reader's own latches, and no other
reader's latch moves. -/
def Obligations.LatchedReads : Prop :=
  ∀ (s : State) (rd : Reader),
    (s.OwnerReached rd → ∃ t, exec (.tickNumLoRead rd) s = .next t
      ∧ t.sent = .readData rd R.TICK_NUM_LO.off (s.tickNum % 2 ^ 32) :: s.sent ∧ t.latch rd R.TICK_NUM_HI = s.tickNum / 2 ^ 32
      ∧ s.LatchesBut t rd ∧ t = { s with sent := t.sent, latches := t.latches })
    ∧ (∀ (p : Port) (c : StatCounter), s.OwnerReached rd → ∃ t, exec (.statLoRead rd p c) s = .next t
      ∧ t.sent = .readData rd (statPair c p).1.off (s.rd (statPair c p).1) :: s.sent ∧ t.latch rd (statPair c p).2 = s.rd (statPair c p).2
      ∧ s.LatchesBut t rd ∧ t = { s with sent := t.sent, latches := t.latches })
    ∧ (s.OwnerReached rd → ∃ t, exec (.flowRecW0Read rd) s = .next t
      ∧ t.sent = .readData rd R.FLOW_REC_W0.off ((s.flow (s.rd R.FLOW_SEL)).word 0) :: s.sent
      ∧ t.latch rd R.FLOW_REC_W1 = (s.flow (s.rd R.FLOW_SEL)).word 1 ∧ t.latch rd R.FLOW_REC_W2 = (s.flow (s.rd R.FLOW_SEL)).word 2
      ∧ t.latch rd R.FLOW_REC_W3 = (s.flow (s.rd R.FLOW_SEL)).word 3
      ∧ s.LatchesBut t rd ∧ t = { s with sent := t.sent, latches := t.latches })
    ∧ (∀ n : Tenant, s.barOn n.castSucc = true → (s.flow (s.rd (R.T_FLOW_SEL n))).fn = n.val → ∃ t, exec (.flowRecW0Read (.tenant n)) s = .next t
      ∧ t.sent = .readData (.tenant n) (R.T_FLOW_REC_W0 n).off ((s.flow (s.rd (R.T_FLOW_SEL n))).word 0) :: s.sent
      ∧ t.latch (.tenant n) (R.T_FLOW_REC_W3 n) = (s.flow (s.rd (R.T_FLOW_SEL n))).word 3
      ∧ s.LatchesBut t (.tenant n) ∧ t = { s with sent := t.sent, latches := t.latches })
    ∧ (∀ n : Tenant, s.barOn n.castSucc = true → (s.flow (s.rd (R.T_FLOW_SEL n))).fn ≠ n.val → ∃ t, exec (.flowRecW0Read (.tenant n)) s = .next t
      ∧ t.sent = .readData (.tenant n) (R.T_FLOW_REC_W0 n).off 0 :: s.sent ∧ t.latch (.tenant n) (R.T_FLOW_REC_W1 n) = 0
      ∧ t.latch (.tenant n) (R.T_FLOW_REC_W3 n) = 0 ∧ s.LatchesBut t (.tenant n))
    ∧ (∀ (d : Dom) (off : Nat), s.Reached rd → off = (match rd with
        | .tenant n => 0x1000000 * (n.val + 1) + 0xA000 + 16 * d.val
        | _ => (R.TD_NS d).off) → ∃ t, exec (.tdNsRead rd d) s = .next t
      ∧ t.sent = .readData rd off (s.tdNs d % 1000000000) :: s.sent
      ∧ t.latch rd (R.TD_SEC_LO d) = s.tdSec d % 2 ^ 32 ∧ t.latch rd (R.TD_SEC_HI d) = s.tdSec d / 2 ^ 32
      ∧ t.latch rd (R.TD_FRAC d) = s.tdVal d s.now % tdUnit * 256 / tdUnit
      ∧ s.LatchesBut t rd ∧ t = { s with sent := t.sent, latches := t.latches })
    ∧ (∀ (p : Port) (w : List Nat) (l : List (List Nat)), s.tu.tsq[p.val]? = some (w :: l) → s.OwnerReached rd →
      mgetD s.cyc.queues p 0 ≤ l.length →
      ∃ t, exec (.tsqW0Read rd p) s = .next t
        ∧ t.sent = .readData rd (R.TSQ_W p 0).off (w.headD 0) :: s.sent
        ∧ t.tu.tsq[p.val]? = some l ∧ t.rd (R.TSQ_COUNT p) = l.length % 2 ^ 6
        ∧ (∀ k : Fin 7, t.latch rd (R.TSQ_W p (k + 1)) = w.getD (k + 1) 0)
        ∧ s.LatchesBut t rd ∧ s.RegsBut t [R.TSQ_COUNT p]
        ∧ t = { s with sent := t.sent, latches := t.latches, tu := t.tu, regs := t.regs })
    ∧ (∀ (j : TcapPin) (w : List Nat) (l : List (List Nat)), s.tu.tcap[j.val]? = some (w :: l) → s.OwnerReached rd →
      mgetD s.cyc.queues (8 + j) 0 ≤ l.length →
      ∃ t, exec (.tcapW0Read rd j) s = .next t
        ∧ t.sent = .readData rd (R.TCAP_W j 0).off (w.headD 0) :: s.sent
        ∧ t.tu.tcap[j.val]? = some l ∧ t.rd (R.TCAP_COUNT j) = l.length % 2 ^ 4
        ∧ (∀ k : Fin 7, t.latch rd (R.TCAP_W j (k + 1)) = w.getD (k + 1) 0)
        ∧ s.LatchesBut t rd ∧ s.RegsBut t [R.TCAP_COUNT j]
        ∧ t = { s with sent := t.sent, latches := t.latches, tu := t.tu, regs := t.regs })
    ∧ (∀ (p : Port) (l : List (List Nat)), s.tu.tsq[p.val]? = some l → s.OwnerReached rd → l.length ≤ mgetD s.cyc.queues p 0 →
      exec (.tsqW0Read rd p) s = .next { s with sent := .readData rd (R.TSQ_W p 0).off 0 :: s.sent })
    ∧ (∀ (j : TcapPin) (l : List (List Nat)), s.tu.tcap[j.val]? = some l → s.OwnerReached rd → l.length ≤ mgetD s.cyc.queues (8 + j) 0 →
      exec (.tcapW0Read rd j) s = .next { s with sent := .readData rd (R.TCAP_W j 0).off 0 :: s.sent })

/-- REGISTER_WRITE and RC_FIELD_READ by the owner (R10 to R12, R332, R333, R347, R611, R615, R618, R620, R621, R622, R624): a whole word sets the plain
fields of its register, a counter keeping what the running cycle has added, a part of a word is discarded, an offset without a register is
counted, and a read clears its RC fields, but for what the running cycle has added; a request does its dwords in their order, each in
its own cycle, one of more than 16 nothing but an AER bit. -/
def Obligations.RegisterAccess : Prop :=
  ∀ (s : State) (off : Nat), off % 4 = 0 → off < cfgBase →
    (∀ (v : Dword) (b : BitVec 4), s.accessHeld (.write 16 off b v) = false → s.barOn 16 = true → s.commitDue = true →
      exec (.registerWrite 16 off b v []) s = .next (s.commitNow.regWrite 16 off b.toNat v.toNat))
    ∧ (∀ (v : Dword) (b : BitVec 4), s.accessHeld (.write 16 off b v) = false → s.barOn 16 = true → s.commitDue = false →
      (∀ (d : RegDef) (i : List Nat) (l : List (RegDef × List Nat)), barRegs none off = (d, i) :: l →
        (b ≠ 15 → exec (.registerWrite 16 off b v []) s = .next (s.rejectFor 16 off 6))
        ∧ (∀ w : Nat, b = 15 → s.writeBad 16 off d i v.toNat = some w → w ≠ 2 →
          exec (.registerWrite 16 off b v []) s = .next (s.rejectFor 16 off w))
        ∧ (b = 15 → s.writeBad 16 off d i v.toNat = none → ownerActs.find? (fun e => e.1 == d.base) = none → ownerMayWrite d i = true →
          (d.fields.map (·.lo)).Nodup → ∃ t, exec (.registerWrite 16 off b v []) s = .next t
          ∧ (∀ (x : FieldDef) (f : Fld), x ∈ d.fields → f = ⟨off, x.lo, x.hi + 1 - x.lo, x.rst i⟩ →
            (x.acc = .rw → t.rd f = x.of v.toNat)
            ∧ (x.acc = .rwh → t.rd f = if f.width = 1 then x.of v.toNat
              else min (x.of v.toNat + (s.rd f - regGet s.cyc.regs f)) (2 ^ f.width - 1))
            ∧ (x.acc = .w1c → t.rd f = clearBits (s.rd f) (Nat.land (x.of v.toNat) (regGet s.cyc.regs f)) % 2 ^ f.width)
            ∧ (x.acc = .ro → t.rd f = s.rd f))
          ∧ s.RegsBut t (d.fields.map (fun x => ⟨off, x.lo, x.hi + 1 - x.lo, x.rst i⟩))
          ∧ t = { s with regs := t.regs, cyc := { s.cyc with regs := t.cyc.regs } }))
      ∧ (barRegs none off = [] → ¬(0x100000 ≤ off ∧ off < 0x200000) → ∃ t, exec (.registerWrite 16 off b v []) s = .next t
        ∧ s.Counts t R.UNMAPPED_CNT ∧ s.RegsBut t [R.UNMAPPED_CNT] ∧ t = { s with regs := t.regs }))
    ∧ (∀ (v : Dword) (b : BitVec 4) (f : Func), s.accessHeld (.write f off b v) = false →
      (s.addressable f = false → exec (.registerWrite f off b v []) s = .next s)
      ∧ (s.addressable f = true → (s.pci f).mse = false →
        exec (.registerWrite f off b v []) s = .next ((s.aerLog f 1).emit (.config f .unsupported))))
    ∧ (∀ (v : Dword) (b : BitVec 4) (f : Func), s.accessHeld (.write f off b v) = true → exec (.registerWrite f off b v []) s
      = .next { s with hif := { s.hif with heldAcc := s.hif.heldAcc ++ [.write f off b v] } })
    ∧ (∀ (v : Dword) (b : BitVec 4) (f : Func) (x : BitVec 4 × Dword), ∃ u, exec (.registerWrite f off b v []) s = .next u
      ∧ exec (.registerWrite f off b v [x]) s = .next ((u.upTo (u.now + u.cycle)).access (.write f (off + 4) x.1 x.2)))
    ∧ (∀ (v : Dword) (b : BitVec 4) (f : Func) (more : List (BitVec 4 × Dword)), 16 ≤ more.length → s.barOn f = true →
      exec (.registerWrite f off b v more) s = .next (s.aerLog f 2))
    ∧ (∀ (d : RegDef) (i : List Nat) (l : List (RegDef × List Nat)), ¬(0x100000 ≤ off ∧ off < 0x200000) → barRegs none off = (d, i) :: l →
      ownerReads.find? (fun e => e.1 == d.base) = none → s.accessHeld (.read .owner off 15) = false → s.barOn 16 = true →
      ∃ (t : State) (w : Nat), exec (.rcFieldRead .owner off 15 []) s = .next t
        ∧ t.sent = .readData .owner off w :: s.sent
        ∧ ((∀ x ∈ (d, i) :: l, ∀ f ∈ x.1.fields, f.acc = .rc → ∀ g : Fld, g = ⟨off, f.lo, f.hi + 1 - f.lo, f.rst x.2⟩ →
          regPut s.regs g (regGet s.cyc.regs g) = s.regs) → w = s.wordAt .owner off)
        ∧ (∀ x ∈ (d, i) :: l, ∀ f ∈ x.1.fields, f.acc = .rc → ∀ g : Fld, g = ⟨off, f.lo, f.hi + 1 - f.lo, f.rst x.2⟩ →
          t.rd g = (s.rd g - regGet s.cyc.regs g) % 2 ^ g.width)
        ∧ (∀ g : Fld, g.off ≠ off → g.lo < 32 → t.rd g = s.rd g)
        ∧ t = { s with regs := t.regs, sent := t.sent, cyc := { s.cyc with regs := t.cyc.regs }
                       irc := { s.irc with telePrev := t.irc.telePrev } })
end

