-- ==== Sys2Proof/Laws/Maps.lean ====
section
/-! SUPPORT. Sparse arrays and register files: a read after a write, and the canonical form that every operation keeps. -/

namespace Sys2Proof.Machine

variable {α : Type}

/-- A read after a write of the same entry gives the value written. -/
@[simp] theorem mget_mput_same (m : SMap α) (k : Nat) (v : α) : mget (mput m k v) k = some v := by
  induction m with
  | nil => simp [mput, mget]
  | cons x t ih =>
    obtain ⟨j, w⟩ := x
    simp only [mput]
    split
    · simp [mget]
    · split <;> simp_all [mget]

/-- A write leaves every other entry alone. -/
theorem mget_mput_other (m : SMap α) {k i : Nat} (h : i ≠ k) (v : α) : mget (mput m k v) i = mget m i := by
  induction m with
  | nil => simp [mput, mget, h]
  | cons x t ih =>
    obtain ⟨j, w⟩ := x
    simp only [mput]
    split
    · simp_all [mget]
    · split <;> simp_all [mget]

/-- An entry that was removed is not listed. -/
@[simp] theorem mget_mdel_same (m : SMap α) (k : Nat) : mget (mdel m k) k = none := by
  induction m with
  | nil => rfl
  | cons x t ih =>
    obtain ⟨j, w⟩ := x
    simp only [mdel]
    split <;> simp_all [mget]

/-- A removal leaves every other entry alone. -/
theorem mget_mdel_other (m : SMap α) {k i : Nat} (h : i ≠ k) : mget (mdel m k) i = mget m i := by
  induction m with
  | nil => rfl
  | cons x t ih =>
    obtain ⟨j, w⟩ := x
    simp only [mdel]
    split <;> simp_all [mget]

/-- Indices rise strictly and lie above a bound. -/
def mabove (n : Nat) : SMap α → Bool
  | [] => true
  | (j, _) :: t => decide (n < j) && mabove j t

theorem mwf_cons (x : Nat × α) (t : SMap α) : mwf (x :: t) = mabove x.1 t := by
  induction t generalizing x with
  | nil => obtain ⟨j, w⟩ := x; rfl
  | cons y t ih =>
    obtain ⟨j, w⟩ := x
    obtain ⟨k, u⟩ := y
    simp [mwf, mabove, ih]

theorem mabove_le {n m : Nat} (t : SMap α) (h : n ≤ m) (hm : mabove m t = true) : mabove n t = true := by
  cases t with
  | nil => rfl
  | cons y t =>
    obtain ⟨k, u⟩ := y
    simp only [mabove, Bool.and_eq_true, decide_eq_true_eq] at hm ⊢
    exact ⟨by omega, hm.2⟩

theorem mabove_mput (t : SMap α) (n k : Nat) (v : α) (h : n < k) (ht : mabove n t = true) : mabove n (mput t k v) = true := by
  induction t generalizing n with
  | nil => simp [mput, mabove, h]
  | cons y t ih =>
    obtain ⟨j, w⟩ := y
    simp only [mabove, Bool.and_eq_true, decide_eq_true_eq] at ht
    simp only [mput]
    split
    · simp_all [mabove]
    · split
      · simp_all [mabove]
      · have := ih j (by omega) ht.2
        simp_all [mabove]

theorem mabove_mdel (t : SMap α) (n k : Nat) (ht : mabove n t = true) : mabove n (mdel t k) = true := by
  induction t generalizing n with
  | nil => rfl
  | cons y t ih =>
    obtain ⟨j, w⟩ := y
    simp only [mabove, Bool.and_eq_true, decide_eq_true_eq] at ht
    simp only [mdel]
    split
    · exact ih n (mabove_le t (by omega) ht.2)
    · simp [mabove, ht.1, ih j ht.2]

/-- A write keeps the canonical form. -/
@[simp] theorem mwf_mput (m : SMap α) (k : Nat) (v : α) (h : mwf m = true) : mwf (mput m k v) = true := by
  cases m with
  | nil => rfl
  | cons y t =>
    obtain ⟨j, w⟩ := y
    rw [mwf_cons] at h
    simp only [mput]
    split
    · rw [mwf_cons]; simp_all
    · split
      · rw [mwf_cons]; simp_all [mabove]
      · rw [mwf_cons]; exact mabove_mput t j k v (by omega) h

/-- A removal keeps the canonical form. -/
@[simp] theorem mwf_mdel (m : SMap α) (k : Nat) (h : mwf m = true) : mwf (mdel m k) = true := by
  induction m with
  | nil => rfl
  | cons y t ih =>
    obtain ⟨j, w⟩ := y
    rw [mwf_cons] at h
    simp only [mdel]
    split
    · cases t with
      | nil => rfl
      | cons z t =>
        apply ih
        rw [mwf_cons]
        simp only [mabove, Bool.and_eq_true] at h
        exact h.2
    · rw [mwf_cons]; exact mabove_mdel t j k h

/-- A field read after it was written holds the value written, cut to its width. -/
@[simp] theorem regGet_regPut_same (r : RegFile) (f : Fld) (v : Nat) : regGet (regPut r f v) f = v % 2 ^ f.width := by
  simp only [regGet, regPut, mgetD]
  split <;> simp_all

/-- A write of one field leaves every other field alone. -/
theorem regGet_regPut_other (r : RegFile) {f g : Fld} (h : Fld.key g ≠ Fld.key f) (v : Nat) : regGet (regPut r f v) g = regGet r g := by
  simp only [regGet, regPut, mgetD]
  split
  · rw [mget_mdel_other r h]
  · rw [mget_mput_other r h]

/-- Writing a field keeps the register file's canonical form. -/
@[simp] theorem mwf_regPut (r : RegFile) (f : Fld) (v : Nat) (h : mwf r = true) : mwf (regPut r f v) = true := by
  simp only [regPut]
  split <;> simp [h]

end Sys2Proof.Machine
end

