-- ==== Sys2Proof/Laws/State.lean ====
section
/-! SUPPORT. What the named updates of the state leave alone, one lemma per field and update, and a field read after a write. -/

namespace Sys2Proof.Machine

variable (s : State)

/-! ### State.wr -/

@[simp] theorem State.wr_pending (f : Fld) (v : Nat) : (s.wr f v).pending = s.pending := rfl
@[simp] theorem State.wr_now (f : Fld) (v : Nat) : (s.wr f v).now = s.now := rfl
@[simp] theorem State.wr_base0 (f : Fld) (v : Nat) : (s.wr f v).base0 = s.base0 := rfl
@[simp] theorem State.wr_draws (f : Fld) (v : Nat) : (s.wr f v).draws = s.draws := rfl
@[simp] theorem State.wr_sent (f : Fld) (v : Nat) : (s.wr f v).sent = s.sent := rfl
@[simp] theorem State.wr_force (f : Fld) (v : Nat) : (s.wr f v).force = s.force := rfl
@[simp] theorem State.wr_oldForce (f : Fld) (v : Nat) : (s.wr f v).oldForce = s.oldForce := rfl
@[simp] theorem State.wr_kept (f : Fld) (v : Nat) : (s.wr f v).kept = s.kept := rfl
@[simp] theorem State.wr_latches (f : Fld) (v : Nat) : (s.wr f v).latches = s.latches := rfl
@[simp] theorem State.wr_tick (f : Fld) (v : Nat) : (s.wr f v).tick = s.tick := rfl
@[simp] theorem State.wr_led (f : Fld) (v : Nat) : (s.wr f v).led = s.led := rfl
@[simp] theorem State.wr_buf (f : Fld) (v : Nat) : (s.wr f v).buf = s.buf := rfl
@[simp] theorem State.wr_ports (f : Fld) (v : Nat) : (s.wr f v).ports = s.ports := rfl
@[simp] theorem State.wr_frames (f : Fld) (v : Nat) : (s.wr f v).frames = s.frames := rfl
@[simp] theorem State.wr_mas (f : Fld) (v : Nat) : (s.wr f v).mas = s.mas := rfl
@[simp] theorem State.wr_irc (f : Fld) (v : Nat) : (s.wr f v).irc = s.irc := rfl
@[simp] theorem State.wr_td (f : Fld) (v : Nat) : (s.wr f v).td = s.td := rfl
@[simp] theorem State.wr_tu (f : Fld) (v : Nat) : (s.wr f v).tu = s.tu := rfl
@[simp] theorem State.wr_hostArr (f : Fld) (v : Nat) : (s.wr f v).hostArr = s.hostArr := rfl
@[simp] theorem State.wr_events (f : Fld) (v : Nat) : (s.wr f v).events = s.events := rfl
@[simp] theorem State.wr_mdio (f : Fld) (v : Nat) : (s.wr f v).mdio = s.mdio := rfl
@[simp] theorem State.wr_dge (f : Fld) (v : Nat) : (s.wr f v).dge = s.dge := rfl
@[simp] theorem State.wr_crus (f : Fld) (v : Nat) : (s.wr f v).crus = s.crus := rfl
@[simp] theorem State.wr_hif (f : Fld) (v : Nat) : (s.wr f v).hif = s.hif := rfl
@[simp] theorem State.wr_ladder (f : Fld) (v : Nat) : (s.wr f v).ladder = s.ladder := rfl
@[simp] theorem State.wr_pm (f : Fld) (v : Nat) : (s.wr f v).pm = s.pm := rfl
@[simp] theorem State.wr_con (f : Fld) (v : Nat) : (s.wr f v).con = s.con := rfl
@[simp] theorem State.wr_boot (f : Fld) (v : Nat) : (s.wr f v).boot = s.boot := rfl
@[simp] theorem State.wr_pins (f : Fld) (v : Nat) : (s.wr f v).pins = s.pins := rfl
@[simp] theorem State.wr_cyc (f : Fld) (v : Nat) : (s.wr f v).cyc = s.cyc := rfl

/-! ### State.put -/

@[simp] theorem State.put_pending (f : Fld) (b : Bool) : (s.put f b).pending = s.pending := rfl
@[simp] theorem State.put_now (f : Fld) (b : Bool) : (s.put f b).now = s.now := rfl
@[simp] theorem State.put_base0 (f : Fld) (b : Bool) : (s.put f b).base0 = s.base0 := rfl
@[simp] theorem State.put_draws (f : Fld) (b : Bool) : (s.put f b).draws = s.draws := rfl
@[simp] theorem State.put_sent (f : Fld) (b : Bool) : (s.put f b).sent = s.sent := rfl
@[simp] theorem State.put_force (f : Fld) (b : Bool) : (s.put f b).force = s.force := rfl
@[simp] theorem State.put_oldForce (f : Fld) (b : Bool) : (s.put f b).oldForce = s.oldForce := rfl
@[simp] theorem State.put_kept (f : Fld) (b : Bool) : (s.put f b).kept = s.kept := rfl
@[simp] theorem State.put_latches (f : Fld) (b : Bool) : (s.put f b).latches = s.latches := rfl
@[simp] theorem State.put_tick (f : Fld) (b : Bool) : (s.put f b).tick = s.tick := rfl
@[simp] theorem State.put_led (f : Fld) (b : Bool) : (s.put f b).led = s.led := rfl
@[simp] theorem State.put_buf (f : Fld) (b : Bool) : (s.put f b).buf = s.buf := rfl
@[simp] theorem State.put_ports (f : Fld) (b : Bool) : (s.put f b).ports = s.ports := rfl
@[simp] theorem State.put_frames (f : Fld) (b : Bool) : (s.put f b).frames = s.frames := rfl
@[simp] theorem State.put_mas (f : Fld) (b : Bool) : (s.put f b).mas = s.mas := rfl
@[simp] theorem State.put_irc (f : Fld) (b : Bool) : (s.put f b).irc = s.irc := rfl
@[simp] theorem State.put_td (f : Fld) (b : Bool) : (s.put f b).td = s.td := rfl
@[simp] theorem State.put_tu (f : Fld) (b : Bool) : (s.put f b).tu = s.tu := rfl
@[simp] theorem State.put_hostArr (f : Fld) (b : Bool) : (s.put f b).hostArr = s.hostArr := rfl
@[simp] theorem State.put_events (f : Fld) (b : Bool) : (s.put f b).events = s.events := rfl
@[simp] theorem State.put_mdio (f : Fld) (b : Bool) : (s.put f b).mdio = s.mdio := rfl
@[simp] theorem State.put_dge (f : Fld) (b : Bool) : (s.put f b).dge = s.dge := rfl
@[simp] theorem State.put_crus (f : Fld) (b : Bool) : (s.put f b).crus = s.crus := rfl
@[simp] theorem State.put_hif (f : Fld) (b : Bool) : (s.put f b).hif = s.hif := rfl
@[simp] theorem State.put_ladder (f : Fld) (b : Bool) : (s.put f b).ladder = s.ladder := rfl
@[simp] theorem State.put_pm (f : Fld) (b : Bool) : (s.put f b).pm = s.pm := rfl
@[simp] theorem State.put_con (f : Fld) (b : Bool) : (s.put f b).con = s.con := rfl
@[simp] theorem State.put_boot (f : Fld) (b : Bool) : (s.put f b).boot = s.boot := rfl
@[simp] theorem State.put_pins (f : Fld) (b : Bool) : (s.put f b).pins = s.pins := rfl
@[simp] theorem State.put_cyc (f : Fld) (b : Bool) : (s.put f b).cyc = s.cyc := rfl

/-! ### State.add -/

@[simp] theorem State.add_pending (f : Fld) (n : Nat) : (s.add f n).pending = s.pending := rfl
@[simp] theorem State.add_now (f : Fld) (n : Nat) : (s.add f n).now = s.now := rfl
@[simp] theorem State.add_base0 (f : Fld) (n : Nat) : (s.add f n).base0 = s.base0 := rfl
@[simp] theorem State.add_draws (f : Fld) (n : Nat) : (s.add f n).draws = s.draws := rfl
@[simp] theorem State.add_sent (f : Fld) (n : Nat) : (s.add f n).sent = s.sent := rfl
@[simp] theorem State.add_force (f : Fld) (n : Nat) : (s.add f n).force = s.force := rfl
@[simp] theorem State.add_oldForce (f : Fld) (n : Nat) : (s.add f n).oldForce = s.oldForce := rfl
@[simp] theorem State.add_kept (f : Fld) (n : Nat) : (s.add f n).kept = s.kept := rfl
@[simp] theorem State.add_latches (f : Fld) (n : Nat) : (s.add f n).latches = s.latches := rfl
@[simp] theorem State.add_tick (f : Fld) (n : Nat) : (s.add f n).tick = s.tick := rfl
@[simp] theorem State.add_led (f : Fld) (n : Nat) : (s.add f n).led = s.led := rfl
@[simp] theorem State.add_buf (f : Fld) (n : Nat) : (s.add f n).buf = s.buf := rfl
@[simp] theorem State.add_ports (f : Fld) (n : Nat) : (s.add f n).ports = s.ports := rfl
@[simp] theorem State.add_frames (f : Fld) (n : Nat) : (s.add f n).frames = s.frames := rfl
@[simp] theorem State.add_mas (f : Fld) (n : Nat) : (s.add f n).mas = s.mas := rfl
@[simp] theorem State.add_irc (f : Fld) (n : Nat) : (s.add f n).irc = s.irc := rfl
@[simp] theorem State.add_td (f : Fld) (n : Nat) : (s.add f n).td = s.td := rfl
@[simp] theorem State.add_tu (f : Fld) (n : Nat) : (s.add f n).tu = s.tu := rfl
@[simp] theorem State.add_hostArr (f : Fld) (n : Nat) : (s.add f n).hostArr = s.hostArr := rfl
@[simp] theorem State.add_events (f : Fld) (n : Nat) : (s.add f n).events = s.events := rfl
@[simp] theorem State.add_mdio (f : Fld) (n : Nat) : (s.add f n).mdio = s.mdio := rfl
@[simp] theorem State.add_dge (f : Fld) (n : Nat) : (s.add f n).dge = s.dge := rfl
@[simp] theorem State.add_crus (f : Fld) (n : Nat) : (s.add f n).crus = s.crus := rfl
@[simp] theorem State.add_hif (f : Fld) (n : Nat) : (s.add f n).hif = s.hif := rfl
@[simp] theorem State.add_ladder (f : Fld) (n : Nat) : (s.add f n).ladder = s.ladder := rfl
@[simp] theorem State.add_pm (f : Fld) (n : Nat) : (s.add f n).pm = s.pm := rfl
@[simp] theorem State.add_con (f : Fld) (n : Nat) : (s.add f n).con = s.con := rfl
@[simp] theorem State.add_boot (f : Fld) (n : Nat) : (s.add f n).boot = s.boot := rfl
@[simp] theorem State.add_pins (f : Fld) (n : Nat) : (s.add f n).pins = s.pins := rfl
@[simp] theorem State.add_cyc (f : Fld) (n : Nat) : (s.add f n).cyc = s.cyc := rfl

/-! ### State.inc -/

@[simp] theorem State.inc_pending (f : Fld) : (s.inc f).pending = s.pending := rfl
@[simp] theorem State.inc_now (f : Fld) : (s.inc f).now = s.now := rfl
@[simp] theorem State.inc_base0 (f : Fld) : (s.inc f).base0 = s.base0 := rfl
@[simp] theorem State.inc_draws (f : Fld) : (s.inc f).draws = s.draws := rfl
@[simp] theorem State.inc_sent (f : Fld) : (s.inc f).sent = s.sent := rfl
@[simp] theorem State.inc_force (f : Fld) : (s.inc f).force = s.force := rfl
@[simp] theorem State.inc_oldForce (f : Fld) : (s.inc f).oldForce = s.oldForce := rfl
@[simp] theorem State.inc_kept (f : Fld) : (s.inc f).kept = s.kept := rfl
@[simp] theorem State.inc_latches (f : Fld) : (s.inc f).latches = s.latches := rfl
@[simp] theorem State.inc_tick (f : Fld) : (s.inc f).tick = s.tick := rfl
@[simp] theorem State.inc_led (f : Fld) : (s.inc f).led = s.led := rfl
@[simp] theorem State.inc_buf (f : Fld) : (s.inc f).buf = s.buf := rfl
@[simp] theorem State.inc_ports (f : Fld) : (s.inc f).ports = s.ports := rfl
@[simp] theorem State.inc_frames (f : Fld) : (s.inc f).frames = s.frames := rfl
@[simp] theorem State.inc_mas (f : Fld) : (s.inc f).mas = s.mas := rfl
@[simp] theorem State.inc_irc (f : Fld) : (s.inc f).irc = s.irc := rfl
@[simp] theorem State.inc_td (f : Fld) : (s.inc f).td = s.td := rfl
@[simp] theorem State.inc_tu (f : Fld) : (s.inc f).tu = s.tu := rfl
@[simp] theorem State.inc_hostArr (f : Fld) : (s.inc f).hostArr = s.hostArr := rfl
@[simp] theorem State.inc_events (f : Fld) : (s.inc f).events = s.events := rfl
@[simp] theorem State.inc_mdio (f : Fld) : (s.inc f).mdio = s.mdio := rfl
@[simp] theorem State.inc_dge (f : Fld) : (s.inc f).dge = s.dge := rfl
@[simp] theorem State.inc_crus (f : Fld) : (s.inc f).crus = s.crus := rfl
@[simp] theorem State.inc_hif (f : Fld) : (s.inc f).hif = s.hif := rfl
@[simp] theorem State.inc_ladder (f : Fld) : (s.inc f).ladder = s.ladder := rfl
@[simp] theorem State.inc_pm (f : Fld) : (s.inc f).pm = s.pm := rfl
@[simp] theorem State.inc_con (f : Fld) : (s.inc f).con = s.con := rfl
@[simp] theorem State.inc_boot (f : Fld) : (s.inc f).boot = s.boot := rfl
@[simp] theorem State.inc_pins (f : Fld) : (s.inc f).pins = s.pins := rfl
@[simp] theorem State.inc_cyc (f : Fld) : (s.inc f).cyc = s.cyc := rfl

/-! ### State.putAt -/

@[simp] theorem State.putAt_pending (f : Fld) (i : Nat) (b : Bool) : (s.putAt f i b).pending = s.pending := rfl
@[simp] theorem State.putAt_now (f : Fld) (i : Nat) (b : Bool) : (s.putAt f i b).now = s.now := rfl
@[simp] theorem State.putAt_base0 (f : Fld) (i : Nat) (b : Bool) : (s.putAt f i b).base0 = s.base0 := rfl
@[simp] theorem State.putAt_draws (f : Fld) (i : Nat) (b : Bool) : (s.putAt f i b).draws = s.draws := rfl
@[simp] theorem State.putAt_sent (f : Fld) (i : Nat) (b : Bool) : (s.putAt f i b).sent = s.sent := rfl
@[simp] theorem State.putAt_force (f : Fld) (i : Nat) (b : Bool) : (s.putAt f i b).force = s.force := rfl
@[simp] theorem State.putAt_oldForce (f : Fld) (i : Nat) (b : Bool) : (s.putAt f i b).oldForce = s.oldForce := rfl
@[simp] theorem State.putAt_kept (f : Fld) (i : Nat) (b : Bool) : (s.putAt f i b).kept = s.kept := rfl
@[simp] theorem State.putAt_latches (f : Fld) (i : Nat) (b : Bool) : (s.putAt f i b).latches = s.latches := rfl
@[simp] theorem State.putAt_tick (f : Fld) (i : Nat) (b : Bool) : (s.putAt f i b).tick = s.tick := rfl
@[simp] theorem State.putAt_led (f : Fld) (i : Nat) (b : Bool) : (s.putAt f i b).led = s.led := rfl
@[simp] theorem State.putAt_buf (f : Fld) (i : Nat) (b : Bool) : (s.putAt f i b).buf = s.buf := rfl
@[simp] theorem State.putAt_ports (f : Fld) (i : Nat) (b : Bool) : (s.putAt f i b).ports = s.ports := rfl
@[simp] theorem State.putAt_frames (f : Fld) (i : Nat) (b : Bool) : (s.putAt f i b).frames = s.frames := rfl
@[simp] theorem State.putAt_mas (f : Fld) (i : Nat) (b : Bool) : (s.putAt f i b).mas = s.mas := rfl
@[simp] theorem State.putAt_irc (f : Fld) (i : Nat) (b : Bool) : (s.putAt f i b).irc = s.irc := rfl
@[simp] theorem State.putAt_td (f : Fld) (i : Nat) (b : Bool) : (s.putAt f i b).td = s.td := rfl
@[simp] theorem State.putAt_tu (f : Fld) (i : Nat) (b : Bool) : (s.putAt f i b).tu = s.tu := rfl
@[simp] theorem State.putAt_hostArr (f : Fld) (i : Nat) (b : Bool) : (s.putAt f i b).hostArr = s.hostArr := rfl
@[simp] theorem State.putAt_events (f : Fld) (i : Nat) (b : Bool) : (s.putAt f i b).events = s.events := rfl
@[simp] theorem State.putAt_mdio (f : Fld) (i : Nat) (b : Bool) : (s.putAt f i b).mdio = s.mdio := rfl
@[simp] theorem State.putAt_dge (f : Fld) (i : Nat) (b : Bool) : (s.putAt f i b).dge = s.dge := rfl
@[simp] theorem State.putAt_crus (f : Fld) (i : Nat) (b : Bool) : (s.putAt f i b).crus = s.crus := rfl
@[simp] theorem State.putAt_hif (f : Fld) (i : Nat) (b : Bool) : (s.putAt f i b).hif = s.hif := rfl
@[simp] theorem State.putAt_ladder (f : Fld) (i : Nat) (b : Bool) : (s.putAt f i b).ladder = s.ladder := rfl
@[simp] theorem State.putAt_pm (f : Fld) (i : Nat) (b : Bool) : (s.putAt f i b).pm = s.pm := rfl
@[simp] theorem State.putAt_con (f : Fld) (i : Nat) (b : Bool) : (s.putAt f i b).con = s.con := rfl
@[simp] theorem State.putAt_boot (f : Fld) (i : Nat) (b : Bool) : (s.putAt f i b).boot = s.boot := rfl
@[simp] theorem State.putAt_pins (f : Fld) (i : Nat) (b : Bool) : (s.putAt f i b).pins = s.pins := rfl
@[simp] theorem State.putAt_cyc (f : Fld) (i : Nat) (b : Bool) : (s.putAt f i b).cyc = s.cyc := rfl

/-! ### State.wr64 -/

@[simp] theorem State.wr64_pending (a b : Fld) (v : Nat) : (s.wr64 a b v).pending = s.pending := rfl
@[simp] theorem State.wr64_now (a b : Fld) (v : Nat) : (s.wr64 a b v).now = s.now := rfl
@[simp] theorem State.wr64_base0 (a b : Fld) (v : Nat) : (s.wr64 a b v).base0 = s.base0 := rfl
@[simp] theorem State.wr64_draws (a b : Fld) (v : Nat) : (s.wr64 a b v).draws = s.draws := rfl
@[simp] theorem State.wr64_sent (a b : Fld) (v : Nat) : (s.wr64 a b v).sent = s.sent := rfl
@[simp] theorem State.wr64_force (a b : Fld) (v : Nat) : (s.wr64 a b v).force = s.force := rfl
@[simp] theorem State.wr64_oldForce (a b : Fld) (v : Nat) : (s.wr64 a b v).oldForce = s.oldForce := rfl
@[simp] theorem State.wr64_kept (a b : Fld) (v : Nat) : (s.wr64 a b v).kept = s.kept := rfl
@[simp] theorem State.wr64_latches (a b : Fld) (v : Nat) : (s.wr64 a b v).latches = s.latches := rfl
@[simp] theorem State.wr64_tick (a b : Fld) (v : Nat) : (s.wr64 a b v).tick = s.tick := rfl
@[simp] theorem State.wr64_led (a b : Fld) (v : Nat) : (s.wr64 a b v).led = s.led := rfl
@[simp] theorem State.wr64_buf (a b : Fld) (v : Nat) : (s.wr64 a b v).buf = s.buf := rfl
@[simp] theorem State.wr64_ports (a b : Fld) (v : Nat) : (s.wr64 a b v).ports = s.ports := rfl
@[simp] theorem State.wr64_frames (a b : Fld) (v : Nat) : (s.wr64 a b v).frames = s.frames := rfl
@[simp] theorem State.wr64_mas (a b : Fld) (v : Nat) : (s.wr64 a b v).mas = s.mas := rfl
@[simp] theorem State.wr64_irc (a b : Fld) (v : Nat) : (s.wr64 a b v).irc = s.irc := rfl
@[simp] theorem State.wr64_td (a b : Fld) (v : Nat) : (s.wr64 a b v).td = s.td := rfl
@[simp] theorem State.wr64_tu (a b : Fld) (v : Nat) : (s.wr64 a b v).tu = s.tu := rfl
@[simp] theorem State.wr64_hostArr (a b : Fld) (v : Nat) : (s.wr64 a b v).hostArr = s.hostArr := rfl
@[simp] theorem State.wr64_events (a b : Fld) (v : Nat) : (s.wr64 a b v).events = s.events := rfl
@[simp] theorem State.wr64_mdio (a b : Fld) (v : Nat) : (s.wr64 a b v).mdio = s.mdio := rfl
@[simp] theorem State.wr64_dge (a b : Fld) (v : Nat) : (s.wr64 a b v).dge = s.dge := rfl
@[simp] theorem State.wr64_crus (a b : Fld) (v : Nat) : (s.wr64 a b v).crus = s.crus := rfl
@[simp] theorem State.wr64_hif (a b : Fld) (v : Nat) : (s.wr64 a b v).hif = s.hif := rfl
@[simp] theorem State.wr64_ladder (a b : Fld) (v : Nat) : (s.wr64 a b v).ladder = s.ladder := rfl
@[simp] theorem State.wr64_pm (a b : Fld) (v : Nat) : (s.wr64 a b v).pm = s.pm := rfl
@[simp] theorem State.wr64_con (a b : Fld) (v : Nat) : (s.wr64 a b v).con = s.con := rfl
@[simp] theorem State.wr64_boot (a b : Fld) (v : Nat) : (s.wr64 a b v).boot = s.boot := rfl
@[simp] theorem State.wr64_pins (a b : Fld) (v : Nat) : (s.wr64 a b v).pins = s.pins := rfl
@[simp] theorem State.wr64_cyc (a b : Fld) (v : Nat) : (s.wr64 a b v).cyc = s.cyc := rfl

/-! ### State.add64 -/

@[simp] theorem State.add64_pending (a b : Fld) (n : Nat) : (s.add64 a b n).pending = s.pending := rfl
@[simp] theorem State.add64_now (a b : Fld) (n : Nat) : (s.add64 a b n).now = s.now := rfl
@[simp] theorem State.add64_base0 (a b : Fld) (n : Nat) : (s.add64 a b n).base0 = s.base0 := rfl
@[simp] theorem State.add64_draws (a b : Fld) (n : Nat) : (s.add64 a b n).draws = s.draws := rfl
@[simp] theorem State.add64_sent (a b : Fld) (n : Nat) : (s.add64 a b n).sent = s.sent := rfl
@[simp] theorem State.add64_force (a b : Fld) (n : Nat) : (s.add64 a b n).force = s.force := rfl
@[simp] theorem State.add64_oldForce (a b : Fld) (n : Nat) : (s.add64 a b n).oldForce = s.oldForce := rfl
@[simp] theorem State.add64_kept (a b : Fld) (n : Nat) : (s.add64 a b n).kept = s.kept := rfl
@[simp] theorem State.add64_latches (a b : Fld) (n : Nat) : (s.add64 a b n).latches = s.latches := rfl
@[simp] theorem State.add64_tick (a b : Fld) (n : Nat) : (s.add64 a b n).tick = s.tick := rfl
@[simp] theorem State.add64_led (a b : Fld) (n : Nat) : (s.add64 a b n).led = s.led := rfl
@[simp] theorem State.add64_buf (a b : Fld) (n : Nat) : (s.add64 a b n).buf = s.buf := rfl
@[simp] theorem State.add64_ports (a b : Fld) (n : Nat) : (s.add64 a b n).ports = s.ports := rfl
@[simp] theorem State.add64_frames (a b : Fld) (n : Nat) : (s.add64 a b n).frames = s.frames := rfl
@[simp] theorem State.add64_mas (a b : Fld) (n : Nat) : (s.add64 a b n).mas = s.mas := rfl
@[simp] theorem State.add64_irc (a b : Fld) (n : Nat) : (s.add64 a b n).irc = s.irc := rfl
@[simp] theorem State.add64_td (a b : Fld) (n : Nat) : (s.add64 a b n).td = s.td := rfl
@[simp] theorem State.add64_tu (a b : Fld) (n : Nat) : (s.add64 a b n).tu = s.tu := rfl
@[simp] theorem State.add64_hostArr (a b : Fld) (n : Nat) : (s.add64 a b n).hostArr = s.hostArr := rfl
@[simp] theorem State.add64_events (a b : Fld) (n : Nat) : (s.add64 a b n).events = s.events := rfl
@[simp] theorem State.add64_mdio (a b : Fld) (n : Nat) : (s.add64 a b n).mdio = s.mdio := rfl
@[simp] theorem State.add64_dge (a b : Fld) (n : Nat) : (s.add64 a b n).dge = s.dge := rfl
@[simp] theorem State.add64_crus (a b : Fld) (n : Nat) : (s.add64 a b n).crus = s.crus := rfl
@[simp] theorem State.add64_hif (a b : Fld) (n : Nat) : (s.add64 a b n).hif = s.hif := rfl
@[simp] theorem State.add64_ladder (a b : Fld) (n : Nat) : (s.add64 a b n).ladder = s.ladder := rfl
@[simp] theorem State.add64_pm (a b : Fld) (n : Nat) : (s.add64 a b n).pm = s.pm := rfl
@[simp] theorem State.add64_con (a b : Fld) (n : Nat) : (s.add64 a b n).con = s.con := rfl
@[simp] theorem State.add64_boot (a b : Fld) (n : Nat) : (s.add64 a b n).boot = s.boot := rfl
@[simp] theorem State.add64_pins (a b : Fld) (n : Nat) : (s.add64 a b n).pins = s.pins := rfl
@[simp] theorem State.add64_cyc (a b : Fld) (n : Nat) : (s.add64 a b n).cyc = s.cyc := rfl

/-! ### State.reject -/

@[simp] theorem State.reject_pending (o w : Nat) : (s.reject o w).pending = s.pending := rfl
@[simp] theorem State.reject_now (o w : Nat) : (s.reject o w).now = s.now := rfl
@[simp] theorem State.reject_base0 (o w : Nat) : (s.reject o w).base0 = s.base0 := rfl
@[simp] theorem State.reject_draws (o w : Nat) : (s.reject o w).draws = s.draws := rfl
@[simp] theorem State.reject_sent (o w : Nat) : (s.reject o w).sent = s.sent := rfl
@[simp] theorem State.reject_force (o w : Nat) : (s.reject o w).force = s.force := rfl
@[simp] theorem State.reject_oldForce (o w : Nat) : (s.reject o w).oldForce = s.oldForce := rfl
@[simp] theorem State.reject_kept (o w : Nat) : (s.reject o w).kept = s.kept := rfl
@[simp] theorem State.reject_latches (o w : Nat) : (s.reject o w).latches = s.latches := rfl
@[simp] theorem State.reject_tick (o w : Nat) : (s.reject o w).tick = s.tick := rfl
@[simp] theorem State.reject_led (o w : Nat) : (s.reject o w).led = s.led := rfl
@[simp] theorem State.reject_buf (o w : Nat) : (s.reject o w).buf = s.buf := rfl
@[simp] theorem State.reject_ports (o w : Nat) : (s.reject o w).ports = s.ports := rfl
@[simp] theorem State.reject_frames (o w : Nat) : (s.reject o w).frames = s.frames := rfl
@[simp] theorem State.reject_mas (o w : Nat) : (s.reject o w).mas = s.mas := rfl
@[simp] theorem State.reject_irc (o w : Nat) : (s.reject o w).irc = s.irc := rfl
@[simp] theorem State.reject_td (o w : Nat) : (s.reject o w).td = s.td := rfl
@[simp] theorem State.reject_tu (o w : Nat) : (s.reject o w).tu = s.tu := rfl
@[simp] theorem State.reject_hostArr (o w : Nat) : (s.reject o w).hostArr = s.hostArr := rfl
@[simp] theorem State.reject_events (o w : Nat) : (s.reject o w).events = s.events := rfl
@[simp] theorem State.reject_mdio (o w : Nat) : (s.reject o w).mdio = s.mdio := rfl
@[simp] theorem State.reject_dge (o w : Nat) : (s.reject o w).dge = s.dge := rfl
@[simp] theorem State.reject_crus (o w : Nat) : (s.reject o w).crus = s.crus := rfl
@[simp] theorem State.reject_hif (o w : Nat) : (s.reject o w).hif = s.hif := rfl
@[simp] theorem State.reject_ladder (o w : Nat) : (s.reject o w).ladder = s.ladder := rfl
@[simp] theorem State.reject_pm (o w : Nat) : (s.reject o w).pm = s.pm := rfl
@[simp] theorem State.reject_con (o w : Nat) : (s.reject o w).con = s.con := rfl
@[simp] theorem State.reject_boot (o w : Nat) : (s.reject o w).boot = s.boot := rfl
@[simp] theorem State.reject_pins (o w : Nat) : (s.reject o w).pins = s.pins := rfl
@[simp] theorem State.reject_cyc (o w : Nat) : (s.reject o w).cyc = s.cyc := rfl

/-! ### State.spend -/

@[simp] theorem State.spend_pending (k n : Nat) : (s.spend k n).pending = s.pending := rfl
@[simp] theorem State.spend_now (k n : Nat) : (s.spend k n).now = s.now := rfl
@[simp] theorem State.spend_base0 (k n : Nat) : (s.spend k n).base0 = s.base0 := rfl
@[simp] theorem State.spend_draws (k n : Nat) : (s.spend k n).draws = s.draws := rfl
@[simp] theorem State.spend_sent (k n : Nat) : (s.spend k n).sent = s.sent := rfl
@[simp] theorem State.spend_regs (k n : Nat) : (s.spend k n).regs = s.regs := rfl
@[simp] theorem State.spend_force (k n : Nat) : (s.spend k n).force = s.force := rfl
@[simp] theorem State.spend_oldForce (k n : Nat) : (s.spend k n).oldForce = s.oldForce := rfl
@[simp] theorem State.spend_kept (k n : Nat) : (s.spend k n).kept = s.kept := rfl
@[simp] theorem State.spend_latches (k n : Nat) : (s.spend k n).latches = s.latches := rfl
@[simp] theorem State.spend_led (k n : Nat) : (s.spend k n).led = s.led := rfl
@[simp] theorem State.spend_buf (k n : Nat) : (s.spend k n).buf = s.buf := rfl
@[simp] theorem State.spend_ports (k n : Nat) : (s.spend k n).ports = s.ports := rfl
@[simp] theorem State.spend_frames (k n : Nat) : (s.spend k n).frames = s.frames := rfl
@[simp] theorem State.spend_mas (k n : Nat) : (s.spend k n).mas = s.mas := rfl
@[simp] theorem State.spend_irc (k n : Nat) : (s.spend k n).irc = s.irc := rfl
@[simp] theorem State.spend_td (k n : Nat) : (s.spend k n).td = s.td := rfl
@[simp] theorem State.spend_tu (k n : Nat) : (s.spend k n).tu = s.tu := rfl
@[simp] theorem State.spend_hostArr (k n : Nat) : (s.spend k n).hostArr = s.hostArr := rfl
@[simp] theorem State.spend_events (k n : Nat) : (s.spend k n).events = s.events := rfl
@[simp] theorem State.spend_mdio (k n : Nat) : (s.spend k n).mdio = s.mdio := rfl
@[simp] theorem State.spend_dge (k n : Nat) : (s.spend k n).dge = s.dge := rfl
@[simp] theorem State.spend_crus (k n : Nat) : (s.spend k n).crus = s.crus := rfl
@[simp] theorem State.spend_hif (k n : Nat) : (s.spend k n).hif = s.hif := rfl
@[simp] theorem State.spend_ladder (k n : Nat) : (s.spend k n).ladder = s.ladder := rfl
@[simp] theorem State.spend_pm (k n : Nat) : (s.spend k n).pm = s.pm := rfl
@[simp] theorem State.spend_con (k n : Nat) : (s.spend k n).con = s.con := rfl
@[simp] theorem State.spend_boot (k n : Nat) : (s.spend k n).boot = s.boot := rfl
@[simp] theorem State.spend_pins (k n : Nat) : (s.spend k n).pins = s.pins := rfl
@[simp] theorem State.spend_cyc (k n : Nat) : (s.spend k n).cyc = s.cyc := rfl

/-! ### State.upTo -/

@[simp] theorem State.upTo_pending (t : Nat) : (s.upTo t).pending = s.pending := rfl
@[simp] theorem State.upTo_base0 (t : Nat) : (s.upTo t).base0 = s.base0 := rfl
@[simp] theorem State.upTo_draws (t : Nat) : (s.upTo t).draws = s.draws := rfl
@[simp] theorem State.upTo_sent (t : Nat) : (s.upTo t).sent = s.sent := rfl
@[simp] theorem State.upTo_regs (t : Nat) : (s.upTo t).regs = s.regs := rfl
@[simp] theorem State.upTo_force (t : Nat) : (s.upTo t).force = s.force := rfl
@[simp] theorem State.upTo_oldForce (t : Nat) : (s.upTo t).oldForce = s.oldForce := rfl
@[simp] theorem State.upTo_kept (t : Nat) : (s.upTo t).kept = s.kept := rfl
@[simp] theorem State.upTo_latches (t : Nat) : (s.upTo t).latches = s.latches := rfl
@[simp] theorem State.upTo_tick (t : Nat) : (s.upTo t).tick = s.tick := rfl
@[simp] theorem State.upTo_led (t : Nat) : (s.upTo t).led = s.led := rfl
@[simp] theorem State.upTo_buf (t : Nat) : (s.upTo t).buf = s.buf := rfl
@[simp] theorem State.upTo_ports (t : Nat) : (s.upTo t).ports = s.ports := rfl
@[simp] theorem State.upTo_frames (t : Nat) : (s.upTo t).frames = s.frames := rfl
@[simp] theorem State.upTo_mas (t : Nat) : (s.upTo t).mas = s.mas := rfl
@[simp] theorem State.upTo_irc (t : Nat) : (s.upTo t).irc = s.irc := rfl
@[simp] theorem State.upTo_td (t : Nat) : (s.upTo t).td = s.td := rfl
@[simp] theorem State.upTo_tu (t : Nat) : (s.upTo t).tu = s.tu := rfl
@[simp] theorem State.upTo_hostArr (t : Nat) : (s.upTo t).hostArr = s.hostArr := rfl
@[simp] theorem State.upTo_events (t : Nat) : (s.upTo t).events = s.events := rfl
@[simp] theorem State.upTo_mdio (t : Nat) : (s.upTo t).mdio = s.mdio := rfl
@[simp] theorem State.upTo_dge (t : Nat) : (s.upTo t).dge = s.dge := rfl
@[simp] theorem State.upTo_crus (t : Nat) : (s.upTo t).crus = s.crus := rfl
@[simp] theorem State.upTo_hif (t : Nat) : (s.upTo t).hif = s.hif := rfl
@[simp] theorem State.upTo_ladder (t : Nat) : (s.upTo t).ladder = s.ladder := rfl
@[simp] theorem State.upTo_pm (t : Nat) : (s.upTo t).pm = s.pm := rfl
@[simp] theorem State.upTo_con (t : Nat) : (s.upTo t).con = s.con := rfl
@[simp] theorem State.upTo_boot (t : Nat) : (s.upTo t).boot = s.boot := rfl
@[simp] theorem State.upTo_pins (t : Nat) : (s.upTo t).pins = s.pins := rfl

/-! ### State.idle -/

@[simp] theorem State.idle_pending : (s.idle).pending = s.pending := rfl
@[simp] theorem State.idle_base0 : (s.idle).base0 = s.base0 := rfl
@[simp] theorem State.idle_draws : (s.idle).draws = s.draws := rfl
@[simp] theorem State.idle_sent : (s.idle).sent = s.sent := rfl
@[simp] theorem State.idle_regs : (s.idle).regs = s.regs := rfl
@[simp] theorem State.idle_force : (s.idle).force = s.force := rfl
@[simp] theorem State.idle_oldForce : (s.idle).oldForce = s.oldForce := rfl
@[simp] theorem State.idle_kept : (s.idle).kept = s.kept := rfl
@[simp] theorem State.idle_latches : (s.idle).latches = s.latches := rfl
@[simp] theorem State.idle_tick : (s.idle).tick = s.tick := rfl
@[simp] theorem State.idle_led : (s.idle).led = s.led := rfl
@[simp] theorem State.idle_buf : (s.idle).buf = s.buf := rfl
@[simp] theorem State.idle_ports : (s.idle).ports = s.ports := rfl
@[simp] theorem State.idle_frames : (s.idle).frames = s.frames := rfl
@[simp] theorem State.idle_mas : (s.idle).mas = s.mas := rfl
@[simp] theorem State.idle_irc : (s.idle).irc = s.irc := rfl
@[simp] theorem State.idle_td : (s.idle).td = s.td := rfl
@[simp] theorem State.idle_tu : (s.idle).tu = s.tu := rfl
@[simp] theorem State.idle_hostArr : (s.idle).hostArr = s.hostArr := rfl
@[simp] theorem State.idle_events : (s.idle).events = s.events := rfl
@[simp] theorem State.idle_mdio : (s.idle).mdio = s.mdio := rfl
@[simp] theorem State.idle_dge : (s.idle).dge = s.dge := rfl
@[simp] theorem State.idle_crus : (s.idle).crus = s.crus := rfl
@[simp] theorem State.idle_hif : (s.idle).hif = s.hif := rfl
@[simp] theorem State.idle_ladder : (s.idle).ladder = s.ladder := rfl
@[simp] theorem State.idle_pm : (s.idle).pm = s.pm := rfl
@[simp] theorem State.idle_con : (s.idle).con = s.con := rfl
@[simp] theorem State.idle_boot : (s.idle).boot = s.boot := rfl
@[simp] theorem State.idle_pins : (s.idle).pins = s.pins := rfl

/-! ### State.setSrc -/

@[simp] theorem State.setSrc_pending (i : Nat) (v : IrqSrc) : (s.setSrc i v).pending = s.pending := rfl
@[simp] theorem State.setSrc_now (i : Nat) (v : IrqSrc) : (s.setSrc i v).now = s.now := rfl
@[simp] theorem State.setSrc_base0 (i : Nat) (v : IrqSrc) : (s.setSrc i v).base0 = s.base0 := rfl
@[simp] theorem State.setSrc_draws (i : Nat) (v : IrqSrc) : (s.setSrc i v).draws = s.draws := rfl
@[simp] theorem State.setSrc_sent (i : Nat) (v : IrqSrc) : (s.setSrc i v).sent = s.sent := rfl
@[simp] theorem State.setSrc_regs (i : Nat) (v : IrqSrc) : (s.setSrc i v).regs = s.regs := rfl
@[simp] theorem State.setSrc_force (i : Nat) (v : IrqSrc) : (s.setSrc i v).force = s.force := rfl
@[simp] theorem State.setSrc_oldForce (i : Nat) (v : IrqSrc) : (s.setSrc i v).oldForce = s.oldForce := rfl
@[simp] theorem State.setSrc_kept (i : Nat) (v : IrqSrc) : (s.setSrc i v).kept = s.kept := rfl
@[simp] theorem State.setSrc_latches (i : Nat) (v : IrqSrc) : (s.setSrc i v).latches = s.latches := rfl
@[simp] theorem State.setSrc_tick (i : Nat) (v : IrqSrc) : (s.setSrc i v).tick = s.tick := rfl
@[simp] theorem State.setSrc_led (i : Nat) (v : IrqSrc) : (s.setSrc i v).led = s.led := rfl
@[simp] theorem State.setSrc_buf (i : Nat) (v : IrqSrc) : (s.setSrc i v).buf = s.buf := rfl
@[simp] theorem State.setSrc_ports (i : Nat) (v : IrqSrc) : (s.setSrc i v).ports = s.ports := rfl
@[simp] theorem State.setSrc_frames (i : Nat) (v : IrqSrc) : (s.setSrc i v).frames = s.frames := rfl
@[simp] theorem State.setSrc_mas (i : Nat) (v : IrqSrc) : (s.setSrc i v).mas = s.mas := rfl
@[simp] theorem State.setSrc_td (i : Nat) (v : IrqSrc) : (s.setSrc i v).td = s.td := rfl
@[simp] theorem State.setSrc_tu (i : Nat) (v : IrqSrc) : (s.setSrc i v).tu = s.tu := rfl
@[simp] theorem State.setSrc_hostArr (i : Nat) (v : IrqSrc) : (s.setSrc i v).hostArr = s.hostArr := rfl
@[simp] theorem State.setSrc_events (i : Nat) (v : IrqSrc) : (s.setSrc i v).events = s.events := rfl
@[simp] theorem State.setSrc_mdio (i : Nat) (v : IrqSrc) : (s.setSrc i v).mdio = s.mdio := rfl
@[simp] theorem State.setSrc_dge (i : Nat) (v : IrqSrc) : (s.setSrc i v).dge = s.dge := rfl
@[simp] theorem State.setSrc_crus (i : Nat) (v : IrqSrc) : (s.setSrc i v).crus = s.crus := rfl
@[simp] theorem State.setSrc_hif (i : Nat) (v : IrqSrc) : (s.setSrc i v).hif = s.hif := rfl
@[simp] theorem State.setSrc_ladder (i : Nat) (v : IrqSrc) : (s.setSrc i v).ladder = s.ladder := rfl
@[simp] theorem State.setSrc_pm (i : Nat) (v : IrqSrc) : (s.setSrc i v).pm = s.pm := rfl
@[simp] theorem State.setSrc_con (i : Nat) (v : IrqSrc) : (s.setSrc i v).con = s.con := rfl
@[simp] theorem State.setSrc_boot (i : Nat) (v : IrqSrc) : (s.setSrc i v).boot = s.boot := rfl
@[simp] theorem State.setSrc_pins (i : Nat) (v : IrqSrc) : (s.setSrc i v).pins = s.pins := rfl
@[simp] theorem State.setSrc_cyc (i : Nat) (v : IrqSrc) : (s.setSrc i v).cyc = s.cyc := rfl

/-! ### State.arrive -/

@[simp] theorem State.arrive_pending (i : Nat) (l : Bool) : (s.arrive i l).pending = s.pending := rfl
@[simp] theorem State.arrive_now (i : Nat) (l : Bool) : (s.arrive i l).now = s.now := rfl
@[simp] theorem State.arrive_base0 (i : Nat) (l : Bool) : (s.arrive i l).base0 = s.base0 := rfl
@[simp] theorem State.arrive_draws (i : Nat) (l : Bool) : (s.arrive i l).draws = s.draws := rfl
@[simp] theorem State.arrive_sent (i : Nat) (l : Bool) : (s.arrive i l).sent = s.sent := rfl
@[simp] theorem State.arrive_regs (i : Nat) (l : Bool) : (s.arrive i l).regs = s.regs := rfl
@[simp] theorem State.arrive_force (i : Nat) (l : Bool) : (s.arrive i l).force = s.force := rfl
@[simp] theorem State.arrive_oldForce (i : Nat) (l : Bool) : (s.arrive i l).oldForce = s.oldForce := rfl
@[simp] theorem State.arrive_kept (i : Nat) (l : Bool) : (s.arrive i l).kept = s.kept := rfl
@[simp] theorem State.arrive_latches (i : Nat) (l : Bool) : (s.arrive i l).latches = s.latches := rfl
@[simp] theorem State.arrive_tick (i : Nat) (l : Bool) : (s.arrive i l).tick = s.tick := rfl
@[simp] theorem State.arrive_led (i : Nat) (l : Bool) : (s.arrive i l).led = s.led := rfl
@[simp] theorem State.arrive_buf (i : Nat) (l : Bool) : (s.arrive i l).buf = s.buf := rfl
@[simp] theorem State.arrive_ports (i : Nat) (l : Bool) : (s.arrive i l).ports = s.ports := rfl
@[simp] theorem State.arrive_frames (i : Nat) (l : Bool) : (s.arrive i l).frames = s.frames := rfl
@[simp] theorem State.arrive_mas (i : Nat) (l : Bool) : (s.arrive i l).mas = s.mas := rfl
@[simp] theorem State.arrive_td (i : Nat) (l : Bool) : (s.arrive i l).td = s.td := rfl
@[simp] theorem State.arrive_tu (i : Nat) (l : Bool) : (s.arrive i l).tu = s.tu := rfl
@[simp] theorem State.arrive_hostArr (i : Nat) (l : Bool) : (s.arrive i l).hostArr = s.hostArr := rfl
@[simp] theorem State.arrive_events (i : Nat) (l : Bool) : (s.arrive i l).events = s.events := rfl
@[simp] theorem State.arrive_mdio (i : Nat) (l : Bool) : (s.arrive i l).mdio = s.mdio := rfl
@[simp] theorem State.arrive_dge (i : Nat) (l : Bool) : (s.arrive i l).dge = s.dge := rfl
@[simp] theorem State.arrive_crus (i : Nat) (l : Bool) : (s.arrive i l).crus = s.crus := rfl
@[simp] theorem State.arrive_hif (i : Nat) (l : Bool) : (s.arrive i l).hif = s.hif := rfl
@[simp] theorem State.arrive_ladder (i : Nat) (l : Bool) : (s.arrive i l).ladder = s.ladder := rfl
@[simp] theorem State.arrive_pm (i : Nat) (l : Bool) : (s.arrive i l).pm = s.pm := rfl
@[simp] theorem State.arrive_con (i : Nat) (l : Bool) : (s.arrive i l).con = s.con := rfl
@[simp] theorem State.arrive_boot (i : Nat) (l : Bool) : (s.arrive i l).boot = s.boot := rfl
@[simp] theorem State.arrive_pins (i : Nat) (l : Bool) : (s.arrive i l).pins = s.pins := rfl

/-! ### State.raise -/

@[simp] theorem State.raise_pending (i : Nat) : (s.raise i).pending = s.pending := rfl
@[simp] theorem State.raise_now (i : Nat) : (s.raise i).now = s.now := rfl
@[simp] theorem State.raise_base0 (i : Nat) : (s.raise i).base0 = s.base0 := rfl
@[simp] theorem State.raise_draws (i : Nat) : (s.raise i).draws = s.draws := rfl
@[simp] theorem State.raise_sent (i : Nat) : (s.raise i).sent = s.sent := rfl
@[simp] theorem State.raise_regs (i : Nat) : (s.raise i).regs = s.regs := rfl
@[simp] theorem State.raise_force (i : Nat) : (s.raise i).force = s.force := rfl
@[simp] theorem State.raise_oldForce (i : Nat) : (s.raise i).oldForce = s.oldForce := rfl
@[simp] theorem State.raise_kept (i : Nat) : (s.raise i).kept = s.kept := rfl
@[simp] theorem State.raise_latches (i : Nat) : (s.raise i).latches = s.latches := rfl
@[simp] theorem State.raise_tick (i : Nat) : (s.raise i).tick = s.tick := rfl
@[simp] theorem State.raise_led (i : Nat) : (s.raise i).led = s.led := rfl
@[simp] theorem State.raise_buf (i : Nat) : (s.raise i).buf = s.buf := rfl
@[simp] theorem State.raise_ports (i : Nat) : (s.raise i).ports = s.ports := rfl
@[simp] theorem State.raise_frames (i : Nat) : (s.raise i).frames = s.frames := rfl
@[simp] theorem State.raise_mas (i : Nat) : (s.raise i).mas = s.mas := rfl
@[simp] theorem State.raise_td (i : Nat) : (s.raise i).td = s.td := rfl
@[simp] theorem State.raise_tu (i : Nat) : (s.raise i).tu = s.tu := rfl
@[simp] theorem State.raise_hostArr (i : Nat) : (s.raise i).hostArr = s.hostArr := rfl
@[simp] theorem State.raise_events (i : Nat) : (s.raise i).events = s.events := rfl
@[simp] theorem State.raise_mdio (i : Nat) : (s.raise i).mdio = s.mdio := rfl
@[simp] theorem State.raise_dge (i : Nat) : (s.raise i).dge = s.dge := rfl
@[simp] theorem State.raise_crus (i : Nat) : (s.raise i).crus = s.crus := rfl
@[simp] theorem State.raise_hif (i : Nat) : (s.raise i).hif = s.hif := rfl
@[simp] theorem State.raise_ladder (i : Nat) : (s.raise i).ladder = s.ladder := rfl
@[simp] theorem State.raise_pm (i : Nat) : (s.raise i).pm = s.pm := rfl
@[simp] theorem State.raise_con (i : Nat) : (s.raise i).con = s.con := rfl
@[simp] theorem State.raise_boot (i : Nat) : (s.raise i).boot = s.boot := rfl
@[simp] theorem State.raise_pins (i : Nat) : (s.raise i).pins = s.pins := rfl

/-! ### State.modPort -/

@[simp] theorem State.modPort_pending (p : Nat) (g : PortState → PortState) : (s.modPort p g).pending = s.pending := rfl
@[simp] theorem State.modPort_now (p : Nat) (g : PortState → PortState) : (s.modPort p g).now = s.now := rfl
@[simp] theorem State.modPort_base0 (p : Nat) (g : PortState → PortState) : (s.modPort p g).base0 = s.base0 := rfl
@[simp] theorem State.modPort_draws (p : Nat) (g : PortState → PortState) : (s.modPort p g).draws = s.draws := rfl
@[simp] theorem State.modPort_sent (p : Nat) (g : PortState → PortState) : (s.modPort p g).sent = s.sent := rfl
@[simp] theorem State.modPort_regs (p : Nat) (g : PortState → PortState) : (s.modPort p g).regs = s.regs := rfl
@[simp] theorem State.modPort_force (p : Nat) (g : PortState → PortState) : (s.modPort p g).force = s.force := rfl
@[simp] theorem State.modPort_oldForce (p : Nat) (g : PortState → PortState) : (s.modPort p g).oldForce = s.oldForce := rfl
@[simp] theorem State.modPort_kept (p : Nat) (g : PortState → PortState) : (s.modPort p g).kept = s.kept := rfl
@[simp] theorem State.modPort_latches (p : Nat) (g : PortState → PortState) : (s.modPort p g).latches = s.latches := rfl
@[simp] theorem State.modPort_tick (p : Nat) (g : PortState → PortState) : (s.modPort p g).tick = s.tick := rfl
@[simp] theorem State.modPort_led (p : Nat) (g : PortState → PortState) : (s.modPort p g).led = s.led := rfl
@[simp] theorem State.modPort_buf (p : Nat) (g : PortState → PortState) : (s.modPort p g).buf = s.buf := rfl
@[simp] theorem State.modPort_frames (p : Nat) (g : PortState → PortState) : (s.modPort p g).frames = s.frames := rfl
@[simp] theorem State.modPort_mas (p : Nat) (g : PortState → PortState) : (s.modPort p g).mas = s.mas := rfl
@[simp] theorem State.modPort_irc (p : Nat) (g : PortState → PortState) : (s.modPort p g).irc = s.irc := rfl
@[simp] theorem State.modPort_td (p : Nat) (g : PortState → PortState) : (s.modPort p g).td = s.td := rfl
@[simp] theorem State.modPort_tu (p : Nat) (g : PortState → PortState) : (s.modPort p g).tu = s.tu := rfl
@[simp] theorem State.modPort_hostArr (p : Nat) (g : PortState → PortState) : (s.modPort p g).hostArr = s.hostArr := rfl
@[simp] theorem State.modPort_events (p : Nat) (g : PortState → PortState) : (s.modPort p g).events = s.events := rfl
@[simp] theorem State.modPort_mdio (p : Nat) (g : PortState → PortState) : (s.modPort p g).mdio = s.mdio := rfl
@[simp] theorem State.modPort_dge (p : Nat) (g : PortState → PortState) : (s.modPort p g).dge = s.dge := rfl
@[simp] theorem State.modPort_crus (p : Nat) (g : PortState → PortState) : (s.modPort p g).crus = s.crus := rfl
@[simp] theorem State.modPort_hif (p : Nat) (g : PortState → PortState) : (s.modPort p g).hif = s.hif := rfl
@[simp] theorem State.modPort_ladder (p : Nat) (g : PortState → PortState) : (s.modPort p g).ladder = s.ladder := rfl
@[simp] theorem State.modPort_pm (p : Nat) (g : PortState → PortState) : (s.modPort p g).pm = s.pm := rfl
@[simp] theorem State.modPort_con (p : Nat) (g : PortState → PortState) : (s.modPort p g).con = s.con := rfl
@[simp] theorem State.modPort_boot (p : Nat) (g : PortState → PortState) : (s.modPort p g).boot = s.boot := rfl
@[simp] theorem State.modPort_pins (p : Nat) (g : PortState → PortState) : (s.modPort p g).pins = s.pins := rfl
@[simp] theorem State.modPort_cyc (p : Nat) (g : PortState → PortState) : (s.modPort p g).cyc = s.cyc := rfl

/-! ### State.emit -/

@[simp] theorem State.emit_pending (o : Sent) : (s.emit o).pending = s.pending := by cases o <;> rfl
@[simp] theorem State.emit_now (o : Sent) : (s.emit o).now = s.now := by cases o <;> rfl
@[simp] theorem State.emit_base0 (o : Sent) : (s.emit o).base0 = s.base0 := by cases o <;> rfl
@[simp] theorem State.emit_draws (o : Sent) : (s.emit o).draws = s.draws := by cases o <;> rfl
@[simp] theorem State.emit_regs (o : Sent) : (s.emit o).regs = s.regs := by cases o <;> rfl
@[simp] theorem State.emit_force (o : Sent) : (s.emit o).force = s.force := by cases o <;> rfl
@[simp] theorem State.emit_oldForce (o : Sent) : (s.emit o).oldForce = s.oldForce := by cases o <;> rfl
@[simp] theorem State.emit_kept (o : Sent) : (s.emit o).kept = s.kept := by cases o <;> rfl
@[simp] theorem State.emit_latches (o : Sent) : (s.emit o).latches = s.latches := by cases o <;> rfl
@[simp] theorem State.emit_led (o : Sent) : (s.emit o).led = s.led := by cases o <;> rfl
@[simp] theorem State.emit_buf (o : Sent) : (s.emit o).buf = s.buf := by cases o <;> rfl
@[simp] theorem State.emit_ports (o : Sent) : (s.emit o).ports = s.ports := by cases o <;> rfl
@[simp] theorem State.emit_frames (o : Sent) : (s.emit o).frames = s.frames := by cases o <;> rfl
@[simp] theorem State.emit_mas (o : Sent) : (s.emit o).mas = s.mas := by cases o <;> rfl
@[simp] theorem State.emit_irc (o : Sent) : (s.emit o).irc = s.irc := by cases o <;> rfl
@[simp] theorem State.emit_td (o : Sent) : (s.emit o).td = s.td := by cases o <;> rfl
@[simp] theorem State.emit_tu (o : Sent) : (s.emit o).tu = s.tu := by cases o <;> rfl
@[simp] theorem State.emit_hostArr (o : Sent) : (s.emit o).hostArr = s.hostArr := by cases o <;> rfl
@[simp] theorem State.emit_events (o : Sent) : (s.emit o).events = s.events := by cases o <;> rfl
@[simp] theorem State.emit_mdio (o : Sent) : (s.emit o).mdio = s.mdio := by cases o <;> rfl
@[simp] theorem State.emit_dge (o : Sent) : (s.emit o).dge = s.dge := by cases o <;> rfl
@[simp] theorem State.emit_crus (o : Sent) : (s.emit o).crus = s.crus := by cases o <;> rfl
@[simp] theorem State.emit_hif (o : Sent) : (s.emit o).hif = s.hif := by cases o <;> rfl
@[simp] theorem State.emit_ladder (o : Sent) : (s.emit o).ladder = s.ladder := by cases o <;> rfl
@[simp] theorem State.emit_pm (o : Sent) : (s.emit o).pm = s.pm := by cases o <;> rfl
@[simp] theorem State.emit_con (o : Sent) : (s.emit o).con = s.con := by cases o <;> rfl
@[simp] theorem State.emit_boot (o : Sent) : (s.emit o).boot = s.boot := by cases o <;> rfl
@[simp] theorem State.emit_pins (o : Sent) : (s.emit o).pins = s.pins := by cases o <;> rfl
@[simp] theorem State.emit_cyc (o : Sent) : (s.emit o).cyc = s.cyc := by cases o <;> rfl

/-! ### State.setLevel -/

@[simp] theorem State.setLevel_pending (f : Fld) (i : Nat) (w : Bool) : (s.setLevel f i w).pending = s.pending := by cases w <;> rfl
@[simp] theorem State.setLevel_now (f : Fld) (i : Nat) (w : Bool) : (s.setLevel f i w).now = s.now := by cases w <;> rfl
@[simp] theorem State.setLevel_base0 (f : Fld) (i : Nat) (w : Bool) : (s.setLevel f i w).base0 = s.base0 := by cases w <;> rfl
@[simp] theorem State.setLevel_draws (f : Fld) (i : Nat) (w : Bool) : (s.setLevel f i w).draws = s.draws := by cases w <;> rfl
@[simp] theorem State.setLevel_sent (f : Fld) (i : Nat) (w : Bool) : (s.setLevel f i w).sent = s.sent := by cases w <;> rfl
@[simp] theorem State.setLevel_force (f : Fld) (i : Nat) (w : Bool) : (s.setLevel f i w).force = s.force := by cases w <;> rfl
@[simp] theorem State.setLevel_oldForce (f : Fld) (i : Nat) (w : Bool) : (s.setLevel f i w).oldForce = s.oldForce := by cases w <;> rfl
@[simp] theorem State.setLevel_kept (f : Fld) (i : Nat) (w : Bool) : (s.setLevel f i w).kept = s.kept := by cases w <;> rfl
@[simp] theorem State.setLevel_latches (f : Fld) (i : Nat) (w : Bool) : (s.setLevel f i w).latches = s.latches := by cases w <;> rfl
@[simp] theorem State.setLevel_tick (f : Fld) (i : Nat) (w : Bool) : (s.setLevel f i w).tick = s.tick := by cases w <;> rfl
@[simp] theorem State.setLevel_led (f : Fld) (i : Nat) (w : Bool) : (s.setLevel f i w).led = s.led := by cases w <;> rfl
@[simp] theorem State.setLevel_buf (f : Fld) (i : Nat) (w : Bool) : (s.setLevel f i w).buf = s.buf := by cases w <;> rfl
@[simp] theorem State.setLevel_ports (f : Fld) (i : Nat) (w : Bool) : (s.setLevel f i w).ports = s.ports := by cases w <;> rfl
@[simp] theorem State.setLevel_frames (f : Fld) (i : Nat) (w : Bool) : (s.setLevel f i w).frames = s.frames := by cases w <;> rfl
@[simp] theorem State.setLevel_mas (f : Fld) (i : Nat) (w : Bool) : (s.setLevel f i w).mas = s.mas := by cases w <;> rfl
@[simp] theorem State.setLevel_td (f : Fld) (i : Nat) (w : Bool) : (s.setLevel f i w).td = s.td := by cases w <;> rfl
@[simp] theorem State.setLevel_tu (f : Fld) (i : Nat) (w : Bool) : (s.setLevel f i w).tu = s.tu := by cases w <;> rfl
@[simp] theorem State.setLevel_hostArr (f : Fld) (i : Nat) (w : Bool) : (s.setLevel f i w).hostArr = s.hostArr := by cases w <;> rfl
@[simp] theorem State.setLevel_events (f : Fld) (i : Nat) (w : Bool) : (s.setLevel f i w).events = s.events := by cases w <;> rfl
@[simp] theorem State.setLevel_mdio (f : Fld) (i : Nat) (w : Bool) : (s.setLevel f i w).mdio = s.mdio := by cases w <;> rfl
@[simp] theorem State.setLevel_dge (f : Fld) (i : Nat) (w : Bool) : (s.setLevel f i w).dge = s.dge := by cases w <;> rfl
@[simp] theorem State.setLevel_crus (f : Fld) (i : Nat) (w : Bool) : (s.setLevel f i w).crus = s.crus := by cases w <;> rfl
@[simp] theorem State.setLevel_hif (f : Fld) (i : Nat) (w : Bool) : (s.setLevel f i w).hif = s.hif := by cases w <;> rfl
@[simp] theorem State.setLevel_ladder (f : Fld) (i : Nat) (w : Bool) : (s.setLevel f i w).ladder = s.ladder := by cases w <;> rfl
@[simp] theorem State.setLevel_pm (f : Fld) (i : Nat) (w : Bool) : (s.setLevel f i w).pm = s.pm := by cases w <;> rfl
@[simp] theorem State.setLevel_con (f : Fld) (i : Nat) (w : Bool) : (s.setLevel f i w).con = s.con := by cases w <;> rfl
@[simp] theorem State.setLevel_boot (f : Fld) (i : Nat) (w : Bool) : (s.setLevel f i w).boot = s.boot := by cases w <;> rfl
@[simp] theorem State.setLevel_pins (f : Fld) (i : Nat) (w : Bool) : (s.setLevel f i w).pins = s.pins := by cases w <;> rfl

/-! ### State.setFlag -/

@[simp] theorem State.setFlag_pending (f : Fld) (i : Nat) : (s.setFlag f i).pending = s.pending := by simp [State.setFlag]
@[simp] theorem State.setFlag_now (f : Fld) (i : Nat) : (s.setFlag f i).now = s.now := by simp [State.setFlag]
@[simp] theorem State.setFlag_base0 (f : Fld) (i : Nat) : (s.setFlag f i).base0 = s.base0 := by simp [State.setFlag]
@[simp] theorem State.setFlag_draws (f : Fld) (i : Nat) : (s.setFlag f i).draws = s.draws := by simp [State.setFlag]
@[simp] theorem State.setFlag_sent (f : Fld) (i : Nat) : (s.setFlag f i).sent = s.sent := by simp [State.setFlag]
@[simp] theorem State.setFlag_force (f : Fld) (i : Nat) : (s.setFlag f i).force = s.force := by simp [State.setFlag]
@[simp] theorem State.setFlag_oldForce (f : Fld) (i : Nat) : (s.setFlag f i).oldForce = s.oldForce := by simp [State.setFlag]
@[simp] theorem State.setFlag_kept (f : Fld) (i : Nat) : (s.setFlag f i).kept = s.kept := by simp [State.setFlag]
@[simp] theorem State.setFlag_latches (f : Fld) (i : Nat) : (s.setFlag f i).latches = s.latches := by simp [State.setFlag]
@[simp] theorem State.setFlag_tick (f : Fld) (i : Nat) : (s.setFlag f i).tick = s.tick := by simp [State.setFlag]
@[simp] theorem State.setFlag_led (f : Fld) (i : Nat) : (s.setFlag f i).led = s.led := by simp [State.setFlag]
@[simp] theorem State.setFlag_buf (f : Fld) (i : Nat) : (s.setFlag f i).buf = s.buf := by simp [State.setFlag]
@[simp] theorem State.setFlag_ports (f : Fld) (i : Nat) : (s.setFlag f i).ports = s.ports := by simp [State.setFlag]
@[simp] theorem State.setFlag_frames (f : Fld) (i : Nat) : (s.setFlag f i).frames = s.frames := by simp [State.setFlag]
@[simp] theorem State.setFlag_mas (f : Fld) (i : Nat) : (s.setFlag f i).mas = s.mas := by simp [State.setFlag]
@[simp] theorem State.setFlag_td (f : Fld) (i : Nat) : (s.setFlag f i).td = s.td := by simp [State.setFlag]
@[simp] theorem State.setFlag_tu (f : Fld) (i : Nat) : (s.setFlag f i).tu = s.tu := by simp [State.setFlag]
@[simp] theorem State.setFlag_hostArr (f : Fld) (i : Nat) : (s.setFlag f i).hostArr = s.hostArr := by simp [State.setFlag]
@[simp] theorem State.setFlag_events (f : Fld) (i : Nat) : (s.setFlag f i).events = s.events := by simp [State.setFlag]
@[simp] theorem State.setFlag_mdio (f : Fld) (i : Nat) : (s.setFlag f i).mdio = s.mdio := by simp [State.setFlag]
@[simp] theorem State.setFlag_dge (f : Fld) (i : Nat) : (s.setFlag f i).dge = s.dge := by simp [State.setFlag]
@[simp] theorem State.setFlag_crus (f : Fld) (i : Nat) : (s.setFlag f i).crus = s.crus := by simp [State.setFlag]
@[simp] theorem State.setFlag_hif (f : Fld) (i : Nat) : (s.setFlag f i).hif = s.hif := by simp [State.setFlag]
@[simp] theorem State.setFlag_ladder (f : Fld) (i : Nat) : (s.setFlag f i).ladder = s.ladder := by simp [State.setFlag]
@[simp] theorem State.setFlag_pm (f : Fld) (i : Nat) : (s.setFlag f i).pm = s.pm := by simp [State.setFlag]
@[simp] theorem State.setFlag_con (f : Fld) (i : Nat) : (s.setFlag f i).con = s.con := by simp [State.setFlag]
@[simp] theorem State.setFlag_boot (f : Fld) (i : Nat) : (s.setFlag f i).boot = s.boot := by simp [State.setFlag]
@[simp] theorem State.setFlag_pins (f : Fld) (i : Nat) : (s.setFlag f i).pins = s.pins := by simp [State.setFlag]

/-! ### State.found -/

@[simp] theorem State.found_pending (g : Fld) (v : Nat) : (s.found g v).pending = s.pending := rfl
@[simp] theorem State.found_now (g : Fld) (v : Nat) : (s.found g v).now = s.now := rfl
@[simp] theorem State.found_base0 (g : Fld) (v : Nat) : (s.found g v).base0 = s.base0 := rfl
@[simp] theorem State.found_draws (g : Fld) (v : Nat) : (s.found g v).draws = s.draws := rfl
@[simp] theorem State.found_sent (g : Fld) (v : Nat) : (s.found g v).sent = s.sent := rfl
@[simp] theorem State.found_regs (g : Fld) (v : Nat) : (s.found g v).regs = s.regs := rfl
@[simp] theorem State.found_force (g : Fld) (v : Nat) : (s.found g v).force = s.force := rfl
@[simp] theorem State.found_oldForce (g : Fld) (v : Nat) : (s.found g v).oldForce = s.oldForce := rfl
@[simp] theorem State.found_kept (g : Fld) (v : Nat) : (s.found g v).kept = s.kept := rfl
@[simp] theorem State.found_latches (g : Fld) (v : Nat) : (s.found g v).latches = s.latches := rfl
@[simp] theorem State.found_tick (g : Fld) (v : Nat) : (s.found g v).tick = s.tick := rfl
@[simp] theorem State.found_led (g : Fld) (v : Nat) : (s.found g v).led = s.led := rfl
@[simp] theorem State.found_buf (g : Fld) (v : Nat) : (s.found g v).buf = s.buf := rfl
@[simp] theorem State.found_ports (g : Fld) (v : Nat) : (s.found g v).ports = s.ports := rfl
@[simp] theorem State.found_frames (g : Fld) (v : Nat) : (s.found g v).frames = s.frames := rfl
@[simp] theorem State.found_mas (g : Fld) (v : Nat) : (s.found g v).mas = s.mas := rfl
@[simp] theorem State.found_irc (g : Fld) (v : Nat) : (s.found g v).irc = s.irc := rfl
@[simp] theorem State.found_td (g : Fld) (v : Nat) : (s.found g v).td = s.td := rfl
@[simp] theorem State.found_tu (g : Fld) (v : Nat) : (s.found g v).tu = s.tu := rfl
@[simp] theorem State.found_hostArr (g : Fld) (v : Nat) : (s.found g v).hostArr = s.hostArr := rfl
@[simp] theorem State.found_events (g : Fld) (v : Nat) : (s.found g v).events = s.events := rfl
@[simp] theorem State.found_mdio (g : Fld) (v : Nat) : (s.found g v).mdio = s.mdio := rfl
@[simp] theorem State.found_dge (g : Fld) (v : Nat) : (s.found g v).dge = s.dge := rfl
@[simp] theorem State.found_crus (g : Fld) (v : Nat) : (s.found g v).crus = s.crus := rfl
@[simp] theorem State.found_hif (g : Fld) (v : Nat) : (s.found g v).hif = s.hif := rfl
@[simp] theorem State.found_ladder (g : Fld) (v : Nat) : (s.found g v).ladder = s.ladder := rfl
@[simp] theorem State.found_pm (g : Fld) (v : Nat) : (s.found g v).pm = s.pm := rfl
@[simp] theorem State.found_con (g : Fld) (v : Nat) : (s.found g v).con = s.con := rfl
@[simp] theorem State.found_boot (g : Fld) (v : Nat) : (s.found g v).boot = s.boot := rfl
@[simp] theorem State.found_pins (g : Fld) (v : Nat) : (s.found g v).pins = s.pins := rfl

/-! ### State.timeQueued -/

@[simp] theorem State.timeQueued_pending (k : Nat) : (s.timeQueued k).pending = s.pending := rfl
@[simp] theorem State.timeQueued_now (k : Nat) : (s.timeQueued k).now = s.now := rfl
@[simp] theorem State.timeQueued_base0 (k : Nat) : (s.timeQueued k).base0 = s.base0 := rfl
@[simp] theorem State.timeQueued_draws (k : Nat) : (s.timeQueued k).draws = s.draws := rfl
@[simp] theorem State.timeQueued_sent (k : Nat) : (s.timeQueued k).sent = s.sent := rfl
@[simp] theorem State.timeQueued_regs (k : Nat) : (s.timeQueued k).regs = s.regs := rfl
@[simp] theorem State.timeQueued_force (k : Nat) : (s.timeQueued k).force = s.force := rfl
@[simp] theorem State.timeQueued_oldForce (k : Nat) : (s.timeQueued k).oldForce = s.oldForce := rfl
@[simp] theorem State.timeQueued_kept (k : Nat) : (s.timeQueued k).kept = s.kept := rfl
@[simp] theorem State.timeQueued_latches (k : Nat) : (s.timeQueued k).latches = s.latches := rfl
@[simp] theorem State.timeQueued_tick (k : Nat) : (s.timeQueued k).tick = s.tick := rfl
@[simp] theorem State.timeQueued_led (k : Nat) : (s.timeQueued k).led = s.led := rfl
@[simp] theorem State.timeQueued_buf (k : Nat) : (s.timeQueued k).buf = s.buf := rfl
@[simp] theorem State.timeQueued_ports (k : Nat) : (s.timeQueued k).ports = s.ports := rfl
@[simp] theorem State.timeQueued_frames (k : Nat) : (s.timeQueued k).frames = s.frames := rfl
@[simp] theorem State.timeQueued_mas (k : Nat) : (s.timeQueued k).mas = s.mas := rfl
@[simp] theorem State.timeQueued_irc (k : Nat) : (s.timeQueued k).irc = s.irc := rfl
@[simp] theorem State.timeQueued_td (k : Nat) : (s.timeQueued k).td = s.td := rfl
@[simp] theorem State.timeQueued_tu (k : Nat) : (s.timeQueued k).tu = s.tu := rfl
@[simp] theorem State.timeQueued_hostArr (k : Nat) : (s.timeQueued k).hostArr = s.hostArr := rfl
@[simp] theorem State.timeQueued_events (k : Nat) : (s.timeQueued k).events = s.events := rfl
@[simp] theorem State.timeQueued_mdio (k : Nat) : (s.timeQueued k).mdio = s.mdio := rfl
@[simp] theorem State.timeQueued_dge (k : Nat) : (s.timeQueued k).dge = s.dge := rfl
@[simp] theorem State.timeQueued_crus (k : Nat) : (s.timeQueued k).crus = s.crus := rfl
@[simp] theorem State.timeQueued_hif (k : Nat) : (s.timeQueued k).hif = s.hif := rfl
@[simp] theorem State.timeQueued_ladder (k : Nat) : (s.timeQueued k).ladder = s.ladder := rfl
@[simp] theorem State.timeQueued_pm (k : Nat) : (s.timeQueued k).pm = s.pm := rfl
@[simp] theorem State.timeQueued_con (k : Nat) : (s.timeQueued k).con = s.con := rfl
@[simp] theorem State.timeQueued_boot (k : Nat) : (s.timeQueued k).boot = s.boot := rfl
@[simp] theorem State.timeQueued_pins (k : Nat) : (s.timeQueued k).pins = s.pins := rfl

/-! ### State.setPci -/

@[simp] theorem State.setPci_pending (n : Nat) (v : PciFn) : (s.setPci n v).pending = s.pending := rfl
@[simp] theorem State.setPci_now (n : Nat) (v : PciFn) : (s.setPci n v).now = s.now := rfl
@[simp] theorem State.setPci_base0 (n : Nat) (v : PciFn) : (s.setPci n v).base0 = s.base0 := rfl
@[simp] theorem State.setPci_draws (n : Nat) (v : PciFn) : (s.setPci n v).draws = s.draws := rfl
@[simp] theorem State.setPci_sent (n : Nat) (v : PciFn) : (s.setPci n v).sent = s.sent := rfl
@[simp] theorem State.setPci_regs (n : Nat) (v : PciFn) : (s.setPci n v).regs = s.regs := rfl
@[simp] theorem State.setPci_force (n : Nat) (v : PciFn) : (s.setPci n v).force = s.force := rfl
@[simp] theorem State.setPci_oldForce (n : Nat) (v : PciFn) : (s.setPci n v).oldForce = s.oldForce := rfl
@[simp] theorem State.setPci_kept (n : Nat) (v : PciFn) : (s.setPci n v).kept = s.kept := rfl
@[simp] theorem State.setPci_latches (n : Nat) (v : PciFn) : (s.setPci n v).latches = s.latches := rfl
@[simp] theorem State.setPci_tick (n : Nat) (v : PciFn) : (s.setPci n v).tick = s.tick := rfl
@[simp] theorem State.setPci_led (n : Nat) (v : PciFn) : (s.setPci n v).led = s.led := rfl
@[simp] theorem State.setPci_buf (n : Nat) (v : PciFn) : (s.setPci n v).buf = s.buf := rfl
@[simp] theorem State.setPci_ports (n : Nat) (v : PciFn) : (s.setPci n v).ports = s.ports := rfl
@[simp] theorem State.setPci_frames (n : Nat) (v : PciFn) : (s.setPci n v).frames = s.frames := rfl
@[simp] theorem State.setPci_mas (n : Nat) (v : PciFn) : (s.setPci n v).mas = s.mas := rfl
@[simp] theorem State.setPci_irc (n : Nat) (v : PciFn) : (s.setPci n v).irc = s.irc := rfl
@[simp] theorem State.setPci_td (n : Nat) (v : PciFn) : (s.setPci n v).td = s.td := rfl
@[simp] theorem State.setPci_tu (n : Nat) (v : PciFn) : (s.setPci n v).tu = s.tu := rfl
@[simp] theorem State.setPci_hostArr (n : Nat) (v : PciFn) : (s.setPci n v).hostArr = s.hostArr := rfl
@[simp] theorem State.setPci_events (n : Nat) (v : PciFn) : (s.setPci n v).events = s.events := rfl
@[simp] theorem State.setPci_mdio (n : Nat) (v : PciFn) : (s.setPci n v).mdio = s.mdio := rfl
@[simp] theorem State.setPci_dge (n : Nat) (v : PciFn) : (s.setPci n v).dge = s.dge := rfl
@[simp] theorem State.setPci_crus (n : Nat) (v : PciFn) : (s.setPci n v).crus = s.crus := rfl
@[simp] theorem State.setPci_ladder (n : Nat) (v : PciFn) : (s.setPci n v).ladder = s.ladder := rfl
@[simp] theorem State.setPci_pm (n : Nat) (v : PciFn) : (s.setPci n v).pm = s.pm := rfl
@[simp] theorem State.setPci_con (n : Nat) (v : PciFn) : (s.setPci n v).con = s.con := rfl
@[simp] theorem State.setPci_boot (n : Nat) (v : PciFn) : (s.setPci n v).boot = s.boot := rfl
@[simp] theorem State.setPci_pins (n : Nat) (v : PciFn) : (s.setPci n v).pins = s.pins := rfl
@[simp] theorem State.setPci_cyc (n : Nat) (v : PciFn) : (s.setPci n v).cyc = s.cyc := rfl

/-! ### State.aerLog -/

@[simp] theorem State.aerLog_pending (n i : Nat) : (s.aerLog n i).pending = s.pending := rfl
@[simp] theorem State.aerLog_now (n i : Nat) : (s.aerLog n i).now = s.now := rfl
@[simp] theorem State.aerLog_base0 (n i : Nat) : (s.aerLog n i).base0 = s.base0 := rfl
@[simp] theorem State.aerLog_draws (n i : Nat) : (s.aerLog n i).draws = s.draws := rfl
@[simp] theorem State.aerLog_sent (n i : Nat) : (s.aerLog n i).sent = s.sent := rfl
@[simp] theorem State.aerLog_regs (n i : Nat) : (s.aerLog n i).regs = s.regs := rfl
@[simp] theorem State.aerLog_force (n i : Nat) : (s.aerLog n i).force = s.force := rfl
@[simp] theorem State.aerLog_oldForce (n i : Nat) : (s.aerLog n i).oldForce = s.oldForce := rfl
@[simp] theorem State.aerLog_kept (n i : Nat) : (s.aerLog n i).kept = s.kept := rfl
@[simp] theorem State.aerLog_latches (n i : Nat) : (s.aerLog n i).latches = s.latches := rfl
@[simp] theorem State.aerLog_tick (n i : Nat) : (s.aerLog n i).tick = s.tick := rfl
@[simp] theorem State.aerLog_led (n i : Nat) : (s.aerLog n i).led = s.led := rfl
@[simp] theorem State.aerLog_buf (n i : Nat) : (s.aerLog n i).buf = s.buf := rfl
@[simp] theorem State.aerLog_ports (n i : Nat) : (s.aerLog n i).ports = s.ports := rfl
@[simp] theorem State.aerLog_frames (n i : Nat) : (s.aerLog n i).frames = s.frames := rfl
@[simp] theorem State.aerLog_mas (n i : Nat) : (s.aerLog n i).mas = s.mas := rfl
@[simp] theorem State.aerLog_irc (n i : Nat) : (s.aerLog n i).irc = s.irc := rfl
@[simp] theorem State.aerLog_td (n i : Nat) : (s.aerLog n i).td = s.td := rfl
@[simp] theorem State.aerLog_tu (n i : Nat) : (s.aerLog n i).tu = s.tu := rfl
@[simp] theorem State.aerLog_hostArr (n i : Nat) : (s.aerLog n i).hostArr = s.hostArr := rfl
@[simp] theorem State.aerLog_events (n i : Nat) : (s.aerLog n i).events = s.events := rfl
@[simp] theorem State.aerLog_mdio (n i : Nat) : (s.aerLog n i).mdio = s.mdio := rfl
@[simp] theorem State.aerLog_dge (n i : Nat) : (s.aerLog n i).dge = s.dge := rfl
@[simp] theorem State.aerLog_crus (n i : Nat) : (s.aerLog n i).crus = s.crus := rfl
@[simp] theorem State.aerLog_ladder (n i : Nat) : (s.aerLog n i).ladder = s.ladder := rfl
@[simp] theorem State.aerLog_pm (n i : Nat) : (s.aerLog n i).pm = s.pm := rfl
@[simp] theorem State.aerLog_con (n i : Nat) : (s.aerLog n i).con = s.con := rfl
@[simp] theorem State.aerLog_boot (n i : Nat) : (s.aerLog n i).boot = s.boot := rfl
@[simp] theorem State.aerLog_pins (n i : Nat) : (s.aerLog n i).pins = s.pins := rfl
@[simp] theorem State.aerLog_cyc (n i : Nat) : (s.aerLog n i).cyc = s.cyc := rfl

/-! ### State.log -/

@[simp] theorem State.log_pending (c n : Nat) : (s.log c n).pending = s.pending := rfl
@[simp] theorem State.log_now (c n : Nat) : (s.log c n).now = s.now := rfl
@[simp] theorem State.log_base0 (c n : Nat) : (s.log c n).base0 = s.base0 := rfl
@[simp] theorem State.log_draws (c n : Nat) : (s.log c n).draws = s.draws := rfl
@[simp] theorem State.log_sent (c n : Nat) : (s.log c n).sent = s.sent := rfl
@[simp] theorem State.log_force (c n : Nat) : (s.log c n).force = s.force := rfl
@[simp] theorem State.log_oldForce (c n : Nat) : (s.log c n).oldForce = s.oldForce := rfl
@[simp] theorem State.log_kept (c n : Nat) : (s.log c n).kept = s.kept := rfl
@[simp] theorem State.log_latches (c n : Nat) : (s.log c n).latches = s.latches := rfl
@[simp] theorem State.log_tick (c n : Nat) : (s.log c n).tick = s.tick := rfl
@[simp] theorem State.log_led (c n : Nat) : (s.log c n).led = s.led := rfl
@[simp] theorem State.log_buf (c n : Nat) : (s.log c n).buf = s.buf := rfl
@[simp] theorem State.log_ports (c n : Nat) : (s.log c n).ports = s.ports := rfl
@[simp] theorem State.log_frames (c n : Nat) : (s.log c n).frames = s.frames := rfl
@[simp] theorem State.log_mas (c n : Nat) : (s.log c n).mas = s.mas := rfl
@[simp] theorem State.log_td (c n : Nat) : (s.log c n).td = s.td := rfl
@[simp] theorem State.log_tu (c n : Nat) : (s.log c n).tu = s.tu := rfl
@[simp] theorem State.log_hostArr (c n : Nat) : (s.log c n).hostArr = s.hostArr := rfl
@[simp] theorem State.log_events (c n : Nat) : (s.log c n).events = s.events := rfl
@[simp] theorem State.log_mdio (c n : Nat) : (s.log c n).mdio = s.mdio := rfl
@[simp] theorem State.log_dge (c n : Nat) : (s.log c n).dge = s.dge := rfl
@[simp] theorem State.log_crus (c n : Nat) : (s.log c n).crus = s.crus := rfl
@[simp] theorem State.log_hif (c n : Nat) : (s.log c n).hif = s.hif := rfl
@[simp] theorem State.log_ladder (c n : Nat) : (s.log c n).ladder = s.ladder := rfl
@[simp] theorem State.log_pm (c n : Nat) : (s.log c n).pm = s.pm := rfl
@[simp] theorem State.log_con (c n : Nat) : (s.log c n).con = s.con := rfl
@[simp] theorem State.log_boot (c n : Nat) : (s.log c n).boot = s.boot := rfl
@[simp] theorem State.log_pins (c n : Nat) : (s.log c n).pins = s.pins := rfl

/-! ### A field read after a write -/

/-- A field written holds its value, cut to its width. -/
@[simp] theorem State.rd_wr (f : Fld) (v : Nat) : (s.wr f v).rd f = v % 2 ^ f.width := regGet_regPut_same s.regs f v

/-- A write leaves the other fields alone. -/
theorem State.rd_wr_other {f g : Fld} (h : Fld.key g ≠ Fld.key f) (v : Nat) : (s.wr f v).rd g = s.rd g := regGet_regPut_other s.regs h v

/-- A one-bit field set or cleared reads so. -/
@[simp] theorem State.bit_put (f : Fld) (b : Bool) (h : f.width = 1) : (s.put f b).bit f = b := by
  cases b <;> simp [State.put, State.bit, h]

/-- A bit set or cleared leaves the other fields alone. -/
theorem State.rd_put_other {f g : Fld} (h : Fld.key g ≠ Fld.key f) (b : Bool) : (s.put f b).rd g = s.rd g := s.rd_wr_other h _

/-- A counter adds and saturates (R10). -/
@[simp] theorem State.rd_add (f : Fld) (n : Nat) : (s.add f n).rd f = min (s.rd f + n) (2 ^ f.width - 1) := by
  have h : 0 < 2 ^ f.width := Nat.two_pow_pos _
  simp only [State.add, State.rd_wr]
  exact Nat.mod_eq_of_lt (by omega)

/-- A counter leaves the other fields alone. -/
theorem State.rd_add_other {f g : Fld} (h : Fld.key g ≠ Fld.key f) (n : Nat) : (s.add f n).rd g = s.rd g := s.rd_wr_other h _

@[simp] theorem State.rd_spend (f : Fld) (k n : Nat): (s.spend k n).rd f = s.rd f := by simp [State.rd]
@[simp] theorem State.rd_upTo (f : Fld) (t : Nat): (s.upTo t).rd f = s.rd f := by simp [State.rd]
@[simp] theorem State.rd_idle (f : Fld) : (s.idle).rd f = s.rd f := by simp [State.rd]
@[simp] theorem State.rd_setSrc (f : Fld) (i : Nat) (v : IrqSrc): (s.setSrc i v).rd f = s.rd f := by simp [State.rd]
@[simp] theorem State.rd_arrive (f : Fld) (i : Nat) (l : Bool): (s.arrive i l).rd f = s.rd f := by simp [State.rd]
@[simp] theorem State.rd_raise (f : Fld) (i : Nat): (s.raise i).rd f = s.rd f := by simp [State.rd]
@[simp] theorem State.rd_modPort (f : Fld) (p : Nat) (g : PortState → PortState) : (s.modPort p g).rd f = s.rd f := rfl
@[simp] theorem State.rd_emit (f : Fld) (o : Sent): (s.emit o).rd f = s.rd f := by simp [State.rd]
@[simp] theorem State.rd_found (f : Fld) (g : Fld) (v : Nat): (s.found g v).rd f = s.rd f := by simp [State.rd]
@[simp] theorem State.rd_timeQueued (f : Fld) (k : Nat): (s.timeQueued k).rd f = s.rd f := by simp [State.rd]
@[simp] theorem State.rd_setPci (f : Fld) (n : Nat) (v : PciFn): (s.setPci n v).rd f = s.rd f := by simp [State.rd]
@[simp] theorem State.rd_aerLog (f : Fld) (n i : Nat): (s.aerLog n i).rd f = s.rd f := by simp [State.rd]

/-- A field read after an event was logged: only EVLOG_LOST may have changed. -/
theorem State.rd_log (c n : Nat) {f : Fld} (h : Fld.key f ≠ Fld.key R.EVLOG_LOST) : (s.log c n).rd f = s.rd f := by
  have hl : s.logLost.regs = s.regs := by unfold State.logLost; split <;> rfl
  change regGet (s.logNow c n).regs f = regGet s.regs f
  rw [← hl]
  unfold State.logNow
  simp only []
  generalize s.logLost = u
  generalize (if u.needsMark = true then [u.markEntry] else []) = ms
  split
  · exact State.rd_add_other _ h 1
  · split <;> rfl

/-- What a list of updates keeps, their fold keeps. -/
theorem foldl_keeps {β : Type} (P : State → Prop) (g : State → β → State) (l : List β) (h : ∀ s x, P s → P (g s x)) :
    ∀ s, P s → P (l.foldl g s) := by
  induction l with
  | nil => exact fun s hs => hs
  | cons a t ih => exact fun s hs => ih _ (h s a hs)

/-- A field of the state that a list of updates leaves alone, their fold leaves alone. -/
theorem foldl_same {β γ : Type} (p : State → γ) (g : State → β → State) (l : List β) (h : ∀ s x, p (g s x) = p s) (s : State) :
    p (l.foldl g s) = p s := by
  induction l generalizing s with
  | nil => rfl
  | cons a t ih => rw [List.foldl_cons, ih, h]

end Sys2Proof.Machine
end

