-- ==== Sys2Proof/Laws/Ops.lean ====
section
/-! SUPPORT. One lemma for what each shared operation does: lists and ports, the places of a frame in arrival, interrupt sources, latches,
outputs, rejected writes, the event log, and the console's verbs; and that they keep the sound form of the state. -/

namespace Sys2Proof.Machine

/-! ### Lists -/

@[simp] theorem length_lmod {α : Type} (l : List α) (i : Nat) (g : α → α) : (lmod l i g).length = l.length := by
  induction l generalizing i with
  | nil => rfl
  | cons x t ih => cases i <;> simp [lmod, ih]

/-- The element changed. -/
theorem getElem?_lmod_same {α : Type} (l : List α) (i : Nat) (g : α → α) : (lmod l i g)[i]? = l[i]?.map g := by
  induction l generalizing i with
  | nil => simp [lmod]
  | cons x t ih => cases i <;> simp [lmod, ih]

/-- The other elements. -/
theorem getElem?_lmod_other {α : Type} (l : List α) {i j : Nat} (h : j ≠ i) (g : α → α) : (lmod l i g)[j]? = l[j]? := by
  induction l generalizing i j with
  | nil => simp [lmod]
  | cons x t ih =>
    cases i with
    | zero => cases j with
      | zero => exact absurd rfl h
      | succ j => rfl
    | succ i => cases j with
      | zero => rfl
      | succ j => simpa [lmod] using ih (fun e => h (by rw [e]))

/-- What holds of every element and of the changed one holds of every element of the changed list. -/
theorem forall_mem_lmod {α : Type} {P : α → Prop} {l : List α} (i : Nat) {g : α → α} (h : ∀ x ∈ l, P x) (hg : ∀ x, P x → P (g x)) :
    ∀ x ∈ lmod l i g, P x := by
  induction l generalizing i with
  | nil => simp [lmod]
  | cons y t ih =>
    cases i with
    | zero =>
      intro x hx
      rcases List.mem_cons.mp hx with rfl | hx
      · exact hg y (h y (by simp))
      · exact h x (by simp [hx])
    | succ i =>
      intro x hx
      rcases List.mem_cons.mp hx with rfl | hx
      · exact h _ (by simp)
      · exact ih i (fun z hz => h z (by simp [hz])) x hx

/-! ### Ports and frames in arrival -/

/-- The port changed. -/
theorem State.port_modPort_same (s : State) {p : Nat} (h : p < s.ports.length) (g : PortState → PortState) :
    (s.modPort p g).port p = g (s.port p) := by
  simp only [State.port, State.modPort, List.getD_eq_getElem?_getD, getElem?_lmod_same]
  simp [List.getElem?_eq_getElem h]

/-- The other ports. -/
theorem State.port_modPort_other (s : State) {p q : Nat} (h : q ≠ p) (g : PortState → PortState) :
    (s.modPort p g).port q = s.port q := by
  simp only [State.port, State.modPort, List.getD_eq_getElem?_getD, getElem?_lmod_other _ h]

/-- A frame placed in arrival on a host path stands there. -/
@[simp] theorem State.arr_setArr_host (s : State) (f : Func) (r : TxRing) (v : Option Arrival) : (s.setArr (.host f r) v).arr (.host f r) = v := by
  cases v <;> simp [State.arr, State.setArr]

/-- A frame placed in arrival on a port stands there. -/
theorem State.arr_setArr_rx (s : State) (p : Port) (e : Bool) (v : Option Arrival) (h : p.val < s.ports.length) :
    (s.setArr (.rx p e) v).arr (.rx p e) = v := by
  cases e <;> simp [State.arr, State.setArr, s.port_modPort_same h]

/-- Placing a frame in arrival changes ports and host paths alone. -/
theorem State.setArr_frame (s : State) (a : Arr) (v : Option Arrival) :
    s.setArr a v = { s with ports := (s.setArr a v).ports, hostArr := (s.setArr a v).hostArr } := by
  cases a with
  | rx p e => cases e <;> rfl
  | host f r => rfl

/-! ### Interrupt sources (R460 to R463) -/

/-- The source changed. -/
@[simp] theorem State.src_setSrc_same (s : State) (i : Nat) (v : IrqSrc) : (s.setSrc i v).src i = v := by
  simp only [State.src, State.setSrc, mgetD]
  split <;> simp_all

/-- The other sources. -/
theorem State.src_setSrc_other (s : State) {i j : Nat} (h : j ≠ i) (v : IrqSrc) : (s.setSrc i v).src j = s.src j := by
  simp only [State.src, State.setSrc, mgetD]
  split
  · rw [mget_mdel_other _ h]
  · rw [mget_mput_other _ h]

/-- An event latches its source and counts once (R461, R462). -/
@[simp] theorem State.src_raise_same (s : State) (i : Nat) :
    (s.raise i).src i = { s.src i with latch := true, cnt := min ((s.src i).cnt + 1) 255 } := by
  have h : (s.raise i).src i = (s.setSrc i { s.src i with latch := (s.src i).latch || true, cnt := min ((s.src i).cnt + 1) 255 }).src i := rfl
  simp [h]

/-- An event leaves the other sources alone. -/
theorem State.src_raise_other (s : State) {i j : Nat} (h : j ≠ i) : (s.raise i).src j = s.src j :=
  s.src_setSrc_other h _

/-- Changing a source keeps the sources in order. -/
theorem State.mwf_setSrc (s : State) (i : Nat) (v : IrqSrc) (h : mwf s.irc.src = true) : mwf (s.setSrc i v).irc.src = true := by
  simp only [State.setSrc]
  split <;> simp [h]

/-- An arrival keeps the sources in order. -/
theorem State.mwf_arrive (s : State) (i : Nat) (l : Bool) (h : mwf s.irc.src = true) : mwf (s.arrive i l).irc.src = true :=
  s.mwf_setSrc i _ h

/-! ### Latches (R617) -/

/-- A latch written reads so. -/
@[simp] theorem State.latch_setLatch_same (s : State) (r : Reader) (f : Fld) (v : Nat) : (s.setLatch r f v).latch r f = v := by
  simp only [State.latch, State.setLatch, mgetD]
  split <;> simp_all

theorem readerNum_lt (r : Reader) : readerNum r < 18 := by
  cases r with
  | owner => simp [readerNum]
  | mgc => simp [readerNum]
  | tenant n => simp only [readerNum]; omega

theorem readerNum_ne {r q : Reader} (h : r ≠ q) : readerNum r ≠ readerNum q := by
  cases r with
  | owner => cases q with
    | owner => exact absurd rfl h
    | mgc => simp [readerNum]
    | tenant m => simp only [readerNum]; omega
  | mgc => cases q with
    | owner => simp [readerNum]
    | mgc => exact absurd rfl h
    | tenant m => simp only [readerNum]; omega
  | tenant n => cases q with
    | owner => simp only [readerNum]; omega
    | mgc => simp only [readerNum]; omega
    | tenant m => exact fun e => h (by rw [Fin.ext e])

/-- Another reader's latches. -/
theorem State.latch_setLatch_reader (s : State) {r q : Reader} (h : r ≠ q) (f g : Fld) (v : Nat) : (s.setLatch q g v).latch r f = s.latch r f := by
  have h1 := readerNum_lt r
  have h2 := readerNum_lt q
  have h3 := readerNum_ne h
  have hk : f.off * 32 + readerNum r ≠ g.off * 32 + readerNum q := by omega
  simp only [State.latch, State.setLatch, mgetD]
  split
  · rw [mget_mdel_other _ hk]
  · rw [mget_mput_other _ hk]

/-- The latches of other registers. -/
theorem State.latch_setLatch_off (s : State) (r q : Reader) {f g : Fld} (h : f.off ≠ g.off) (v : Nat) :
    (s.setLatch q g v).latch r f = s.latch r f := by
  have h1 := readerNum_lt r
  have h2 := readerNum_lt q
  have hk : f.off * 32 + readerNum r ≠ g.off * 32 + readerNum q := by omega
  simp only [State.latch, State.setLatch, mgetD]
  split
  · rw [mget_mdel_other _ hk]
  · rw [mget_mput_other _ hk]

/-- Writing a reader's latch keeps the other readers' latches. -/
theorem State.setLatch_latchesBut (s : State) (r : Reader) (f : Fld) (v : Nat) : s.LatchesBut (s.setLatch r f v) r :=
  fun _ _ h => s.latch_setLatch_reader h _ _ _

theorem State.LatchesBut.trans {s t u : State} {r : Reader} (h : s.LatchesBut t r) (k : t.LatchesBut u r) : s.LatchesBut u r :=
  fun q f hq => (k q f hq).trans (h q f hq)

/-! ### Registers but some -/

theorem State.RegsBut.refl (s : State) (l : List Fld) : s.RegsBut s l := fun _ _ => rfl

theorem State.RegsBut.trans {s t u : State} {l : List Fld} (h : s.RegsBut t l) (k : t.RegsBut u l) : s.RegsBut u l :=
  fun f hf => (k f hf).trans (h f hf)

/-- A field not listed has another key than a listed one. -/
theorem key_ne_of_all {f g : Fld} {l : List Fld} (h : (l.all fun g => Fld.key f != Fld.key g) = true) (hg : g ∈ l) : Fld.key f ≠ Fld.key g := by
  have := List.all_eq_true.mp h g hg
  simpa using this

/-- A write of a listed field. -/
theorem State.RegsBut.wr (s : State) {f : Fld} {l : List Fld} (h : f ∈ l) (v : Nat) : s.RegsBut (s.wr f v) l :=
  fun _ hg => s.rd_wr_other (key_ne_of_all hg h) v

/-- An event logged, where EVLOG_LOST is listed. -/
theorem State.RegsBut.log (s : State) {l : List Fld} (h : R.EVLOG_LOST ∈ l) (c n : Nat) : s.RegsBut (s.log c n) l :=
  fun _ hg => s.rd_log c n (key_ne_of_all hg h)

/-- A counter counts. -/
theorem State.Counts.inc (s : State) (f : Fld) : s.Counts (s.inc f) f := s.rd_add f 1

/-- What is logged changes IRC, the register file and the record of the running cycle alone. -/
theorem State.log_frame (s : State) (c n : Nat) :
    s.log c n = { s with regs := (s.log c n).regs, irc := (s.log c n).irc, cyc := (s.log c n).cyc } := rfl

/-- A write rejected (R624): the flag, its cause, the offset and the count, and nothing else. -/
theorem State.reject_frame (s : State) (off why : Nat) : s.reject off why = { s with regs := (s.reject off why).regs } := rfl

theorem State.reject_regsBut (s : State) (off why : Nat) :
    s.RegsBut (s.reject off why) [R.REJ_STAT_CFG_REJECT, R.REJ_STAT_WHY, R.CFG_REJECT_ADDR, R.CFG_REJECT_CNT] :=
  (((State.RegsBut.wr s (f := R.REJ_STAT_CFG_REJECT) (by simp) 1).trans
    (State.RegsBut.wr _ (f := R.REJ_STAT_WHY) (by simp) why)).trans
    (State.RegsBut.wr _ (f := R.CFG_REJECT_ADDR) (by simp) off)).trans
    (State.RegsBut.wr _ (f := R.CFG_REJECT_CNT) (by simp) _)

/-! ### The sound form -/

/-- Writing a register keeps the canonical form. -/
theorem State.Canonical.wr {s : State} (h : s.Canonical) (f : Fld) (v : Nat) : (s.wr f v).Canonical :=
  ⟨mwf_regPut _ _ _ h.1, h.2.1, h.2.2⟩

/-- An update that leaves both register files alone keeps the canonical form. -/
theorem State.Canonical.of_eq {s t : State} (h : s.Canonical) (hr : t.regs = s.regs) (hf : t.force = s.force) : t.Canonical := by
  unfold State.Canonical
  rw [hr, hf]
  exact h

/-- The operations on fields are writes. -/
theorem State.Canonical.put {s : State} (h : s.Canonical) (f : Fld) (b : Bool) : (s.put f b).Canonical := h.wr f _
theorem State.Canonical.inc {s : State} (h : s.Canonical) (f : Fld) : (s.inc f).Canonical := h.wr f _
theorem State.Canonical.putAt {s : State} (h : s.Canonical) (f : Fld) (i : Nat) (b : Bool) : (s.putAt f i b).Canonical := h.wr f _
theorem State.Canonical.reject {s : State} (h : s.Canonical) (off why : Nat) : (s.reject off why).Canonical :=
  (((h.put _ _).wr _ _).wr _ _).inc _
theorem State.Canonical.setSrc {s : State} (h : s.Canonical) (i : Nat) (v : IrqSrc) : (s.setSrc i v).Canonical := h.of_eq rfl rfl
theorem State.Canonical.arrive {s : State} (h : s.Canonical) (i : Nat) (l : Bool) : (s.arrive i l).Canonical := h.of_eq rfl rfl
theorem State.Canonical.emit {s : State} (h : s.Canonical) (o : Sent) : (s.emit o).Canonical := h.of_eq (by simp) (by simp)
theorem State.Canonical.upTo {s : State} (h : s.Canonical) (t : Nat) : (s.upTo t).Canonical := h.of_eq rfl rfl
theorem State.Canonical.setLevel {s : State} (h : s.Canonical) (f : Fld) (i : Nat) (was : Bool) : (s.setLevel f i was).Canonical := by
  unfold State.setLevel
  split
  · exact h.wr f 1
  · exact (h.wr f 1).arrive i false

/-- Logging an event keeps the canonical form. -/
theorem State.Canonical.log {s : State} (h : s.Canonical) (c n : Nat) : (s.log c n).Canonical := by
  have hl : s.logLost.regs = s.regs := by unfold State.logLost; split <;> rfl
  refine ⟨?_, h.2.1, h.2.2⟩
  change mwf (s.logNow c n).regs = true
  have h0 : mwf s.logLost.regs = true := hl ▸ h.1
  unfold State.logNow
  simp only []
  generalize s.logLost = u at *
  generalize (if u.needsMark = true then [u.markEntry] else []) = ms
  split
  · exact mwf_regPut _ _ _ h0
  · split <;> exact h0

/-! ### The console's verbs -/

/-- Taking a sequence number writes NET_LAST_SEQ of the line's port and nothing else (R514). -/
theorem State.netTakes_frame (s : State) (x : ConLine) : s.netTakes x = { s with regs := (s.netTakes x).regs } := by
  unfold State.netTakes
  split
  · split <;> rfl
  · rfl

/-- A field that is no NET_LAST_SEQ. -/
theorem State.rd_netTakes (s : State) (x : ConLine) {f : Fld} (h : ∀ p : Port, Fld.key f ≠ Fld.key (R.NET_LAST_SEQ p)) :
    (s.netTakes x).rd f = s.rd f := by
  unfold State.netTakes
  split
  · split
    · rename_i n _ _ hx
      exact s.rd_wr_other (h ⟨x.ch - 2, by omega⟩) _
    · rfl
  · rfl

/-- The fields that decide whether a verb is refused are not NET_LAST_SEQ. -/
theorem State.verbRefused_netTakes (s : State) (x : ConLine) (ch : Nat) (v : ConVerb) :
    (s.netTakes x).verbRefused ch v = s.verbRefused ch v := by
  have k1 := s.rd_netTakes x (f := R.CON_CFG_UART_MODE) (by decide)
  have k2 := s.rd_netTakes x (f := R.BOOT_STAT_RECOVERY) (by decide)
  have k3 := s.rd_netTakes x (f := R.FLT_STAT_ECLIPSE) (by decide)
  unfold State.verbRefused State.bit
  rw [k1, k2, k3]

/-- A line that is served runs its verb, once its sequence has been taken. -/
theorem State.conVerb_of_serves {s : State} {ch : Channel} {v : ConVerb} {x : ConLine} {q : Option Nat} {a : List Tok}
    (h : s.Serves ch v x q a) (run : State → ConLine → List Tok → State) : s.conVerb ch v run = run (s.netTakes x) x a := by
  obtain ⟨h1, h2, h3, h4, h5⟩ := h
  have hr := (s.verbRefused_netTakes x x.ch v).trans h5
  unfold State.conVerb
  cases hl : s.con.lines with
  | nil => simp [hl] at h1
  | cons y t =>
    have e : y = x := by simpa [hl] using h1
    subst e
    simp only [h2, h4, hr]
    simp [h3]

end Sys2Proof.Machine
end

