-- ==== Sys2Proof/WellFormed.lean ====
section
/-! DEFINITION. Which commands the world outside can send: what an operand's type does not already bound. -/

namespace Sys2Proof

/-- A request for a dword at an offset and n more after it: aligned, inside the function's BAR (R336, R337) or its configuration space,
which stands at 0x400000, and within 4 KiB, as PCI Express requires (PRESUMED, log entry 14). -/
def request (f : Func) (off n : Nat) : Bool :=
  decide (off % 4 = 0 ∧ off / 4096 = (off + 4 * n) / 4096)
    && (decide (off < (if f = 16 then 0x400000 else 0x10000)) || decide (0x400000 ≤ off ∧ off < 0x401000))

/-- The command is one that its sender can make. -/
def Instr.wf : Instr → Bool
  | .rxFrameStart _ _ bytes => decide (18 ≤ bytes.length ∧ bytes.length ≤ 16384)
  | .txDescArrival _ _ d => decide (d.length = 32)
  | .rxDescPrefetch _ _ d => decide (d.length = 32)
  | .hostReadCompletion _ _ b e => decide ((e = .data → 1 ≤ b.length) ∧ b.length ≤ 256)
  | .cellRead _ f => decide (f.unc.length = 5)
  | .bufScrubRead f _ => decide (f.unc.length = 5)
  | .registerWrite f off _ _ more => request f off more.length
  | .rcFieldRead who off _ more => request (match who with
    | .tenant n => n.castSucc
    | _ => 16) off more.length
  | .wakePatternMatch _ b => decide (64 ≤ b.length ∧ b.length ≤ 16384)
  | _ => true

end Sys2Proof
end

