-- ==== Sys2Proof/Laws/PerInstr.lean ====
section
/-! SUPPORT. The family Carried: a well-formed command carries at most 16 384 bytes over a port or the host link. One lemma per command. -/

namespace Sys2Proof.Laws

/-- The bytes that a command brings over a port or the host link. -/
def carriedBytes : Instr → List Byte
  | .rxFrameStart _ _ b => b
  | .txDescArrival _ _ d => d
  | .rxDescPrefetch _ _ d => d
  | .hostReadCompletion _ _ b _ => b
  | .wakePatternMatch _ b => b
  | _ => []

/-- A well-formed command carries at most 16 384 bytes. -/
def Carried.Statement (i : Instr) : Prop := i.wf = true → (carriedBytes i).length ≤ 16384

/-- A command without bytes. -/
theorem Carried.of_empty {i : Instr} (h : carriedBytes i = []) : Carried.Statement i := fun _ => by simp [h]

theorem Carried.rxFrameStart (p : Port) (express : Bool) (bytes : List Byte) : Carried.Statement (.rxFrameStart p express bytes) := by
  intro h
  simp only [Instr.wf, decide_eq_true_eq] at h
  simp only [carriedBytes]
  omega
theorem Carried.addressFilter (p : Port) (express : Bool) : Carried.Statement (.addressFilter p express) := Carried.of_empty rfl
theorem Carried.cellTaken (a : Arr) : Carried.Statement (.cellTaken a) := Carried.of_empty rfl
theorem Carried.foldDecision (a : Arr) : Carried.Statement (.foldDecision a) := Carried.of_empty rfl
theorem Carried.classification (a : Arr) (steps : Nat) : Carried.Statement (.classification a steps) := Carried.of_empty rfl
theorem Carried.rxLastByte (p : Port) (express : Bool) (frags : List Fragment) : Carried.Statement (.rxLastByte p express frags) := Carried.of_empty rfl
theorem Carried.resolution (handle : Nat) (steps : Nat) : Carried.Statement (.resolution handle steps) := Carried.of_empty rfl
theorem Carried.resolutionResume (lane : Lane) (handle : Nat) (steps : Nat) : Carried.Statement (.resolutionResume lane handle steps) := Carried.of_empty rfl
theorem Carried.hacEnd (at_ : HacAt) (f1 f2 : BitVec 4) (f3 f4 : BitVec 8) (imm : BitVec 32) : Carried.Statement (.hacEnd at_ f1 f2 f3 f4 imm) := Carried.of_empty rfl
theorem Carried.hacClose (at_ : HacAt) (f1 f2 : BitVec 4) (f3 f4 : BitVec 8) (imm : BitVec 32) : Carried.Statement (.hacClose at_ f1 f2 f3 f4 imm) := Carried.of_empty rfl
theorem Carried.hacTrap (at_ : HacAt) (f1 f2 : BitVec 4) (f3 f4 : BitVec 8) (imm : BitVec 32) : Carried.Statement (.hacTrap at_ f1 f2 f3 f4 imm) := Carried.of_empty rfl
theorem Carried.hacBr (at_ : HacAt) (f1 f2 : BitVec 4) (f3 f4 : BitVec 8) (imm : BitVec 32) : Carried.Statement (.hacBr at_ f1 f2 f3 f4 imm) := Carried.of_empty rfl
theorem Carried.hacLdi (at_ : HacAt) (f1 f2 : BitVec 4) (f3 f4 : BitVec 8) (imm : BitVec 32) : Carried.Statement (.hacLdi at_ f1 f2 f3 f4 imm) := Carried.of_empty rfl
theorem Carried.hacLdih (at_ : HacAt) (f1 f2 : BitVec 4) (f3 f4 : BitVec 8) (imm : BitVec 32) : Carried.Statement (.hacLdih at_ f1 f2 f3 f4 imm) := Carried.of_empty rfl
theorem Carried.hacLdb (at_ : HacAt) (f1 f2 : BitVec 4) (f3 f4 : BitVec 8) (imm : BitVec 32) : Carried.Statement (.hacLdb at_ f1 f2 f3 f4 imm) := Carried.of_empty rfl
theorem Carried.hacStb (at_ : HacAt) (f1 f2 : BitVec 4) (f3 f4 : BitVec 8) (imm : BitVec 32) : Carried.Statement (.hacStb at_ f1 f2 f3 f4 imm) := Carried.of_empty rfl
theorem Carried.hacMovb (at_ : HacAt) (f1 f2 : BitVec 4) (f3 f4 : BitVec 8) (imm : BitVec 32) : Carried.Statement (.hacMovb at_ f1 f2 f3 f4 imm) := Carried.of_empty rfl
theorem Carried.hacCmpb (at_ : HacAt) (f1 f2 : BitVec 4) (f3 f4 : BitVec 8) (imm : BitVec 32) : Carried.Statement (.hacCmpb at_ f1 f2 f3 f4 imm) := Carried.of_empty rfl
theorem Carried.hacAdd (at_ : HacAt) (f1 f2 : BitVec 4) (f3 f4 : BitVec 8) (imm : BitVec 32) : Carried.Statement (.hacAdd at_ f1 f2 f3 f4 imm) := Carried.of_empty rfl
theorem Carried.hacSub (at_ : HacAt) (f1 f2 : BitVec 4) (f3 f4 : BitVec 8) (imm : BitVec 32) : Carried.Statement (.hacSub at_ f1 f2 f3 f4 imm) := Carried.of_empty rfl
theorem Carried.hacAnd (at_ : HacAt) (f1 f2 : BitVec 4) (f3 f4 : BitVec 8) (imm : BitVec 32) : Carried.Statement (.hacAnd at_ f1 f2 f3 f4 imm) := Carried.of_empty rfl
theorem Carried.hacOr (at_ : HacAt) (f1 f2 : BitVec 4) (f3 f4 : BitVec 8) (imm : BitVec 32) : Carried.Statement (.hacOr at_ f1 f2 f3 f4 imm) := Carried.of_empty rfl
theorem Carried.hacXor (at_ : HacAt) (f1 f2 : BitVec 4) (f3 f4 : BitVec 8) (imm : BitVec 32) : Carried.Statement (.hacXor at_ f1 f2 f3 f4 imm) := Carried.of_empty rfl
theorem Carried.hacShl (at_ : HacAt) (f1 f2 : BitVec 4) (f3 f4 : BitVec 8) (imm : BitVec 32) : Carried.Statement (.hacShl at_ f1 f2 f3 f4 imm) := Carried.of_empty rfl
theorem Carried.hacShr (at_ : HacAt) (f1 f2 : BitVec 4) (f3 f4 : BitVec 8) (imm : BitVec 32) : Carried.Statement (.hacShr at_ f1 f2 f3 f4 imm) := Carried.of_empty rfl
theorem Carried.hacCmp (at_ : HacAt) (f1 f2 : BitVec 4) (f3 f4 : BitVec 8) (imm : BitVec 32) : Carried.Statement (.hacCmp at_ f1 f2 f3 f4 imm) := Carried.of_empty rfl
theorem Carried.hacMov (at_ : HacAt) (f1 f2 : BitVec 4) (f3 f4 : BitVec 8) (imm : BitVec 32) : Carried.Statement (.hacMov at_ f1 f2 f3 f4 imm) := Carried.of_empty rfl
theorem Carried.hacLkx (at_ : HacAt) (f1 f2 : BitVec 4) (f3 f4 : BitVec 8) (imm : BitVec 32) : Carried.Statement (.hacLkx at_ f1 f2 f3 f4 imm) := Carried.of_empty rfl
theorem Carried.hacLkt (at_ : HacAt) (f1 f2 : BitVec 4) (f3 f4 : BitVec 8) (imm : BitVec 32) : Carried.Statement (.hacLkt at_ f1 f2 f3 f4 imm) := Carried.of_empty rfl
theorem Carried.hacSpc (at_ : HacAt) (f1 f2 : BitVec 4) (f3 f4 : BitVec 8) (imm : BitVec 32) : Carried.Statement (.hacSpc at_ f1 f2 f3 f4 imm) := Carried.of_empty rfl
theorem Carried.hacFlow (at_ : HacAt) (f1 f2 : BitVec 4) (f3 f4 : BitVec 8) (imm : BitVec 32) : Carried.Statement (.hacFlow at_ f1 f2 f3 f4 imm) := Carried.of_empty rfl
theorem Carried.hacExit (at_ : HacAt) (f1 f2 : BitVec 4) (f3 f4 : BitVec 8) (imm : BitVec 32) : Carried.Statement (.hacExit at_ f1 f2 f3 f4 imm) := Carried.of_empty rfl
theorem Carried.hacFwdx (at_ : HacAt) (f1 f2 : BitVec 4) (f3 f4 : BitVec 8) (imm : BitVec 32) : Carried.Statement (.hacFwdx at_ f1 f2 f3 f4 imm) := Carried.of_empty rfl
theorem Carried.hacTele (at_ : HacAt) (f1 f2 : BitVec 4) (f3 f4 : BitVec 8) (imm : BitVec 32) : Carried.Statement (.hacTele at_ f1 f2 f3 f4 imm) := Carried.of_empty rfl
theorem Carried.hacExed (at_ : HacAt) (f1 f2 : BitVec 4) (f3 f4 : BitVec 8) (imm : BitVec 32) : Carried.Statement (.hacExed at_ f1 f2 f3 f4 imm) := Carried.of_empty rfl
theorem Carried.hacDisp (at_ : HacAt) (f1 f2 : BitVec 4) (f3 f4 : BitVec 8) (imm : BitVec 32) : Carried.Statement (.hacDisp at_ f1 f2 f3 f4 imm) := Carried.of_empty rfl
theorem Carried.hacPatch (at_ : HacAt) (f1 f2 : BitVec 4) (f3 f4 : BitVec 8) (imm : BitVec 32) : Carried.Statement (.hacPatch at_ f1 f2 f3 f4 imm) := Carried.of_empty rfl
theorem Carried.hacRec (at_ : HacAt) (f1 f2 : BitVec 4) (f3 f4 : BitVec 8) (imm : BitVec 32) : Carried.Statement (.hacRec at_ f1 f2 f3 f4 imm) := Carried.of_empty rfl
theorem Carried.hacPol (at_ : HacAt) (f1 f2 : BitVec 4) (f3 f4 : BitVec 8) (imm : BitVec 32) : Carried.Statement (.hacPol at_ f1 f2 f3 f4 imm) := Carried.of_empty rfl
theorem Carried.hacCnt (at_ : HacAt) (f1 f2 : BitVec 4) (f3 f4 : BitVec 8) (imm : BitVec 32) : Carried.Statement (.hacCnt at_ f1 f2 f3 f4 imm) := Carried.of_empty rfl
theorem Carried.hacCrc (at_ : HacAt) (f1 f2 : BitVec 4) (f3 f4 : BitVec 8) (imm : BitVec 32) : Carried.Statement (.hacCrc at_ f1 f2 f3 f4 imm) := Carried.of_empty rfl
theorem Carried.hacDig (at_ : HacAt) (f1 f2 : BitVec 4) (f3 f4 : BitVec 8) (imm : BitVec 32) : Carried.Statement (.hacDig at_ f1 f2 f3 f4 imm) := Carried.of_empty rfl
theorem Carried.hacWait (at_ : HacAt) (f1 f2 : BitVec 4) (f3 f4 : BitVec 8) (imm : BitVec 32) : Carried.Statement (.hacWait at_ f1 f2 f3 f4 imm) := Carried.of_empty rfl
theorem Carried.crcJobDone (handle : Nat) (u : CruUnit) : Carried.Statement (.crcJobDone handle u) := Carried.of_empty rfl
theorem Carried.digJobDone (handle corr : Nat) : Carried.Statement (.digJobDone handle corr) := Carried.of_empty rfl
theorem Carried.cellRead (cell : Cell) (f : CellFault) : Carried.Statement (.cellRead cell f) := Carried.of_empty rfl
theorem Carried.stageFrame (p : Port) : Carried.Statement (.stageFrame p) := Carried.of_empty rfl
theorem Carried.txStart (p : Port) : Carried.Statement (.txStart p) := Carried.of_empty rfl
theorem Carried.txLastByte (p : Port) : Carried.Statement (.txLastByte p) := Carried.of_empty rfl
theorem Carried.launchTimeReached (p : Port) (q : Queue) : Carried.Statement (.launchTimeReached p q) := Carried.of_empty rfl
theorem Carried.gateEntry (p : Port) : Carried.Statement (.gateEntry p) := Carried.of_empty rfl
theorem Carried.gclSwitch (p : Port) : Carried.Statement (.gclSwitch p) := Carried.of_empty rfl
theorem Carried.residenceCapMiss (p : Port) (q : Queue) : Carried.Statement (.residenceCapMiss p q) := Carried.of_empty rfl
theorem Carried.pauseTimerExpire (p : Port) (i : HeldIndex) : Carried.Statement (.pauseTimerExpire p i) := Carried.of_empty rfl
theorem Carried.pauseWdBreak (p : Port) (i : HeldIndex) : Carried.Statement (.pauseWdBreak p i) := Carried.of_empty rfl
theorem Carried.pauseWdHoldEnd (p : Port) (i : HeldIndex) : Carried.Statement (.pauseWdHoldEnd p i) := Carried.of_empty rfl
theorem Carried.xoffChange (p : Port) (c : FrameClass) : Carried.Statement (.xoffChange p c) := Carried.of_empty rfl
theorem Carried.fcRefresh (p : Port) : Carried.Statement (.fcRefresh p) := Carried.of_empty rfl
theorem Carried.xoffCap (p : Port) (c : FrameClass) : Carried.Statement (.xoffCap p c) := Carried.of_empty rfl
theorem Carried.tickBoundary (tj : BitVec 11) : Carried.Statement (.tickBoundary tj) := Carried.of_empty rfl
theorem Carried.thermDerateClear : Carried.Statement .thermDerateClear := Carried.of_empty rfl
theorem Carried.commitBoundary : Carried.Statement .commitBoundary := Carried.of_empty rfl
theorem Carried.budgetCheckDone : Carried.Statement .budgetCheckDone := Carried.of_empty rfl
theorem Carried.checkRerun : Carried.Statement .checkRerun := Carried.of_empty rfl
theorem Carried.overlayCopyStart (b : Bank) : Carried.Statement (.overlayCopyStart b) := Carried.of_empty rfl
theorem Carried.overlayCopyDone (b : Bank) : Carried.Statement (.overlayCopyDone b) := Carried.of_empty rfl
theorem Carried.templateInstall (t : Template) : Carried.Statement (.templateInstall t) := Carried.of_empty rfl
theorem Carried.bankRetire : Carried.Statement .bankRetire := Carried.of_empty rfl
theorem Carried.hacRetireEnd : Carried.Statement .hacRetireEnd := Carried.of_empty rfl
theorem Carried.policerSweep (i : Policer) : Carried.Statement (.policerSweep i) := Carried.of_empty rfl
theorem Carried.bufScrubRead (f : CellFault) (met : Bool) : Carried.Statement (.bufScrubRead f met) := Carried.of_empty rfl
theorem Carried.bufScrubWriteback (met : Bool) : Carried.Statement (.bufScrubWriteback met) := Carried.of_empty rfl
theorem Carried.tableScrub (w : WordState) (struck : List (Nat × WordState)) : Carried.Statement (.tableScrub w struck) := Carried.of_empty rfl
theorem Carried.ledScrub (w : MirrorState) : Carried.Statement (.ledScrub w) := Carried.of_empty rfl
theorem Carried.ledMirrorFail (m : Mirror) : Carried.Statement (.ledMirrorFail m) := Carried.of_empty rfl
theorem Carried.ledRebuildDone (ok : Bool) : Carried.Statement (.ledRebuildDone ok) := Carried.of_empty rfl
theorem Carried.laneFault (l : Lane) : Carried.Statement (.laneFault l) := Carried.of_empty rfl
theorem Carried.engineParityFault (e : Engine) : Carried.Statement (.engineParityFault e) := Carried.of_empty rfl
theorem Carried.queueLinkError (p : Port) : Carried.Statement (.queueLinkError p) := Carried.of_empty rfl
theorem Carried.supplyClockAlarm (a : AlarmKind) (held : Bool) : Carried.Statement (.supplyClockAlarm a held) := Carried.of_empty rfl
theorem Carried.dgeClear (cause : Nat) : Carried.Statement (.dgeClear cause) := Carried.of_empty rfl
theorem Carried.dgeClearEnd : Carried.Statement .dgeClearEnd := Carried.of_empty rfl
theorem Carried.cruParityFault (u : CruUnit) : Carried.Statement (.cruParityFault u) := Carried.of_empty rfl
theorem Carried.eclipseDrainEnd : Carried.Statement .eclipseDrainEnd := Carried.of_empty rfl
theorem Carried.eclipseReq : Carried.Statement .eclipseReq := Carried.of_empty rfl
theorem Carried.engRst (e : Engine) : Carried.Statement (.engRst e) := Carried.of_empty rfl
theorem Carried.engineResetDone (e : Engine) : Carried.Statement (.engineResetDone e) := Carried.of_empty rfl
theorem Carried.mgcWatchdogExpire : Carried.Statement .mgcWatchdogExpire := Carried.of_empty rfl
theorem Carried.mgcKick : Carried.Statement .mgcKick := Carried.of_empty rfl
theorem Carried.mgcReset : Carried.Statement .mgcReset := Carried.of_empty rfl
theorem Carried.linkAcquired (p : Port) : Carried.Statement (.linkAcquired p) := Carried.of_empty rfl
theorem Carried.anComplete (p : Port) (r : AnResult) : Carried.Statement (.anComplete p r) := Carried.of_empty rfl
theorem Carried.linkCauseLost (p : Port) (c : LinkCause) : Carried.Statement (.linkCauseLost p c) := Carried.of_empty rfl
theorem Carried.linkCauseCleared (p : Port) : Carried.Statement (.linkCauseCleared p) := Carried.of_empty rfl
theorem Carried.linkDebounceExpire (p : Port) : Carried.Statement (.linkDebounceExpire p) := Carried.of_empty rfl
theorem Carried.partnerPageChange (p : Port) : Carried.Statement (.partnerPageChange p) := Carried.of_empty rfl
theorem Carried.macRst (p : Port) : Carried.Statement (.macRst p) := Carried.of_empty rfl
theorem Carried.pcsRst (p : Port) : Carried.Statement (.pcsRst p) := Carried.of_empty rfl
theorem Carried.anRestart (p : Port) : Carried.Statement (.anRestart p) := Carried.of_empty rfl
theorem Carried.sxCfgWrite (p : Port) (v : Dword) : Carried.Statement (.sxCfgWrite p v) := Carried.of_empty rfl
theorem Carried.verifyReceived (p : Port) : Carried.Statement (.verifyReceived p) := Carried.of_empty rfl
theorem Carried.respondReceived (p : Port) : Carried.Statement (.respondReceived p) := Carried.of_empty rfl
theorem Carried.verifyTimeout (p : Port) : Carried.Statement (.verifyTimeout p) := Carried.of_empty rfl
theorem Carried.mdioC22Write (m : MdioMaster) (phy reg : Fin 32) (data : BitVec 16) : Carried.Statement (.mdioC22Write m phy reg data) := Carried.of_empty rfl
theorem Carried.mdioC22Read (m : MdioMaster) (phy reg : Fin 32) : Carried.Statement (.mdioC22Read m phy reg) := Carried.of_empty rfl
theorem Carried.mdioC45Address (m : MdioMaster) (prt dev : Fin 32) (addr : BitVec 16) : Carried.Statement (.mdioC45Address m prt dev addr) := Carried.of_empty rfl
theorem Carried.mdioC45Write (m : MdioMaster) (prt dev : Fin 32) (addr data : BitVec 16) : Carried.Statement (.mdioC45Write m prt dev addr data) := Carried.of_empty rfl
theorem Carried.mdioC45Read (m : MdioMaster) (prt dev : Fin 32) (addr : BitVec 16) : Carried.Statement (.mdioC45Read m prt dev addr) := Carried.of_empty rfl
theorem Carried.mdioC45ReadInc (m : MdioMaster) (prt dev : Fin 32) : Carried.Statement (.mdioC45ReadInc m prt dev) := Carried.of_empty rfl
theorem Carried.mdioDone (m : MdioMaster) (acked : Bool) (data : BitVec 16) : Carried.Statement (.mdioDone m acked data) := Carried.of_empty rfl
theorem Carried.hostDescFetch (f : Func) (r : TxRing) : Carried.Statement (.hostDescFetch f r) := Carried.of_empty rfl
theorem Carried.txDescArrival (f : Func) (r : TxRing) (desc : List Byte) : Carried.Statement (.txDescArrival f r desc) := by
  intro h
  simp only [Instr.wf, decide_eq_true_eq] at h
  simp only [carriedBytes]
  omega
theorem Carried.hostReadCompletion (f : Func) (r : TxRing) (bytes : List Byte) (e : ReadEnd) : Carried.Statement (.hostReadCompletion f r bytes e) := by
  intro h
  simp only [Instr.wf, decide_eq_true_eq] at h
  simp only [carriedBytes]
  omega
theorem Carried.hostFrameLastRead (f : Func) (r : TxRing) : Carried.Statement (.hostFrameLastRead f r) := Carried.of_empty rfl
theorem Carried.completionTimeout (f : Func) (r : AnyRing) : Carried.Statement (.completionTimeout f r) := Carried.of_empty rfl
theorem Carried.hostStallDetect : Carried.Statement .hostStallDetect := Carried.of_empty rfl
theorem Carried.hostStallClear : Carried.Statement .hostStallClear := Carried.of_empty rfl
theorem Carried.hostStallEscalate : Carried.Statement .hostStallEscalate := Carried.of_empty rfl
theorem Carried.rxDescPrefetch (f : Func) (r : AnyRing) (desc : List Byte) : Carried.Statement (.rxDescPrefetch f r desc) := by
  intro h
  simp only [Instr.wf, decide_eq_true_eq] at h
  simp only [carriedBytes]
  omega
theorem Carried.hostDataWrite (handle : Nat) (i : Fin 8) : Carried.Statement (.hostDataWrite handle i) := Carried.of_empty rfl
theorem Carried.completionWrite (f : Func) (r : AnyRing) : Carried.Statement (.completionWrite f r) := Carried.of_empty rfl
theorem Carried.wbCoalesceExpire (f : Func) (r : AnyRing) : Carried.Statement (.wbCoalesceExpire f r) := Carried.of_empty rfl
theorem Carried.writeAcknowledged : Carried.Statement .writeAcknowledged := Carried.of_empty rfl
theorem Carried.eventRecordWrite (f : Func) : Carried.Statement (.eventRecordWrite f) := Carried.of_empty rfl
theorem Carried.elRecordWrite (n : Tenant) : Carried.Statement (.elRecordWrite n) := Carried.of_empty rfl
theorem Carried.doorbell (f : Func) (r : AnyRing) (v : BitVec 16) : Carried.Statement (.doorbell f r v) := Carried.of_empty rfl
theorem Carried.ringEnable (f : Func) (r : AnyRing) (v : Dword) : Carried.Statement (.ringEnable f r v) := Carried.of_empty rfl
theorem Carried.ringReset (f : Func) (r : AnyRing) : Carried.Statement (.ringReset f r) := Carried.of_empty rfl
theorem Carried.ringResetEnd (f : Func) (r : AnyRing) : Carried.Statement (.ringResetEnd f r) := Carried.of_empty rfl
theorem Carried.vfEnableSet (num : BitVec 16) (ari : Bool) : Carried.Statement (.vfEnableSet num ari) := Carried.of_empty rfl
theorem Carried.vfEnableClear : Carried.Statement .vfEnableClear := Carried.of_empty rfl
theorem Carried.flrInitiate (n : Tenant) : Carried.Statement (.flrInitiate n) := Carried.of_empty rfl
theorem Carried.hifFlr (f : Func) : Carried.Statement (.hifFlr f) := Carried.of_empty rfl
theorem Carried.flrDone (f : Func) : Carried.Statement (.flrDone f) := Carried.of_empty rfl
theorem Carried.ownerFlr : Carried.Statement .ownerFlr := Carried.of_empty rfl
theorem Carried.quiesce (f : Func) (why : QuiesceCause) : Carried.Statement (.quiesce f why) := Carried.of_empty rfl
theorem Carried.unquiesce (f : Func) : Carried.Statement (.unquiesce f) := Carried.of_empty rfl
theorem Carried.mpsMrrsChange (mps mrrs : Fin 3) : Carried.Statement (.mpsMrrsChange mps mrrs) := Carried.of_empty rfl
theorem Carried.perstAssert : Carried.Statement .perstAssert := Carried.of_empty rfl
theorem Carried.pcieLinkReset (c : LinkReset) : Carried.Statement (.pcieLinkReset c) := Carried.of_empty rfl
theorem Carried.perstDeassert (speed : Fin 4) (width : Fin 3) : Carried.Statement (.perstDeassert speed width) := Carried.of_empty rfl
theorem Carried.readyTimeout : Carried.Statement .readyTimeout := Carried.of_empty rfl
theorem Carried.irqMessageIssue : Carried.Statement .irqMessageIssue := Carried.of_empty rfl
theorem Carried.irqHeldRelease (src : IrqSource) : Carried.Statement (.irqHeldRelease src) := Carried.of_empty rfl
theorem Carried.eoi (src : IrqSource) : Carried.Statement (.eoi src) := Carried.of_empty rfl
theorem Carried.pendWrite (src : IrqSource) : Carried.Statement (.pendWrite src) := Carried.of_empty rfl
theorem Carried.irqCntRead (rd : Reader) (src : IrqSource) : Carried.Statement (.irqCntRead rd src) := Carried.of_empty rfl
theorem Carried.evlogLoRead (rd : Reader) : Carried.Statement (.evlogLoRead rd) := Carried.of_empty rfl
theorem Carried.teleSample : Carried.Statement .teleSample := Carried.of_empty rfl
theorem Carried.teleD0Read (rd : Reader) : Carried.Statement (.teleD0Read rd) := Carried.of_empty rfl
theorem Carried.tlrMove : Carried.Statement .tlrMove := Carried.of_empty rfl
theorem Carried.tlrTailWrite (v : BitVec 16) : Carried.Statement (.tlrTailWrite v) := Carried.of_empty rfl
theorem Carried.fifoAgeExpire (which : Fifo) : Carried.Statement (.fifoAgeExpire which) := Carried.of_empty rfl
theorem Carried.tblStgGo : Carried.Statement .tblStgGo := Carried.of_empty rfl
theorem Carried.tblRdIdxWrite (v : BitVec 15) : Carried.Statement (.tblRdIdxWrite v) := Carried.of_empty rfl
theorem Carried.hacHiWrite (w : HacWord) (v : Dword) : Carried.Statement (.hacHiWrite w v) := Carried.of_empty rfl
theorem Carried.cntClr (c : Counter) : Carried.Statement (.cntClr c) := Carried.of_empty rfl
theorem Carried.cntPktLoRead (rd : Reader) : Carried.Statement (.cntPktLoRead rd) := Carried.of_empty rfl
theorem Carried.tcntPktLoRead (n : Tenant) : Carried.Statement (.tcntPktLoRead n) := Carried.of_empty rfl
theorem Carried.hitWordRead (rd : Reader) : Carried.Statement (.hitWordRead rd) := Carried.of_empty rfl
theorem Carried.sketchClear : Carried.Statement .sketchClear := Carried.of_empty rfl
theorem Carried.sketchClearDone : Carried.Statement .sketchClearDone := Carried.of_empty rfl
theorem Carried.sketchQry (x : BitVec 16) : Carried.Statement (.sketchQry x) := Carried.of_empty rfl
theorem Carried.flowRecW0Read (rd : Reader) : Carried.Statement (.flowRecW0Read rd) := Carried.of_empty rfl
theorem Carried.genReset (g : GenFn) : Carried.Statement (.genReset g) := Carried.of_empty rfl
theorem Carried.recReset (f : RecFn) : Carried.Statement (.recReset f) := Carried.of_empty rfl
theorem Carried.recResetTimer (f : RecFn) : Carried.Statement (.recResetTimer f) := Carried.of_empty rfl
theorem Carried.latentTest (f : RecFn) : Carried.Statement (.latentTest f) := Carried.of_empty rfl
theorem Carried.latentReset (f : RecFn) : Carried.Statement (.latentReset f) := Carried.of_empty rfl
theorem Carried.elFlowWrite (n : Tenant) (en : Bool) : Carried.Statement (.elFlowWrite n en) := Carried.of_empty rfl
theorem Carried.tickNumLoRead (rd : Reader) : Carried.Statement (.tickNumLoRead rd) := Carried.of_empty rfl
theorem Carried.statLoRead (rd : Reader) (p : Port) (c : StatCounter) : Carried.Statement (.statLoRead rd p c) := Carried.of_empty rfl
theorem Carried.rcFieldRead (rd : Reader) (off : Nat) (be : BitVec 4) (more : List (BitVec 4)) : Carried.Statement (.rcFieldRead rd off be more) := Carried.of_empty rfl
theorem Carried.tdNsRead (rd : Reader) (d : Dom) : Carried.Statement (.tdNsRead rd d) := Carried.of_empty rfl
theorem Carried.tdRateLoWrite (d : Dom) (v : Dword) : Carried.Statement (.tdRateLoWrite d v) := Carried.of_empty rfl
theorem Carried.tdAdjStep (d : Dom) (v : Dword) : Carried.Statement (.tdAdjStep d v) := Carried.of_empty rfl
theorem Carried.tdAdjSlew (d : Dom) (v : Dword) : Carried.Statement (.tdAdjSlew d v) := Carried.of_empty rfl
theorem Carried.slewDone (d : Dom) : Carried.Statement (.slewDone d) := Carried.of_empty rfl
theorem Carried.setGo (d : Dom) (force : Bool) : Carried.Statement (.setGo d force) := Carried.of_empty rfl
theorem Carried.setValid (d : Dom) : Carried.Statement (.setValid d) := Carried.of_empty rfl
theorem Carried.clrValid (d : Dom) : Carried.Statement (.clrValid d) := Carried.of_empty rfl
theorem Carried.syncTimeout (d : Dom) : Carried.Statement (.syncTimeout d) := Carried.of_empty rfl
theorem Carried.holdMaxExpire (d : Dom) : Carried.Statement (.holdMaxExpire d) := Carried.of_empty rfl
theorem Carried.tuSnap : Carried.Statement .tuSnap := Carried.of_empty rfl
theorem Carried.leapApply : Carried.Statement .leapApply := Carried.of_empty rfl
theorem Carried.calTimeToDate (d : Dom) : Carried.Statement (.calTimeToDate d) := Carried.of_empty rfl
theorem Carried.calSecToDate : Carried.Statement .calSecToDate := Carried.of_empty rfl
theorem Carried.calDateToSec : Carried.Statement .calDateToSec := Carried.of_empty rfl
theorem Carried.calDateSet (d : Dom) : Carried.Statement (.calDateSet d) := Carried.of_empty rfl
theorem Carried.toutArm (i : ToutPin) : Carried.Statement (.toutArm i) := Carried.of_empty rfl
theorem Carried.toutDisarm (i : ToutPin) : Carried.Statement (.toutDisarm i) := Carried.of_empty rfl
theorem Carried.toutEdge (i : ToutPin) : Carried.Statement (.toutEdge i) := Carried.of_empty rfl
theorem Carried.toutPulseEnd (i : ToutPin) : Carried.Statement (.toutPulseEnd i) := Carried.of_empty rfl
theorem Carried.tcapEdge (j : TcapPin) (rising : Bool) (width : Nat) : Carried.Statement (.tcapEdge j rising width) := Carried.of_empty rfl
theorem Carried.tsqW0Read (rd : Reader) (p : Port) : Carried.Statement (.tsqW0Read rd p) := Carried.of_empty rfl
theorem Carried.tcapW0Read (rd : Reader) (j : TcapPin) : Carried.Statement (.tcapW0Read rd j) := Carried.of_empty rfl
theorem Carried.keyLoadGo : Carried.Statement .keyLoadGo := Carried.of_empty rfl
theorem Carried.keyLoadDone : Carried.Statement .keyLoadDone := Carried.of_empty rfl
theorem Carried.sysOpen (alg : Nat) (hmac : Bool) (key : KeySlot) : Carried.Statement (.sysOpen alg hmac key) := Carried.of_empty rfl
theorem Carried.sysAppend (v : Dword) : Carried.Statement (.sysAppend v) := Carried.of_empty rfl
theorem Carried.sysTail (n : Fin 8) : Carried.Statement (.sysTail n) := Carried.of_empty rfl
theorem Carried.sysFinal : Carried.Statement .sysFinal := Carried.of_empty rfl
theorem Carried.sysAbort : Carried.Statement .sysAbort := Carried.of_empty rfl
theorem Carried.streamDone (c : DgeCtx) (corr : Nat) : Carried.Statement (.streamDone c corr) := Carried.of_empty rfl
theorem Carried.digest15Read (rd : Reader) : Carried.Statement (.digest15Read rd) := Carried.of_empty rfl
theorem Carried.contextPreempt : Carried.Statement .contextPreempt := Carried.of_empty rfl
theorem Carried.dgeCtrlClear : Carried.Statement .dgeCtrlClear := Carried.of_empty rfl
theorem Carried.cruJobOpen (u : CruUnit) (j : JobPort) (foldLen : Fin 16) : Carried.Statement (.cruJobOpen u j foldLen) := Carried.of_empty rfl
theorem Carried.cruJobAppend (u : CruUnit) (j : JobPort) (v : Dword) : Carried.Statement (.cruJobAppend u j v) := Carried.of_empty rfl
theorem Carried.cruJobTail (u : CruUnit) (j : JobPort) (n : Fin 8) : Carried.Statement (.cruJobTail u j n) := Carried.of_empty rfl
theorem Carried.cruJobFinal (u : CruUnit) (j : JobPort) : Carried.Statement (.cruJobFinal u j) := Carried.of_empty rfl
theorem Carried.cruJobAbort (u : CruUnit) (j : JobPort) : Carried.Statement (.cruJobAbort u j) := Carried.of_empty rfl
theorem Carried.cruPortJobDone (u : CruUnit) (j : JobPort) : Carried.Statement (.cruPortJobDone u j) := Carried.of_empty rfl
theorem Carried.mbxCmdGo (f : Func) : Carried.Statement (.mbxCmdGo f) := Carried.of_empty rfl
theorem Carried.mbxRplPop (f : Func) : Carried.Statement (.mbxRplPop f) := Carried.of_empty rfl
theorem Carried.uartByteReceived (b : Byte) (stopOk : Bool) : Carried.Statement (.uartByteReceived b stopOk) := Carried.of_empty rfl
theorem Carried.uartBreak : Carried.Statement .uartBreak := Carried.of_empty rfl
theorem Carried.netconFrame : Carried.Statement .netconFrame := Carried.of_empty rfl
theorem Carried.consoleRetry (ch : Channel) : Carried.Statement (.consoleRetry ch) := Carried.of_empty rfl
theorem Carried.ping (ch : Channel) : Carried.Statement (.ping ch) := Carried.of_empty rfl
theorem Carried.mode (ch : Channel) : Carried.Statement (.mode ch) := Carried.of_empty rfl
theorem Carried.baud (ch : Channel) : Carried.Statement (.baud ch) := Carried.of_empty rfl
theorem Carried.show (ch : Channel) : Carried.Statement (.show ch) := Carried.of_empty rfl
theorem Carried.rd (ch : Channel) : Carried.Statement (.rd ch) := Carried.of_empty rfl
theorem Carried.wr (ch : Channel) : Carried.Statement (.wr ch) := Carried.of_empty rfl
theorem Carried.setField (ch : Channel) : Carried.Statement (.setField ch) := Carried.of_empty rfl
theorem Carried.stageDrop (ch : Channel) : Carried.Statement (.stageDrop ch) := Carried.of_empty rfl
theorem Carried.check (ch : Channel) : Carried.Statement (.check ch) := Carried.of_empty rfl
theorem Carried.commit (ch : Channel) : Carried.Statement (.commit ch) := Carried.of_empty rfl
theorem Carried.log (ch : Channel) : Carried.Statement (.log ch) := Carried.of_empty rfl
theorem Carried.teleOn (ch : Channel) : Carried.Statement (.teleOn ch) := Carried.of_empty rfl
theorem Carried.teleOff (ch : Channel) : Carried.Statement (.teleOff ch) := Carried.of_empty rfl
theorem Carried.mdioRd (ch : Channel) : Carried.Statement (.mdioRd ch) := Carried.of_empty rfl
theorem Carried.mdioWr (ch : Channel) : Carried.Statement (.mdioWr ch) := Carried.of_empty rfl
theorem Carried.resetEngine (ch : Channel) : Carried.Statement (.resetEngine ch) := Carried.of_empty rfl
theorem Carried.resetTenant (ch : Channel) : Carried.Statement (.resetTenant ch) := Carried.of_empty rfl
theorem Carried.resetSelf (ch : Channel) : Carried.Statement (.resetSelf ch) := Carried.of_empty rfl
theorem Carried.resetDevice (ch : Channel) : Carried.Statement (.resetDevice ch) := Carried.of_empty rfl
theorem Carried.digestOpen (ch : Channel) : Carried.Statement (.digestOpen ch) := Carried.of_empty rfl
theorem Carried.digestData (ch : Channel) : Carried.Statement (.digestData ch) := Carried.of_empty rfl
theorem Carried.digestFinal (ch : Channel) : Carried.Statement (.digestFinal ch) := Carried.of_empty rfl
theorem Carried.digestAbort (ch : Channel) : Carried.Statement (.digestAbort ch) := Carried.of_empty rfl
theorem Carried.updateStatus (ch : Channel) : Carried.Statement (.updateStatus ch) := Carried.of_empty rfl
theorem Carried.updateBegin (ch : Channel) (norOk : Bool) : Carried.Statement (.updateBegin ch norOk) := Carried.of_empty rfl
theorem Carried.updateData (ch : Channel) (norOk : Bool) : Carried.Statement (.updateData ch norOk) := Carried.of_empty rfl
theorem Carried.updateEnd (ch : Channel) (norOk : Bool) : Carried.Statement (.updateEnd ch norOk) := Carried.of_empty rfl
theorem Carried.updateActivate (ch : Channel) (norOk : Bool) : Carried.Statement (.updateActivate ch norOk) := Carried.of_empty rfl
theorem Carried.updateConfirm (ch : Channel) (norOk : Bool) (marginal : Nat) : Carried.Statement (.updateConfirm ch norOk marginal) := Carried.of_empty rfl
theorem Carried.trialTimerExpire (st : StartInputs) : Carried.Statement (.trialTimerExpire st) := Carried.of_empty rfl
theorem Carried.powerOn (st : StartInputs) : Carried.Statement (.powerOn st) := Carried.of_empty rfl
theorem Carried.deviceReset (pin : Bool) (st : StartInputs) : Carried.Statement (.deviceReset pin st) := Carried.of_empty rfl
theorem Carried.porstAssert : Carried.Statement .porstAssert := Carried.of_empty rfl
theorem Carried.railMonitorLow (r : Rail) : Carried.Statement (.railMonitorLow r) := Carried.of_empty rfl
theorem Carried.pmReqDay : Carried.Statement .pmReqDay := Carried.of_empty rfl
theorem Carried.pmReqDusk : Carried.Statement .pmReqDusk := Carried.of_empty rfl
theorem Carried.pmReqTwilight : Carried.Statement .pmReqTwilight := Carried.of_empty rfl
theorem Carried.pmReqNight : Carried.Statement .pmReqNight := Carried.of_empty rfl
theorem Carried.duskSwitch : Carried.Statement .duskSwitch := Carried.of_empty rfl
theorem Carried.duskExitSwitch : Carried.Statement .duskExitSwitch := Carried.of_empty rfl
theorem Carried.biasSettled : Carried.Statement .biasSettled := Carried.of_empty rfl
theorem Carried.drainComplete : Carried.Statement .drainComplete := Carried.of_empty rfl
theorem Carried.drainTimeout : Carried.Statement .drainTimeout := Carried.of_empty rfl
theorem Carried.l2Reached : Carried.Statement .l2Reached := Carried.of_empty rfl
theorem Carried.l2WaitTimeout : Carried.Statement .l2WaitTimeout := Carried.of_empty rfl
theorem Carried.twNightExpire : Carried.Statement .twNightExpire := Carried.of_empty rfl
theorem Carried.wakePinEdge (w : WakePin) (rising : Bool) : Carried.Statement (.wakePinEdge w rising) := Carried.of_empty rfl
theorem Carried.wakePatternMatch (p : Port) (bytes : List Byte) : Carried.Statement (.wakePatternMatch p bytes) := by
  intro h
  simp only [Instr.wf, decide_eq_true_eq] at h
  simp only [carriedBytes]
  omega
theorem Carried.linkEnergyWake (p : Port) : Carried.Statement (.linkEnergyWake p) := Carried.of_empty rfl
theorem Carried.perstWake : Carried.Statement .perstWake := Carried.of_empty rfl
theorem Carried.nightRailsGood (st : StartInputs) : Carried.Statement (.nightRailsGood st) := Carried.of_empty rfl
theorem Carried.tapReset (st : StartInputs) : Carried.Statement (.tapReset st) := Carried.of_empty rfl
theorem Carried.extest (dr : Option Scan) : Carried.Statement (.extest dr) := Carried.of_empty rfl
theorem Carried.samplePreload (dr : Option Scan) (st : StartInputs) : Carried.Statement (.samplePreload dr st) := Carried.of_empty rfl
theorem Carried.idcode (dr : Option Scan) (st : StartInputs) : Carried.Statement (.idcode dr st) := Carried.of_empty rfl
theorem Carried.highz (dr : Option Scan) : Carried.Statement (.highz dr) := Carried.of_empty rfl
theorem Carried.clamp (dr : Option Scan) : Carried.Statement (.clamp dr) := Carried.of_empty rfl
theorem Carried.extestPulse (dr : Option Scan) : Carried.Statement (.extestPulse dr) := Carried.of_empty rfl
theorem Carried.extestTrain (dr : Option Scan) : Carried.Statement (.extestTrain dr) := Carried.of_empty rfl
theorem Carried.mbistResult (dr : Option Scan) (st : StartInputs) : Carried.Statement (.mbistResult dr st) := Carried.of_empty rfl
theorem Carried.bypass (op : Byte) (dr : Option Scan) (st : StartInputs) : Carried.Statement (.bypass op dr st) := Carried.of_empty rfl
theorem Carried.registerWrite (f : Func) (off : Nat) (be : BitVec 4) (v : Dword) (more : List (BitVec 4 × Dword)) : Carried.Statement (.registerWrite f off be v more) := Carried.of_empty rfl
theorem Carried.sysrstDeassert (st : StartInputs) : Carried.Statement (.sysrstDeassert st) := Carried.of_empty rfl
theorem Carried.pmeTurnOff : Carried.Statement .pmeTurnOff := Carried.of_empty rfl
theorem Carried.ltrMechanismEnable : Carried.Statement .ltrMechanismEnable := Carried.of_empty rfl
theorem Carried.railMonitorGood (r : Rail) (volts33 : Bool) (st : StartInputs) : Carried.Statement (.railMonitorGood r volts33 st) := Carried.of_empty rfl
theorem Carried.mgcSramUncorrectable : Carried.Statement .mgcSramUncorrectable := Carried.of_empty rfl
theorem Carried.uartTxByteEnd : Carried.Statement .uartTxByteEnd := Carried.of_empty rfl
theorem Carried.invalidCodeGroup (p : Port) : Carried.Statement (.invalidCodeGroup p) := Carried.of_empty rfl

end Sys2Proof.Laws
end

