-- ==== Sys2Proof/Tests/Slice0.lean ====
section
/-! SUPPORT. Small tests: ill-formed commands, values that the spec works out, and for every statement of
Certificates/Slice0/Obligations.lean a state and operands that meet the hypotheses of each clause (wit_<statement>_<clause>). -/

set_option Elab.async false

namespace Sys2Proof.Tests
open Sys2Proof Sys2Proof.Machine

/-! ### Ill-formed commands -/

theorem test_ill_formed_rxFrameStart_short : (.rxFrameStart 0 false (List.replicate 17 0) : Instr).wf = false := by decide +kernel
theorem test_ill_formed_rxFrameStart_long : (.rxFrameStart 0 false (List.replicate 16385 0) : Instr).wf = false := by decide +kernel
theorem test_ill_formed_txDescArrival : (.txDescArrival 0 0 (List.replicate 31 0) : Instr).wf = false := by decide +kernel
theorem test_ill_formed_rxDescPrefetch : (.rxDescPrefetch 0 4 (List.replicate 33 0) : Instr).wf = false := by decide +kernel
theorem test_ill_formed_hostReadCompletion : (.hostReadCompletion 0 0 [] .data : Instr).wf = false := by decide +kernel
theorem test_ill_formed_hostReadCompletion_long : (.hostReadCompletion 0 0 (List.replicate 257 0) .data : Instr).wf = false := by decide +kernel
theorem test_ill_formed_cellRead : (.cellRead 0 ⟨0, [0], [], [], 0⟩ : Instr).wf = false := by decide +kernel
theorem test_ill_formed_bufScrubRead : (.bufScrubRead ⟨0, [0], [], [], 0⟩ false : Instr).wf = false := by decide +kernel
theorem test_ill_formed_registerWrite_odd : (.registerWrite 16 2 15 0 [] : Instr).wf = false := by decide +kernel
theorem test_ill_formed_registerWrite_far : (.registerWrite 0 0x10000 15 0 [] : Instr).wf = false := by decide +kernel
theorem test_ill_formed_registerWrite_page : (.registerWrite 16 0x10FFC 15 0 [(15, 0)] : Instr).wf = false := by decide +kernel
theorem test_ill_formed_rcFieldRead_far : (.rcFieldRead .owner 0x401000 15 [] : Instr).wf = false := by decide +kernel
theorem test_ill_formed_rcFieldRead_odd : (.rcFieldRead (.tenant 3) 6 15 [] : Instr).wf = false := by decide +kernel
theorem test_ill_formed_wakePatternMatch_short : (.wakePatternMatch 0 (List.replicate 63 0) : Instr).wf = false := by decide +kernel
theorem test_ill_formed_wakePatternMatch_long : (.wakePatternMatch 0 (List.replicate 16385 0) : Instr).wf = false := by decide +kernel
theorem test_well_formed_ping : (Instr.ping .uart).wf = true := by decide +kernel

/-! ### States -/

/-- A state with these register fields. -/
def put (l : List (Fld × Nat)) (s : State) : State := l.foldl (fun s x => s.wr x.1 x.2) s

/-- A state with these staged fields in force. -/
def inf (l : List (Fld × Nat)) (s : State) : State := { s with force := l.foldl (fun r x => regPut r x.1 x.2) s.force }

/-- The state that a command answers. -/
def next (c : Instr) (s : State) : State :=
  match exec c s with
  | .next t => t
  | _ => s

/-- A frame of n bytes of 0 in arrival from a source. -/
def arr0 (src : Source) (n : Nat) : Arrival :=
  { src := src, cls := 0, bytes := List.replicate n 0, sfd := 0, stamp := ⟨0, 0, false, false⟩, begun := .ordinary, storing := true
    cells := [], noMore := false, bad := false, lostClass := false, envFail := false, filter := .undecided, tpl := none, refd := false
    ctx := none, desc := none, el := none, elSkip := none }

/-- A transmit descriptor for n bytes. -/
def desc0 (n : Nat) : TxDesc := ⟨0, 0, n, 0, none, false, 0⟩

/-- An accepted frame from port 0 of 64 bytes in cell 0, on flow 1. -/
def frame0 : Frame :=
  { src := .port 0, len := 64, cls := 0, flow := 1, seq := 1, epoch := 0, accTick := 0, accSec := 0, folded := none, mgmt := false
    cells := [0], exits := [], drawnBy := [], g0 := 0, resume := 0, icount := 0, tele := none, trapInfo := none, resTick := 0
    metaRec := List.replicate 64 0, stamp := ⟨0, 0, false, false⟩, patch := none, resolved := false, desc := none }

/-- An exit to a queue of a port, or to a function. -/
def exit0 (d q : Nat) : Exit := ⟨d, q, false, 0, 0, 0, 0, 0, 0⟩

/-- A context that runs, in classification or resolution. -/
def ctx0 (r : Bool) : Ctx := { State.reset.clsCtx (.port 0) [] (List.replicate 64 0) 64 with resolving := r, fin := .running, flow := some 1 }

/-- A job of a unit (none: the digest engine) all of whose blocks have started, or that is done. -/
def job0 (u : Option Nat) (key : Option Nat) (done : Bool) : Job :=
  ⟨u, 0, [0x5A], txt "123456789", 2, key, done, false, if done then [1, 2] else [], 0, 0, 0⟩

/-- Frame 0 in resolution in lane 3, or parked there. -/
def inLane3 (c : Ctx) (parked : Bool) (s : State) : State :=
  { s with mas := { s.mas with lanes := lmod s.mas.lanes 3 (fun _ => if parked then ⟨none, [(0, c)], none⟩ else ⟨some (0, c), [], none⟩) } }

/-- Port 0 is up at 10 Gb/s. -/
def upState : State := put [(R.PORT_STAT_STATE 0, 3), (R.PORT_STAT_RATE 0, 5)] State.reset

/-- A frame is in arrival in a place. -/
def withArr (a : Arr) (v : Arrival) (s : State) : State := s.setArr a (some v)

/-- Port p is as given. -/
def withPort (p : Nat) (g : PortState → PortState) (s : State) : State := s.modPort p g

/-! ### Values that the spec works out -/

/-- R496: the check code of the line `#7 ping`. -/
theorem test_check_code_of_ping : checkCode (some 7) (txt "#7 ping") = 0xF58C := by decide +kernel

/-- R668: the worked results of the memory test. -/
theorem test_mbist_one_bank : ((State.reset.memoryTest [3] 0).pins.mbist, (State.reset.memoryTest [] 1).pins.mbist) = (0x8311, 0x0100000B) := by decide +kernel

/-- R434: SHA-256 of `abc`, from FIPS 180-4. -/
theorem test_sha256_abc : beNat (sha 1 (txt "abc")) = 0xBA7816BF8F01CFEA414140DE5DAE2223B00361A396177A9CB410FF61F20015AD := by decide +kernel

/-! ### Witnesses: c00 -/

/-- A command waits. -/
def waiting0 : State := { State.reset with pending := [.ping .uart] }

theorem wit_StepRunsFront : waiting0.pending = .ping .uart :: [] ∧ State.reset.pending = [] := by decide +kernel
theorem wit_CanonicalKept : waiting0.Canonical ∧ waiting0.Steps := by
  refine ⟨by unfold State.Canonical; decide +kernel, next (.ping .uart) State.reset, ?_⟩
  rfl
theorem wit_ShapeKept : waiting0.Shaped ∧ waiting0.Steps := by
  refine ⟨by unfold State.Shaped; decide +kernel, next (.ping .uart) State.reset, ?_⟩
  rfl

/-! ### Witnesses: c01 -/

theorem wit_FrameArrival_1 :
    upState.looped 0 = false ∧ upState.rd (R.SX_CFG_LPBK 0) ≠ 3 ∧ upState.receives 0 = true ∧ upState.ports.length = 6 ∧ upState.arr (.rx 0 false) = none ∧ upState.rd R.PM_STAT_STATE < 2 := by decide +kernel

def s_FrameArrival_1b : State :=
  inf [(R.ENV_MIN_INTERVAL 0, 100)] (withPort 0 (fun q => { q with lastPass := some 0 }) upState)

theorem wit_FrameArrival_1b :
    s_FrameArrival_1b.looped 0 = false ∧ s_FrameArrival_1b.rd (R.SX_CFG_LPBK 0) ≠ 3 ∧ s_FrameArrival_1b.receives 0 = true ∧ s_FrameArrival_1b.ports.length = 6 ∧ s_FrameArrival_1b.arr (.rx 0 false) = none ∧ s_FrameArrival_1b.rd R.PM_STAT_STATE < 2
      ∧ ((next (.rxFrameStart 0 false (List.replicate 64 0)) s_FrameArrival_1b).arr (.rx 0 false)).map (fun v => (v.envFail, v.begun, v.cells.length)) = some (true, .ordinary, 1) := by decide +kernel

def s_FrameArrival_2 : State :=
  withArr (.rx 0 false) { arr0 (.port 0) 64 with cells := [0] } upState

theorem wit_FrameArrival_2 :
    s_FrameArrival_2.arr (.rx 0 false) = some { arr0 (.port 0) 64 with cells := [0] } ∧ ((next (.addressFilter 0 false) s_FrameArrival_2).arr (.rx 0 false)).map (·.filter) = some .miss := by decide +kernel

def s_FrameArrival_2b : State :=
  inf [(R.SLOT_ADDR_HI_SLOT_VALID 0 3, 1), (R.SLOT_TENANT_MAP 0 3, 6)] s_FrameArrival_2

theorem wit_FrameArrival_2b :
    s_FrameArrival_2b.arr (.rx 0 false) = some { arr0 (.port 0) 64 with cells := [0] } ∧ ((next (.addressFilter 0 false) s_FrameArrival_2b).arr (.rx 0 false)).map (·.filter) = some (.pass 6 false) := by decide +kernel

def s_FrameArrival_3 : State :=
  withArr (.rx 0 false) (arr0 (.port 0) 64) upState

theorem wit_FrameArrival_3 :
    s_FrameArrival_3.arr (.rx 0 false) = some (arr0 (.port 0) 64) ∧ (arr0 (.port 0) 64).tpl = none := by decide +kernel

def s_FrameArrival_4 : State :=
  withArr (.host 16 3) { arr0 (.ring 16 3) 60 with desc := some (desc0 60) } State.reset

theorem wit_FrameArrival_4 :
    s_FrameArrival_4.arr (.host 16 3) = some { arr0 (.ring 16 3) 60 with desc := some (desc0 60) }
      ∧ min 128 ({ arr0 (.ring 16 3) 60 with desc := some (desc0 60) }.len - 4) ≤ 60 := by decide +kernel

def s_FrameArrival_5 : State :=
  withArr (.rx 0 false) { arr0 (.port 0) 64 with tpl := some none } upState

theorem wit_FrameArrival_5 :
    s_FrameArrival_5.arr (.rx 0 false) = some { arr0 (.port 0) 64 with tpl := some none }
      ∧ s_FrameArrival_5.nextCellByte { arr0 (.port 0) 64 with tpl := some none } ≤ s_FrameArrival_5.inf (R.MAXLEN 0)
      ∧ s_FrameArrival_5.nextCellByte { arr0 (.port 0) 64 with tpl := some none } ≤ 64 ∧ s_FrameArrival_5.rxCells (.rx 0 false) < 72
      ∧ 0 < s_FrameArrival_5.cellsNeeded { arr0 (.port 0) 64 with tpl := some none } ∧ (s_FrameArrival_5.upTo 6656).rd R.MGMT_HELD = 0
      ∧ ((s_FrameArrival_5.upTo (s_FrameArrival_5.byteAt 0 { arr0 (.port 0) 64 with tpl := some none } 1)).takeCell false).isSome = true := by decide +kernel

def s_FrameArrival_5b : State :=
  withArr (.host 16 3) { arr0 (.ring 16 3) 60 with desc := some (desc0 60), tpl := some none, begun := .management } State.reset

theorem wit_FrameArrival_5b :
    s_FrameArrival_5b.arr (.host 16 3) = some { arr0 (.ring 16 3) 60 with desc := some (desc0 60), tpl := some none, begun := .management }
      ∧ s_FrameArrival_5b.nextCellByte { arr0 (.ring 16 3) 60 with desc := some (desc0 60), tpl := some none, begun := .management } ≤ 60
      ∧ 0 < s_FrameArrival_5b.cellsNeeded { arr0 (.ring 16 3) 60 with desc := some (desc0 60), tpl := some none, begun := .management }
      ∧ s_FrameArrival_5b.rxCells (.host 16 3) < 72 ∧ s_FrameArrival_5b.rd R.MGMT_HELD < 64 ∧ (s_FrameArrival_5b.takeCell true).isSome = true := by decide +kernel

def s_FrameArrival_6 : State :=
  withArr (.host 16 3) { arr0 (.ring 16 3) 60 with desc := some (desc0 60) } State.reset

theorem wit_FrameArrival_6 :
    s_FrameArrival_6.arr (.host 16 3) = some { arr0 (.ring 16 3) 60 with desc := some (desc0 60) } ∧ s_FrameArrival_6.masRuns = true ∧ s_FrameArrival_6.occupant (.host 16 3) = none := by decide +kernel

def s_FrameArrival_7 : State :=
  withArr (.rx 5 true) { arr0 (.port 5) 64 with filter := .pass 0 true } State.reset

theorem wit_FrameArrival_7 :
    s_FrameArrival_7.arr (.rx 5 true) = some { arr0 (.port 5) 64 with filter := .pass 0 true } ∧ s_FrameArrival_7.masRuns = true ∧ s_FrameArrival_7.occupant (.rx 5 true) = none ∧ 64 ≤ s_FrameArrival_7.inf (R.MAXLEN 5) := by decide +kernel

def s_FrameEnds_1 : State :=
  withArr (.rx 5 true) { arr0 (.port 5) 64 with filter := .pass 0 true, cells := [0] } State.reset

theorem wit_FrameEnds_1 :
    s_FrameEnds_1.arr (.rx 5 true) = some { arr0 (.port 5) 64 with filter := .pass 0 true, cells := [0] } ∧ s_FrameEnds_1.acceptTurn (.rx 5 true) = true
      ∧ s_FrameEnds_1.loopOpen 5 true = false ∧ s_FrameEnds_1.wholeGood 5 { arr0 (.port 5) 64 with filter := .pass 0 true, cells := [0] } [] = false := by decide +kernel

/-- A frame of 64 bytes with a good FCS, classified to one exit, in arrival at port 0. -/
def good0 : Arrival :=
  { arr0 (.port 0) 64 with bytes := withFcs (List.replicate 60 0), filter := .pass 0 true, tpl := some none,
                            ctx := some { ctx0 false with exits := [exit0 1 0], fin := .closed } }

/-- Its flow is enabled. -/
def accepts : State :=
  let s : State := { upState with led := { upState.led with flows := [(1, ⟨0, 0, 16, true, false, false, 0, 0, 0⟩)] } }
  withArr (.rx 0 false) good0 (put [(R.PORT_STAT_STATE 1, 3), (R.PORT_STAT_RATE 1, 5)] s)

theorem wit_FrameEnds_2 :
    accepts.acceptTurn (.rx 0 false) = true ∧ accepts.loopOpen 0 false = false ∧ accepts.wholeGood 0 good0 [] = true ∧ beNat (sliceD good0.bytes 12 2) ≠ 0x8808
      ∧ accepts.bit R.FLT_STAT_ECLIPSE = false ∧ 64 ≤ accepts.inf (R.MAXLEN 0)
      ∧ (match (accepts.judgedIn 0 false [] good0).arr (.rx 0 false) with
        | some w => decide (w.filter ≠ .miss) && !w.envFail && !w.lostClass && decide (w.begun ≠ .cannot) && !w.noMore && (match w.ctx with
          | some c => decide (c.fin ≠ .running) && decide (w.exits c ≠ []) && (match (accepts.judgedIn 0 false [] good0).arrFlow c,
              (accepts.judgedIn 0 false [] good0).portRate 0 w.cls w.bytes.length with
            | some x, some u' => ((u'.tryAccept u'.newHandle c w x (w.exits c)).why).isNone
            | _, _ => false)
          | none => false)
        | none => false) = true ∧ (accepts.judgedIn 0 false [] good0).masRuns = true := by decide +kernel

def s_ResolutionRuns_1 : State :=
  { State.reset with frames := [(0, frame0)], buf := { Buf.reset with cells := [(0, some ⟨List.replicate 64 0, none, true, false, 0⟩)] } }

theorem wit_ResolutionRuns_1 :
    s_ResolutionRuns_1.masRuns = true ∧ s_ResolutionRuns_1.mas.lanes.length = 4 ∧ mget s_ResolutionRuns_1.frames 0 = some frame0 ∧ s_ResolutionRuns_1.freeLane (s_ResolutionRuns_1.resKey frame0) = some 0 ∧ s_ResolutionRuns_1.readyCls 0 = []
      ∧ s_ResolutionRuns_1.inLane 0 = false ∧ (∀ x ∈ s_ResolutionRuns_1.unresolved, s_ResolutionRuns_1.resKey frame0 ≤ s_ResolutionRuns_1.resKey x.2) ∧ frame0.resume ≠ noResume ∧ frame0.trapInfo = none := by decide +kernel

def s_ResolutionRuns_2 : State :=
  { s_ResolutionRuns_1 with frames := [(0, { frame0 with resume := noResume })] }

theorem wit_ResolutionRuns_2 :
    s_ResolutionRuns_2.masRuns = true ∧ mget s_ResolutionRuns_2.frames 0 = some { frame0 with resume := noResume } ∧ s_ResolutionRuns_2.freeLane (s_ResolutionRuns_2.resKey { frame0 with resume := noResume }) = some 0
      ∧ s_ResolutionRuns_2.readyCls 0 = [] ∧ s_ResolutionRuns_2.inLane 0 = false ∧ ∀ x ∈ s_ResolutionRuns_2.unresolved, s_ResolutionRuns_2.resKey { frame0 with resume := noResume } ≤ s_ResolutionRuns_2.resKey x.2 := by decide +kernel

def s_ResolutionRuns_3 : State :=
  inLane3 { ctx0 true with fin := .waiting, jobs := [job0 (some 0) none true] } false s_ResolutionRuns_1

theorem wit_ResolutionRuns_3 :
    s_ResolutionRuns_3.masRuns = true ∧ s_ResolutionRuns_3.mas.lanes.length = 4 ∧ s_ResolutionRuns_3.unitsSync.readyCls 3 = [] ∧ s_ResolutionRuns_3.unitsSync.masRuns = true
      ∧ (s_ResolutionRuns_3.unitsSync.lane 3).res = some (0, { ctx0 true with fin := .waiting, jobs := [job0 (some 0) none true] }) := by decide +kernel

def s_ResolutionRuns_4 : State :=
  inLane3 { ctx0 true with fin := .waiting, jobs := [job0 (some 0) none true] } true s_ResolutionRuns_1

theorem wit_ResolutionRuns_4 :
    s_ResolutionRuns_4.masRuns = true ∧ s_ResolutionRuns_4.unitsSync.readyCls 3 = [] ∧ (s_ResolutionRuns_4.unitsSync.lane 3).res = none ∧ s_ResolutionRuns_4.unitsSync.masRuns = true
      ∧ (s_ResolutionRuns_4.unitsSync.lane 3).parked.find? (fun y => y.1 == 0) = some (0, { ctx0 true with fin := .waiting, jobs := [job0 (some 0) none true] })
      ∧ ∀ y ∈ (s_ResolutionRuns_4.unitsSync.lane 3).parked, y.2.jobsReady = true →
        ((mget s_ResolutionRuns_4.unitsSync.frames 0).map s_ResolutionRuns_4.unitsSync.resKey).getD 0 ≤ ((mget s_ResolutionRuns_4.unitsSync.frames y.1).map s_ResolutionRuns_4.unitsSync.resKey).getD 0 := by decide +kernel

/-! ### Witnesses: c02 -/

theorem wit_TickOpens :
    State.reset.tick.commitAt = none ∧ (next (.tickBoundary 0) State.reset).tdValid 0 = false ∧ (next (.tickBoundary 0) State.reset).tick.num = 1 ∧ (next (.tickBoundary 0) State.reset).tick.len = 64 * (15625 * 2 ^ (State.reset.rd R.TICK_ACTIVE % 8)) := by decide +kernel

def s_CommitTakesEffect_1 : State :=
  { put [(R.FC_REFRESH 0, 999)] State.reset with tick := { Tick.reset with num := 7, commitAt := some 7 } }

theorem wit_CommitTakesEffect_1 :
    s_CommitTakesEffect_1.tick.commitAt = some 7 ∧ 7 ≤ s_CommitTakesEffect_1.tick.num ∧ (next (.commitBoundary) s_CommitTakesEffect_1).inf (R.FC_REFRESH 0) = 999 ∧ (next (.commitBoundary) s_CommitTakesEffect_1).tick.epoch = 1 := by decide +kernel

def s_CommitTakesEffect_2 : State :=
  { State.reset with tick := { Tick.reset with num := 7, commitAt := some 8 } }

theorem wit_CommitTakesEffect_2 :
    s_CommitTakesEffect_2.tick.commitAt = some 8 ∧ s_CommitTakesEffect_2.tick.num < 8 := by decide +kernel

def s_ChecksAndStore_1 : State :=
  { put [(R.HIF_LINK_SPEED, 4), (R.HIF_LINK_WIDTH, 4)] State.reset with
      tick := { Tick.reset with checks := [.boot] }, boot := { Boot.reset with phase := .config } }

theorem wit_ChecksAndStore_1 :
    s_ChecksAndStore_1.tick.checks = [.boot] ∧ s_ChecksAndStore_1.mgcStopped = false ∧ s_ChecksAndStore_1.boot.phase = .config ∧ (s_ChecksAndStore_1.verdict s_ChecksAndStore_1.stagedCfg).code = 0
      ∧ s_ChecksAndStore_1.bit R.FLT_STAT_ECLIPSE = false := by decide +kernel

def s_ChecksAndStore_1b : State :=
  put [(R.SYS_MSG_MAX, 255), (R.HIF_LINK_SPEED, 1), (R.HIF_LINK_WIDTH, 1)] s_ChecksAndStore_1

theorem wit_ChecksAndStore_1b :
    s_ChecksAndStore_1b.tick.checks = [.boot] ∧ s_ChecksAndStore_1b.mgcStopped = false ∧ s_ChecksAndStore_1b.boot.phase = .config ∧ (s_ChecksAndStore_1b.verdict s_ChecksAndStore_1b.stagedCfg).code ≠ 0 := by decide +kernel

def s_ChecksAndStore_2 : State :=
  { put [(R.HIF_LINK_SPEED, 4), (R.HIF_LINK_WIDTH, 4)] State.reset with
      tick := { Tick.reset with checks := [.dusk] }, boot := { Boot.reset with phase := .ended }, pm := { Pm.reset with phase := .duskCheck } }

theorem wit_ChecksAndStore_2 :
    s_ChecksAndStore_2.tick.checks = [.dusk] ∧ s_ChecksAndStore_2.mgcStopped = false ∧ s_ChecksAndStore_2.pm.phase = .duskCheck ∧ (s_ChecksAndStore_2.verdict s_ChecksAndStore_2.forceCfg).code = 0 := by decide +kernel

def s_ChecksAndStore_2b : State :=
  inf [(R.SYS_MSG_MAX, 255)] (put [(R.HIF_LINK_SPEED, 1), (R.HIF_LINK_WIDTH, 1)] s_ChecksAndStore_2)

theorem wit_ChecksAndStore_2b :
    s_ChecksAndStore_2b.tick.checks = [.dusk] ∧ s_ChecksAndStore_2b.mgcStopped = false ∧ s_ChecksAndStore_2b.pm.phase = .duskCheck ∧ (s_ChecksAndStore_2b.verdict s_ChecksAndStore_2b.forceCfg).code ≠ 0 := by decide +kernel

def s_ChecksAndStore_3 : State :=
  { inf [(R.SYS_MSG_MAX, 255)] (put [(R.HIF_LINK_SPEED, 1), (R.HIF_LINK_WIDTH, 1)] State.reset) with
      tick := { Tick.reset with rerun := true }, boot := { Boot.reset with phase := .ended } }

theorem wit_ChecksAndStore_3 :
    s_ChecksAndStore_3.tick.rerun = true ∧ s_ChecksAndStore_3.mgcStopped = false ∧ (s_ChecksAndStore_3.verdict s_ChecksAndStore_3.forceCfg).code ≠ 0 := by decide +kernel

def s_ChecksAndStore_4 : State :=
  { put [(R.THERM_STAT_DERATE, 1)] State.reset with pm := { Pm.reset with coolTicks := 16 } }

theorem wit_ChecksAndStore_4 :
    s_ChecksAndStore_4.bit R.THERM_STAT_DERATE = true ∧ 16 ≤ s_ChecksAndStore_4.pm.coolTicks ∧ (next (.thermDerateClear) s_ChecksAndStore_4).bit R.THERM_STAT_DERATE = false := by decide +kernel

def s_ChecksAndStore_5 : State :=
  { put [(R.HAC_STAT_RETIRING, 1)] State.reset with oldForce := [(0, [])] }

theorem wit_ChecksAndStore_5 :
    (s_ChecksAndStore_5.frames.all (fun x => x.2.resolved || x.2.epoch == s_ChecksAndStore_5.tick.epoch)) = true
      ∧ (∀ (a : Arr) (v : Arrival) (c : Ctx), s_ChecksAndStore_5.arr a = some v → v.ctx = some c → c.epoch = s_ChecksAndStore_5.tick.epoch) ∧ (next (.hacRetireEnd) s_ChecksAndStore_5).oldForce = [] := by
      have h1 : ∀ p e, s_ChecksAndStore_5.arr (.rx p e) = none := by decide
      have h2 : ∀ f r, s_ChecksAndStore_5.arr (.host f r) = none := by decide
      exact ⟨by decide, fun a v c h => by cases a <;> simp [h1, h2] at h, by decide +kernel⟩

theorem wit_ChecksAndStore_6 :
    State.reset.bitAt R.ENG_RST_STAT 6 = false ∧ State.reset.bit R.FLT_STAT_ECLIPSE = false ∧ State.reset.tick.commitAt = none ∧ State.reset.wordLive 0 = false := by decide +kernel

def s_ChecksAndStore_6b : State :=
  inf [(R.PROG_P_EN 0, 1)] State.reset

theorem wit_ChecksAndStore_6b :
    s_ChecksAndStore_6b.bitAt R.ENG_RST_STAT 6 = false ∧ s_ChecksAndStore_6b.bit R.FLT_STAT_ECLIPSE = false ∧ s_ChecksAndStore_6b.tick.commitAt = none ∧ s_ChecksAndStore_6b.wordLive 0 = true := by decide +kernel

/-! ### Witnesses: c04 -/

def s_LinkUp_1 : State :=
  inf [(R.PORT_CFG_AN_EN 5, 1)] (put [(R.PORT_STAT_STATE 5, 1)] State.reset)

theorem wit_LinkUp_1 :
    s_LinkUp_1.ports.length = 6 ∧ s_LinkUp_1.rd (R.PORT_STAT_STATE 5) = 1 ∧ s_LinkUp_1.rd (R.SX_CFG_LPBK 5) = 0 ∧ s_LinkUp_1.inf (R.PORT_CFG_AN_EN 5) = 1 ∧ s_LinkUp_1.negotiates 5 = false := by decide +kernel

def s_LinkUp_1b : State :=
  inf [(R.PORT_CFG_IF 5, 3)] s_LinkUp_1

theorem wit_LinkUp_1b :
    s_LinkUp_1b.rd (R.PORT_STAT_STATE 5) = 1 ∧ s_LinkUp_1b.rd (R.SX_CFG_LPBK 5) = 0 ∧ s_LinkUp_1b.inf (R.PORT_CFG_AN_EN 5) = 1 ∧ s_LinkUp_1b.negotiates 5 = true := by decide +kernel

def s_LinkUp_1c : State :=
  put [(R.PORT_STAT_REMOTE_FAULT 5, 1)] (withPort 5 (fun q => { q with causes := [.remoteFault] }) (inf [(R.PORT_CFG_AN_EN 5, 0)] (put [(R.PORT_STAT_STATE 5, 1)] State.reset)))

theorem wit_LinkUp_1c :
    s_LinkUp_1c.rd (R.PORT_STAT_STATE 5) = 1 ∧ ¬(s_LinkUp_1c.inf (R.PORT_CFG_AN_EN 5) = 1 ∧ s_LinkUp_1c.rd (R.SX_CFG_LPBK 5) = 0) ∧ s_LinkUp_1c.faulty 5 = true ∧ s_LinkUp_1c.rd (R.SX_CFG_LPBK 5) = 0 := by decide +kernel

def s_LinkUp_2 : State :=
  inf [(R.PORT_CFG_AN_EN 5, 0)] (put [(R.PORT_STAT_STATE 5, 1), (R.SX_CFG_LPBK 5, 2)] State.reset)

theorem wit_LinkUp_2 :
    s_LinkUp_2.ports.length = 6 ∧ s_LinkUp_2.rd (R.PORT_STAT_STATE 5) = 1 ∧ s_LinkUp_2.rd (R.SX_CFG_LPBK 5) ≠ 3 ∧ ¬(s_LinkUp_2.inf (R.PORT_CFG_AN_EN 5) = 1 ∧ s_LinkUp_2.rd (R.SX_CFG_LPBK 5) = 0)
      ∧ ¬(s_LinkUp_2.faulty 5 = true ∧ s_LinkUp_2.rd (R.SX_CFG_LPBK 5) = 0) ∧ (next (.linkAcquired 5) s_LinkUp_2).rd (R.PORT_STAT_STATE 5) = 3 := by decide +kernel

def s_LinkUp_3 : State :=
  put [(R.PORT_STAT_STATE 0, 2)] State.reset

theorem wit_LinkUp_3 :
    s_LinkUp_3.ports.length = 6 ∧ s_LinkUp_3.rd (R.PORT_STAT_STATE 0) = 2 ∧ s_LinkUp_3.inf (R.PORT_CFG_IF 0) ≠ 3 ∧ 5 ≤ rateCodes (s_LinkUp_3.inf (R.PORT_CFG_IF 0)) := by decide +kernel

def s_LinkUp_4 : State :=
  inf [(R.PORT_CFG_RATE_MAX 0, 4)] (put [(R.PORT_STAT_STATE 0, 2)] State.reset)

theorem wit_LinkUp_4 :
    s_LinkUp_4.rd (R.PORT_STAT_STATE 0) = 2 ∧ s_LinkUp_4.inf (R.PORT_CFG_IF 0) ≠ 3 ∧ s_LinkUp_4.rateCap 0 < 5 ∧ 5 ≤ rateCodes (s_LinkUp_4.inf (R.PORT_CFG_IF 0)) ∧ (next (.anComplete 0 ⟨true, 5, true, true, true, 0⟩) s_LinkUp_4).bit (R.PORT_STAT_RATE_FAULT 0) = true := by decide +kernel

def s_LinkUp_5 : State :=
  put [(R.PORT_STAT_STATE 0, 2)] State.reset

theorem wit_LinkUp_5 :
    s_LinkUp_5.rd (R.PORT_STAT_STATE 0) = 2 ∧ s_LinkUp_5.inf (R.PORT_CFG_IF 0) ≠ 3 ∧ 2 ≤ s_LinkUp_5.rateCap 0 ∧ 2 ≤ rateCodes (s_LinkUp_5.inf (R.PORT_CFG_IF 0)) ∧ s_LinkUp_5.faulty 0 = false ∧ (next (.anComplete 0 ⟨true, 2, true, true, true, 0⟩) s_LinkUp_5).rd (R.PORT_STAT_STATE 0) = 3 := by decide +kernel

def s_LinkUp_5b : State :=
  put [(R.PORT_STAT_STATE 0, 2)] State.reset

theorem wit_LinkUp_5b :
    s_LinkUp_5b.rd (R.PORT_STAT_STATE 0) = 2 ∧ s_LinkUp_5b.inf (R.PORT_CFG_IF 0) ≠ 3 := by decide +kernel

def s_LinkUp_5c : State :=
  inf [(R.PORT_CFG_IF 0, 3), (R.FC_CFG_ADV_PAUSE 0, 1)] (put [(R.PORT_STAT_STATE 0, 2)] State.reset)

theorem wit_LinkUp_5c :
    s_LinkUp_5c.rd (R.PORT_STAT_STATE 0) = 2 ∧ s_LinkUp_5c.inf (R.PORT_CFG_IF 0) = 3 ∧ 2 ≤ s_LinkUp_5c.rateCap 0 ∧ s_LinkUp_5c.faulty 0 = false ∧ (next (.anComplete 0 ⟨true, 0, true, true, true, 0⟩) s_LinkUp_5c).bit (R.FC_STAT_AN_RX_EN 0) = true := by decide +kernel

def s_LinkUp_5d : State :=
  withPort 5 (fun q => { q with causes := [.remoteFault], ready := some 1 }) (put [(R.PORT_STAT_STATE 5, 1), (R.PORT_STAT_REMOTE_FAULT 5, 1)] State.reset)

theorem wit_LinkUp_5d :
    (s_LinkUp_5d.port 5).ready = some 1 ∧ s_LinkUp_5d.rd (R.PORT_STAT_STATE 5) = 1 ∧ (next (.linkCauseCleared 5) s_LinkUp_5d).rd (R.PORT_STAT_STATE 5) = 3 := by decide +kernel

def s_LinkUp_6 : State :=
  withPort 0 (fun q => { q with causes := [.lock, .localFault], debounceSince := some 5 }) (put [(R.PORT_STAT_STATE 0, 5), (R.PORT_STAT_RATE 0, 5)] State.reset)

theorem wit_LinkUp_6 :
    s_LinkUp_6.rd (R.PORT_STAT_STATE 0) = 5 ∧ (next (.linkCauseCleared 0) s_LinkUp_6).rd (R.PORT_STAT_STATE 0) = 3 := by decide +kernel

def s_LinkUp_7 : State :=
  put [(R.PORT_STAT_STATE 0, 4), (R.PORT_STAT_RATE_FAULT 0, 1)] State.reset

theorem wit_LinkUp_7 :
    s_LinkUp_7.rd (R.PORT_STAT_STATE 0) = 4 := by decide +kernel

theorem wit_LinkUp_8 :
    isUp upState 0 = true ∧ (next (.invalidCodeGroup 0) upState).rd (R.PCS_ERR 0) = 1 := by decide +kernel

def s_LinkLoss_1 : State :=
  inf [(R.LINK_CFG_LINK_DEBOUNCE 0, 100)] upState

theorem wit_LinkLoss_1 :
    s_LinkLoss_1.ports.length = 6 ∧ s_LinkLoss_1.rd (R.PORT_STAT_STATE 0) = 3 ∧ s_LinkLoss_1.inf (R.LINK_CFG_LINK_DEBOUNCE 0) ≠ 0 := by decide +kernel

def s_LinkLoss_1b : State :=
  put [(R.PORT_STAT_STATE 0, 4)] State.reset

theorem wit_LinkLoss_1b :
    s_LinkLoss_1b.rd (R.PORT_STAT_STATE 0) = 4 := by decide +kernel

def s_LinkLoss_2 : State :=
  inf [(R.LINK_CFG_LINK_DEBOUNCE 0, 0)] upState

theorem wit_LinkLoss_2 :
    s_LinkLoss_2.rd (R.PORT_STAT_STATE 0) = 3 ∧ s_LinkLoss_2.inf (R.LINK_CFG_LINK_DEBOUNCE 0) = 0 ∧ (next (.linkCauseLost 0 .remoteFault) s_LinkLoss_2).rd (R.PORT_STAT_STATE 0) = 1 := by decide +kernel

def s_LinkLoss_3 : State :=
  withPort 0 (fun q => { q with causes := [.lock, .localFault], debounceSince := some 5 }) (put [(R.PORT_STAT_STATE 0, 5), (R.PORT_STAT_RATE 0, 5)] State.reset)

theorem wit_LinkLoss_3 :
    s_LinkLoss_3.rd (R.PORT_STAT_STATE 0) = 5 := by decide +kernel

def s_LinkLoss_4 : State :=
  put [(R.PORT_STAT_STATE 0, 0)] State.reset

theorem wit_LinkLoss_4 :
    s_LinkLoss_4.rd (R.PORT_STAT_STATE 0) = 0 := by decide +kernel

theorem wit_LinkLoss_5 :
    upState.rd (R.PORT_STAT_STATE 0) = 3 := by decide +kernel

def s_LinkLoss_6 : State :=
  put [(R.PORT_STAT_STATE 0, 4)] State.reset

theorem wit_LinkLoss_6 :
    s_LinkLoss_6.rd (R.PORT_STAT_STATE 0) = 4 := by decide +kernel

theorem wit_LinkLoss_7 :
    upState.bitAt R.ENG_RST_STAT 0 = false := by decide +kernel

theorem wit_LinkLoss_7b :
    upState.bitAt R.ENG_RST_STAT 0 = false ∧ (next (.sxCfgWrite 0 0x00011F30) upState).rd (R.SX_CFG_LPBK 0) = upState.rd (R.SX_CFG_LPBK 0) ∧ (next (.sxCfgWrite 0 0x00011F30) upState).rd (R.SX_CFG_TX_PRE 0) = 3 := by decide +kernel

theorem wit_LinkLoss_7c :
    upState.bitAt R.ENG_RST_STAT 0 = false ∧ (next (.sxCfgWrite 0 0x0000000C) upState).rd (R.SX_CFG_LPBK 0) ≠ upState.rd (R.SX_CFG_LPBK 0) ∧ upState.rd (R.PORT_STAT_STATE 0) ≠ 0 := by decide +kernel

def s_LinkLoss_8 : State :=
  put [(R.ENG_RST_STAT, 32)] upState

theorem wit_LinkLoss_8 :
    s_LinkLoss_8.bitAt R.ENG_RST_STAT 5 = true := by decide +kernel

theorem wit_MdioTransactions_1 :
    State.reset.mdio.length = 2 ∧ State.reset.bit (R.MDIO_CMD_GO 1) = false ∧ State.reset.parked 1 = false ∧ (State.reset.mdioOf 1).running = none := by decide +kernel

def s_MdioTransactions_1b : State :=
  { State.reset with mdio := [⟨none, [], none, 0⟩, ⟨none, [], some (1, ⟨0, 2, 1, 2, 0, 0, 0⟩), 0⟩] }

theorem wit_MdioTransactions_1b :
    s_MdioTransactions_1b.mdio.length = 2 ∧ s_MdioTransactions_1b.bit (R.MDIO_CMD_GO 1) = false ∧ s_MdioTransactions_1b.parked 1 = false ∧ (s_MdioTransactions_1b.mdioOf 1).running ≠ none := by decide +kernel

def s_MdioTransactions_2 : State :=
  put [(R.MDIO_CMD_GO 0, 1)] State.reset

theorem wit_MdioTransactions_2 :
    s_MdioTransactions_2.bit (R.MDIO_CMD_GO 0) = true := by decide +kernel

def s_MdioTransactions_3 : State :=
  put [(R.MDIO_CFG_PARK 0, 1)] State.reset

theorem wit_MdioTransactions_3 :
    s_MdioTransactions_3.bit (R.MDIO_CMD_GO 0) = false ∧ s_MdioTransactions_3.parked 0 = true := by decide +kernel

def s_MdioTransactions_4 : State :=
  { put [(R.MDIO_CMD_GO 0, 1)] State.reset with mdio := [⟨none, [(1, ⟨0, 2, 9, 9, 0, 0, 0⟩)], some (0, ⟨0, 2, 1, 2, 0, 0, 0⟩), 0⟩, ⟨none, [], none, 0⟩] }

theorem wit_MdioTransactions_4 :
    s_MdioTransactions_4.mdio.length = 2 ∧ (s_MdioTransactions_4.mdioOf 0).running = some (0, ⟨0, 2, 1, 2, 0, 0, 0⟩) ∧ (next (.mdioDone 0 true 0xBEEF) s_MdioTransactions_4).rd (R.MDIO_DATA_RDATA 0) = 0xBEEF ∧ s_MdioTransactions_4.parked 0 = false := by decide +kernel

def s_MdioTransactions_4b : State :=
  { put [(R.MDIO_CMD_GO 0, 1)] State.reset with mdio := [⟨none, [], some (0, ⟨0, 1, 1, 2, 0, 0, 0⟩), 0⟩, ⟨none, [], none, 0⟩] }

theorem wit_MdioTransactions_4b :
    (s_MdioTransactions_4b.mdioOf 0).running = some (0, ⟨0, 1, 1, 2, 0, 0, 0⟩) ∧ (MdioTx.reads ⟨0, 1, 1, 2, 0, 0, 0⟩) = false ∧ ((next (.mdioDone 0 false 0xBEEF) s_MdioTransactions_4b).mdioOf 0).running = none ∧ s_MdioTransactions_4b.parked 0 = false := by decide +kernel

def s_MdioTransactions_5 : State :=
  put [(R.MDIO_CFG_RETRY 0, 1)] { State.reset with mdio := [⟨none, [], some (1, ⟨0, 2, 1, 2, 0, 0, 0⟩), 0⟩, ⟨none, [], none, 0⟩] }

theorem wit_MdioTransactions_5 :
    (s_MdioTransactions_5.mdioOf 0).running = some (1, ⟨0, 2, 1, 2, 0, 0, 0⟩) ∧ 0 < s_MdioTransactions_5.rd (R.MDIO_CFG_RETRY 0) ∧ s_MdioTransactions_5.parked 0 = false := by decide +kernel

def s_MdioTransactions_6 : State :=
  put [(R.MDIO_CFG_RETRY 0, 1), (R.MDIO_CMD_GO 0, 1)] { State.reset with mdio := [⟨none, [], some (0, ⟨0, 2, 1, 2, 0, 0, 1⟩), 0⟩, ⟨none, [], none, 0⟩] }

theorem wit_MdioTransactions_6 :
    (s_MdioTransactions_6.mdioOf 0).running = some (0, ⟨0, 2, 1, 2, 0, 0, 1⟩) ∧ s_MdioTransactions_6.rd (R.MDIO_CFG_RETRY 0) ≤ 1 ∧ s_MdioTransactions_6.parked 0 = false := by decide +kernel

/-! ### Witnesses: c05 -/

def s_Pause_1 : State :=
  withPort 5 (fun q => { q with timers := lmod q.timers 8 (fun _ => some 77) }) (put [(R.FC_STAT_RX_HELD 5, 0x101)] State.reset)

theorem wit_Pause_1 :
    s_Pause_1.ports.length = 6 ∧ (s_Pause_1.port 5).timers.getD 8 none = some 77 ∧ (s_Pause_1.port 5).loads = [] := by decide +kernel

def s_Pause_2 : State :=
  withPort 5 (fun q => { q with wdCount := lmod q.wdCount 0 (fun _ => 32) }) (inf [(R.FC_CFG_WD_MODE 5, 0)] (put [(R.FC_STAT_RX_HELD 5, 0x101)] State.reset))

theorem wit_Pause_2 :
    s_Pause_2.inf (R.FC_WD_PAUSE_WD_LIMIT 5) ≤ (s_Pause_2.port 5).wdCount.getD 0 0 ∧ s_Pause_2.bit (R.FC_STAT_STRICT_LOCK 5) = false ∧ s_Pause_2.inf (R.FC_CFG_WD_MODE 5) = 0 := by decide +kernel

def s_Pause_2b : State :=
  inf [(R.FC_CFG_WD_MODE 5, 1)] s_Pause_2

theorem wit_Pause_2b :
    s_Pause_2b.inf (R.FC_WD_PAUSE_WD_LIMIT 5) ≤ (s_Pause_2b.port 5).wdCount.getD 0 0 ∧ s_Pause_2b.bit (R.FC_STAT_STRICT_LOCK 5) = false ∧ s_Pause_2b.inf (R.FC_CFG_WD_MODE 5) ≠ 0 := by decide +kernel

def s_Pause_3 : State :=
  put [(R.PAUSE_WD_STAT_HOLDING 5, 0x101)] State.reset

theorem wit_Pause_3 :
    s_Pause_3.bitAt (R.PAUSE_WD_STAT_HOLDING 5) 8 = true ∧ (s_Pause_3.port 5).wdHold.getD 8 0 ≤ s_Pause_3.tick.num := by decide +kernel

def s_Pause_4 : State :=
  withPort 0 (fun q => { q with classCells := lmod q.classCells 7 (fun _ => 11) }) (inf [(R.FC_CFG_TX_MODE 0, 2), (R.FC_THR_XOFF 0 7, 10)] upState)

theorem wit_Pause_4 :
    s_Pause_4.inf (R.FC_CFG_TX_MODE 0) = 2 ∧ isUp s_Pause_4 0 = true ∧ s_Pause_4.bitAt (R.FC_STAT_TX_XOFF 0) 7 = false ∧ s_Pause_4.xoffEnters 0 7 = true
      ∧ s_Pause_4.bit R.FLT_STAT_ECLIPSE = false ∧ ((next (.xoffChange 0 7) s_Pause_4).port 0).pauseOut.length = 1 := by decide +kernel

def s_Pause_4b : State :=
  put [(R.FC_STAT_TX_XOFF 0, 1)] (inf [(R.FC_CFG_TX_MODE 0, 1)] s_Pause_4)

theorem wit_Pause_4b :
    s_Pause_4b.inf (R.FC_CFG_TX_MODE 0) = 1 ∧ isUp s_Pause_4b 0 = true ∧ s_Pause_4b.bitAt (R.FC_STAT_TX_XOFF 0) 7 = false ∧ s_Pause_4b.xoffEnters 0 7 = true
      ∧ s_Pause_4b.rd (R.FC_STAT_TX_XOFF 0) ≠ 0 ∧ ((next (.xoffChange 0 7) s_Pause_4b).port 0).pauseOut.length = 0 := by decide +kernel

def s_Pause_5 : State :=
  put [(R.FC_STAT_TX_XOFF 0, 0x80)] (inf [(R.FC_CFG_TX_MODE 0, 2)] upState)

theorem wit_Pause_5 :
    s_Pause_5.inf (R.FC_CFG_TX_MODE 0) = 2 ∧ isUp s_Pause_5 0 = true ∧ s_Pause_5.bitAt (R.FC_STAT_TX_XOFF 0) 7 = true ∧ s_Pause_5.xoffLeaves 0 7 = true
      ∧ s_Pause_5.bit R.FLT_STAT_ECLIPSE = false := by decide +kernel

def s_Pause_5b : State :=
  inf [(R.FC_CFG_TX_MODE 0, 0)] s_Pause_5

theorem wit_Pause_5b :
    s_Pause_5b.bitAt (R.FC_STAT_TX_XOFF 0) 7 = true ∧ s_Pause_5b.xoffLeaves 0 7 = true ∧ s_Pause_5b.inf (R.FC_CFG_TX_MODE 0) = 0 := by decide +kernel

def s_Pause_6 : State :=
  put [(R.FC_STAT_TX_XOFF 0, 0x80), (R.FC_STAT_AN_TX_EN 0, 1)] (inf [(R.FC_CFG_TX_MODE 0, 1)] upState)

theorem wit_Pause_6 :
    s_Pause_6.rd (R.FC_STAT_TX_XOFF 0) ≠ 0 ∧ s_Pause_6.inf (R.FC_CFG_TX_MODE 0) = 1 ∧ s_Pause_6.bit (R.FC_STAT_AN_TX_EN 0) = true ∧ s_Pause_6.bit R.FLT_STAT_ECLIPSE = false ∧ isUp s_Pause_6 0 = true := by decide +kernel

def s_Pause_7 : State :=
  withPort 0 (fun q => { q with xoffTicks := List.replicate 8 255 }) s_Pause_6

theorem wit_Pause_7 :
    s_Pause_7.bitAt (R.FC_STAT_TX_XOFF 0) 7 = true ∧ (s_Pause_7.port 0).capped.getD 7 false = false ∧ (s_Pause_7.port 0).capped.length = 8
      ∧ s_Pause_7.inf (R.FC_XOFF_MAX 0) ≤ (s_Pause_7.port 0).xoffTicks.getD 7 0 := by decide +kernel

/-! ### Witnesses: c06 -/

/-- A cell whose check value is right. -/
def cell0 (i : Nat) : CellRec := ⟨List.replicate 64 3, none, true, false, ccrcOf i (sliceD (List.replicate 64 3) 0 128)⟩
/-- A cell read that meets no fault. -/
def fault0 : CellFault := ⟨0, [0, 0, 0, 0, 0], [], [], 0⟩
def s_StripesRebuild : State :=
  put [(R.BUF_STAT_BANK_FAIL, 4)] State.reset

theorem wit_StripesRebuild :
    (cell0 7).ccrc = ccrcOf 7 (sliceD (cell0 7).bytes 0 128) ∧ fault0.silent = []
      ∧ ((List.range 5).filter (fun k => s_StripesRebuild.bitAt R.BUF_STAT_BANK_FAIL k || fault0.unc.getD k 0 != 0)).length ≤ 1
      ∧ (s_StripesRebuild.readCell 7 (cell0 7) fault0).data = some (sliceD (cell0 7).bytes 0 128) := by decide +kernel

theorem wit_StripesRebuild_b :
    2 ≤ ((List.range 5).filter (fun k => s_StripesRebuild.bitAt R.BUF_STAT_BANK_FAIL k || ({ fault0 with unc := [0, 0, 0, 0, 1] }).unc.getD k 0 != 0)).length := by decide +kernel

def s_BufferReads_1 : State :=
  { State.reset with buf := { Buf.reset with cells := [(49151, some (cell0 49151))] } }

theorem wit_BufferReads_1 :
    mget s_BufferReads_1.buf.cells 49151 = some (some (cell0 49151))
      ∧ (s_BufferReads_1.readCell 49151 (cell0 49151) { fault0 with corrected := 2, unc := [1, 0, 0, 0, 0] }).data.isSome = true := by decide +kernel

theorem wit_BufferReads_2 :
    mget s_BufferReads_1.buf.cells 49151 = some (some (cell0 49151))
      ∧ (s_BufferReads_1.readCell 49151 (cell0 49151) { fault0 with unc := [1, 1, 0, 0, 0] }).data = none ∧ (s_BufferReads_1.frameOfCell 49151).isNone = true := by decide +kernel

def s_BufferReads_3 : State :=
  { put [(R.SCRUB_CFG_EN, 1)] State.reset with buf := { Buf.reset with scrubAt := 49151 } }

theorem wit_BufferReads_3 :
    s_BufferReads_3.bit R.SCRUB_CFG_EN = true ∧ (mgetD s_BufferReads_3.buf.cells s_BufferReads_3.buf.scrubAt none).isNone = true ∧ (next (.bufScrubRead { fault0 with corrected := 1, unc := [1, 0, 0, 0, 0] } false) s_BufferReads_3).buf.scrubAt = 0 := by decide +kernel

theorem wit_BufferReads_3b :
    s_BufferReads_3.bit R.SCRUB_CFG_EN = true ∧ (next (.bufScrubRead fault0 true) s_BufferReads_3).buf.scrubAt = 0 := by decide +kernel

def s_BufferReads_3c : State :=
  put [(R.SCRUB_CFG_EN, 0)] State.reset

theorem wit_BufferReads_3c :
    s_BufferReads_3c.bit R.SCRUB_CFG_EN = false := by decide +kernel

def s_BufferReads_3d : State :=
  { put [(R.SCRUB_CFG_EN, 1)] State.reset with buf := { Buf.reset with scrubRead := some 5 } }

theorem wit_BufferReads_3d :
    s_BufferReads_3d.buf.scrubRead = some 5 := by decide +kernel

def s_BufferReads_4 : State :=
  { put [(R.SCRUB_CFG_EN, 1)] State.reset with buf := { Buf.reset with scrubAt := 9, cells := [(9, some (cell0 9))] } }

theorem wit_BufferReads_4 :
    s_BufferReads_4.bit R.SCRUB_CFG_EN = true ∧ mget s_BufferReads_4.buf.cells s_BufferReads_4.buf.scrubAt = some (some (cell0 9))
      ∧ (s_BufferReads_4.readCell s_BufferReads_4.buf.scrubAt (cell0 9) { fault0 with corrected := 1 }).data.isSome = true ∧ (next (.bufScrubRead { fault0 with corrected := 1 } false) s_BufferReads_4).buf.writeback = some 9 := by decide +kernel

def s_BufferReads_5 : State :=
  { State.reset with buf := { Buf.reset with writeback := some 9, cells := [(9, some (cell0 9))] } }

theorem wit_BufferReads_5 :
    s_BufferReads_5.buf.writeback = some 9 ∧ mget s_BufferReads_5.buf.cells 9 = some (some (cell0 9)) := by decide +kernel

def s_BufferReads_6 : State :=
  { State.reset with buf := { Buf.reset with writeback := some 9 } }

theorem wit_BufferReads_6 :
    s_BufferReads_6.buf.writeback = some 9 ∧ (mgetD s_BufferReads_6.buf.cells 9 none).isNone = true := by decide +kernel

theorem wit_BufferReads_6b :
    s_BufferReads_5.buf.writeback = some 9 := by decide +kernel

def s_BufferReads_7 : State :=
  { State.reset with buf := { Buf.reset with tplPend := [(1023, ⟨true, 14, 0, []⟩)] } }

theorem wit_BufferReads_7 :
    s_BufferReads_7.tplRefs 1023 = 0 ∧ mget s_BufferReads_7.buf.tplPend 1023 = some ⟨true, 14, 0, []⟩ ∧ (⟨true, 14, 0, []⟩ : Tpl) ≠ mgetD s_BufferReads_7.buf.tplForce 1023 ⟨false, 14, 0, []⟩ := by decide +kernel

def s_BufferReads_8 : State :=
  { State.reset with buf := { Buf.reset with tplPend := [(1023, ⟨true, 14, 0, []⟩)], tplRefs := [(1023, 1)] } }

theorem wit_BufferReads_8 :
    s_BufferReads_8.tplRefs 1023 ≠ 0 := by decide +kernel

theorem wit_LedgerMirrors_1 :
    (next (.ledScrub .corrected) State.reset).rd R.MIRROR_ERR_CNT = 1 := by decide +kernel

theorem wit_LedgerMirrors_2 :
    State.reset.bit (mirrorFlag 1) = false ∧ State.reset.bit (mirrorFlag (1 - 1)) = false ∧ (next (.ledMirrorFail 1) State.reset).bit R.LED_STAT_M1_FAIL = true := by decide +kernel

def s_LedgerMirrors_3 : State :=
  put [(R.LED_STAT_M1_FAIL, 1)] State.reset

theorem wit_LedgerMirrors_3 :
    s_LedgerMirrors_3.commitDue = false ∧ s_LedgerMirrors_3.bit (mirrorFlag 0) = false ∧ s_LedgerMirrors_3.bit (mirrorFlag (1 - 0)) = true ∧ s_LedgerMirrors_3.bit R.FLT_STAT_ECLIPSE = false := by decide +kernel

theorem wit_LedgerMirrors_4 :
    State.reset.commitDue = false ∧ State.reset.bit R.LED_STAT_M0_FAIL = false ∧ State.reset.bit R.LED_STAT_M1_FAIL = false ∧ State.reset.bit R.FLT_STAT_ECLIPSE = false := by decide +kernel

def s_LedgerMirrors_5 : State :=
  { put [(R.LED_STAT_REBUILD, 1), (R.LED_STAT_M0_FAIL, 1)] State.reset with led := { Led.reset with rebuilt := 16 } }

theorem wit_LedgerMirrors_5 :
    s_LedgerMirrors_5.bit R.LED_STAT_REBUILD = true ∧ 16 ≤ s_LedgerMirrors_5.led.rebuilt ∧ s_LedgerMirrors_5.bit R.LED_STAT_M0_FAIL = true := by decide +kernel

/-! ### Witnesses: c07 -/

theorem wit_ScrubAndSketch_1 :
    mget State.reset.mas.words State.reset.mas.scrubAt = none := by decide +kernel

def s_ScrubAndSketch_2 : State :=
  { State.reset with mas := { Mas.reset with scrubAt := tableWords - 1 } }

theorem wit_ScrubAndSketch_2 :
    mget s_ScrubAndSketch_2.mas.words s_ScrubAndSketch_2.mas.scrubAt ≠ some .uncorrectable ∧ (next (.tableScrub .corrected []) s_ScrubAndSketch_2).mas.scrubAt = 0 := by decide +kernel

theorem wit_ScrubAndSketch_3 :
    s_ScrubAndSketch_2.mas.reported.contains s_ScrubAndSketch_2.mas.scrubAt = false := by decide +kernel

theorem wit_ScrubAndSketch_3b :
    (next (.tableScrub .clean [(5, .corrected), (tableWords - 1, .uncorrectable)]) s_ScrubAndSketch_2).mas.scrubAt = 0 ∧ (next (.tableScrub .clean [(5, .corrected), (tableWords - 1, .uncorrectable)]) s_ScrubAndSketch_2).mas.words = [(5, .corrected), (tableWords - 1, .uncorrectable)] := by decide +kernel

theorem wit_ScrubAndSketch_4 :
    State.reset.bitAt R.ENG_RST_STAT 6 = false ∧ State.reset.bit R.SKETCH_STAT_CLEARING = false := by decide +kernel

def s_ScrubAndSketch_5 : State :=
  { put [(R.SKETCH_STAT_CLEARING, 1)] State.reset with mas := { Mas.reset with sketchClear := some (0, 10), sketch := [(5, 3), (8191, 4)] } }

theorem wit_ScrubAndSketch_5 :
    s_ScrubAndSketch_5.mas.sketchClear = some (0, 10) := by decide +kernel

theorem wit_ScrubAndSketch_6 :
    State.reset.bitAt R.ENG_RST_STAT 6 = false := by decide +kernel

def s_CounterReads_1 : State :=
  { State.reset with mas := { Mas.reset with hits := [(0, 5)] } }

theorem wit_CounterReads_1 :
    s_CounterReads_1.barOn 16 = true ∧ ((next (.hitWordRead .owner) s_CounterReads_1).mas.hits).length = 0 := by decide +kernel

def s_CounterReads_2 : State :=
  { State.reset with mas := { Mas.reset with counters := [(0, (2 ^ 33 + 5, 2 ^ 34 + 6))] } }

theorem wit_CounterReads_2 :
    s_CounterReads_2.barOn 16 = true ∧ (next (.cntPktLoRead .owner) s_CounterReads_2).latch .owner R.CNT_PKT_HI = 2 := by decide +kernel

def s_CounterReads_3 : State :=
  inf [(R.PART_CNT_CNT_BASE 15, 3), (R.PART_CNT_CNT_NUM 15, 1)] { State.reset with hif := { Hif.reset with numVfs := 16 }, now := 10000000000 }

theorem wit_CounterReads_3 :
    s_CounterReads_3.barOn 15 = true ∧ s_CounterReads_3.rd (R.TCNT_SEL 15) < s_CounterReads_3.inf (R.PART_CNT_CNT_NUM 15) := by decide +kernel

def s_CounterReads_4 : State :=
  put [(R.TCNT_SEL 15, 1)] s_CounterReads_3

theorem wit_CounterReads_4 :
    s_CounterReads_4.barOn 15 = true ∧ s_CounterReads_4.inf (R.PART_CNT_CNT_NUM 15) ≤ s_CounterReads_4.rd (R.TCNT_SEL 15) := by decide +kernel

def s_CounterReads_5 : State :=
  { State.reset with mas := { Mas.reset with counters := [(1023, (1, 2))] } }

theorem wit_CounterReads_5 :
    s_CounterReads_5.bitAt R.ENG_RST_STAT 6 = false := by decide +kernel

def s_CounterReads_6 : State :=
  put [(R.ENG_RST_STAT, 64)] State.reset

theorem wit_CounterReads_6 :
    s_CounterReads_6.bitAt R.ENG_RST_STAT 6 = true := by decide +kernel

def s_TableStaging_1 : State :=
  put [(R.TBL_STG_IDX, 32767)] State.reset

theorem wit_TableStaging_1 :
    s_TableStaging_1.bitAt R.ENG_RST_STAT 6 = false ∧ s_TableStaging_1.bit R.FLT_STAT_ECLIPSE = false ∧ s_TableStaging_1.tick.commitAt = none ∧ s_TableStaging_1.mas.stgGo ≤ s_TableStaging_1.now ∧ s_TableStaging_1.stgBank = some 0
      ∧ s_TableStaging_1.rd R.TBL_STG_SEL = 0 ∧ s_TableStaging_1.rd R.TBL_STG_IDX < 32768 ∧ s_TableStaging_1.stgExact.2 = false ∧ (s_TableStaging_1.mas.banks.getD 0 Overlay.reset).exact.length < 512 := by decide +kernel

def s_TableStaging_2 : State :=
  put [(R.TBL_STG_IDX, 1023), (R.TBL_STG_SEL, 1)] State.reset

theorem wit_TableStaging_2 :
    s_TableStaging_2.stgBank = some 0 ∧ s_TableStaging_2.rd R.TBL_STG_SEL = 1 ∧ s_TableStaging_2.rd R.TBL_STG_IDX < 1024 ∧ s_TableStaging_2.stgTern.2 = false
      ∧ (s_TableStaging_2.mas.banks.getD 0 Overlay.reset).tern.length < 64 := by decide +kernel

def s_TableStaging_3 : State :=
  put [(R.TBL_STG_IDX, 511), (R.TBL_STG_SEL, 2)] State.reset

theorem wit_TableStaging_3 :
    s_TableStaging_3.stgBank = some 0 ∧ 2 ≤ s_TableStaging_3.rd R.TBL_STG_SEL ∧ s_TableStaging_3.rd R.TBL_STG_IDX < 512 ∧ s_TableStaging_3.stgPol.2 = false
      ∧ (s_TableStaging_3.mas.banks.getD 0 Overlay.reset).pol.length < 64 := by decide +kernel

def s_TableStaging_4 : State :=
  put [(R.FLT_STAT_ECLIPSE, 1)] State.reset

theorem wit_TableStaging_4 :
    s_TableStaging_4.bitAt R.ENG_RST_STAT 6 = false ∧ s_TableStaging_4.bit R.FLT_STAT_ECLIPSE = true ∧ s_TableStaging_4.commitDue = false := by decide +kernel

theorem wit_TableStaging_5 :
    (next (.tblRdIdxWrite 0x7FFF) State.reset).rd R.TBL_RD_IDX = 0x7FFF := by decide +kernel

def s_OverlayAndSweep_1 : State :=
  { State.reset with mas := { Mas.reset with banks := [Overlay.reset, { Overlay.reset with state := .active }] } }

theorem wit_OverlayAndSweep_1 :
    (s_OverlayAndSweep_1.mas.banks.getD 1 Overlay.reset).state = .active ∧ (s_OverlayAndSweep_1.mas.banks.getD 1 Overlay.reset).epoch ≤ s_OverlayAndSweep_1.oldestEpoch
      ∧ (s_OverlayAndSweep_1.mas.banks.getD 0 Overlay.reset).state ≠ .copying ∧ (s_OverlayAndSweep_1.mas.banks.getD 0 Overlay.reset).state ≠ .active := by decide +kernel

def s_OverlayAndSweep_2 : State :=
  { State.reset with mas := { Mas.reset with banks := [Overlay.reset, { Overlay.reset with state := .copying, pol := [(9, ⟨1, 2, 3, 4, true, false⟩)], exact := [(7, ⟨[], 1, true, []⟩)], tern := [(8, ⟨[], [], 1, true, []⟩)] }] } }

theorem wit_OverlayAndSweep_2 :
    s_OverlayAndSweep_2.mas.banks[1]? = some { Overlay.reset with state := .copying, pol := [(9, ⟨1, 2, 3, 4, true, false⟩)], exact := [(7, ⟨[], 1, true, []⟩)], tern := [(8, ⟨[], [], 1, true, []⟩)] } := by decide +kernel

theorem wit_OverlayAndSweep_3 :
    State.reset.now ≤ (next (.policerSweep 511) State.reset).now := by decide +kernel

/-! ### Witnesses: c08 -/

/-- A context in classification or resolution stands in a place whose next word is an instruction. -/
def hacState (a : HacAt) (op : Nat) (f1 f2 : BitVec 4) (f3 f4 : BitVec 8) (imm : BitVec 32) (c : Ctx) : State :=
  let s : State := { State.reset with frames := [(0, { frame0 with cells := [], len := 64 })], mas := { Mas.reset with store := [(0, hacEncode op f1 f2 f3 f4 imm)], lanes := lmod Mas.reset.lanes 3 (fun _ => ⟨some (0, c), [], none⟩) } }
  match a with
  | .cls b => withArr b { arr0 (.port 0) 64 with ctx := some c } s
  | .res _ => s

/-- Each of these instructions issues in the place. -/
def hacAll (a : HacAt) (c : Ctx) (b : List Byte) (l : List (Nat × BitVec 4 × BitVec 4 × BitVec 8 × BitVec 8 × BitVec 32)) : Prop :=
  ∀ x ∈ l, (hacState a x.1 x.2.1 x.2.2.1 x.2.2.2.1 x.2.2.2.2.1 x.2.2.2.2.2 c).Issues a x.1 x.2.1 x.2.2.1 x.2.2.2.1 x.2.2.2.2.1 x.2.2.2.2.2 c b

/-- A context in classification with an exit and a flow. -/
def clsCtx0 : Ctx := { ctx0 false with exits := [exit0 1 0], flow := some 1 }

/-- The word of the exit to queue 0 of port 1. -/
def exitWord0 : Qword := 1

/-- A context in resolution with an exit. -/
def resCtx0 : Ctx := { ctx0 true with exits := [exit0 1 0], disps := [none], x := [0, 0, 0, 0, 0, 0, 0, 1, 0, 7, 0, 0, 0, 0, 1, 0] }

theorem wit_HacArithmetic :
    hacAll (.res 3) resCtx0 [] [(0x10, 1, 0, 0, 0, 9), (0x11, 1, 0, 0, 0, 9), (0x28, 1, 0, 1, 0, 9), (0x20, 1, 2, 0, 3, 0),
      (0x21, 1, 2, 0, 3, 0), (0x22, 1, 2, 0, 3, 0), (0x23, 1, 2, 0, 3, 0), (0x24, 1, 2, 0, 3, 0), (0x25, 1, 2, 0, 3, 0),
      (0x26, 1, 2, 0, 3, 0), (0x27, 0, 2, 0, 3, 0)] := by unfold hacAll State.Issues; decide +kernel

theorem wit_HacBytes :
    hacAll (.res 3) resCtx0 [] [(0x04, 0, 0, 0, 0, 9), (0x12, 1, 0, 120, 8, 0), (0x13, 1, 7, 28, 4, 0), (0x14, 0, 7, 0, 16, 16),
      (0x15, 0, 7, 0, 16, 16), (0x45, 0, 0, 0xFF, 4, 0), (0x46, 0, 1, 0, 32, 0)] := by unfold hacAll State.Issues; decide +kernel

theorem wit_HacChoices :
    hacAll (.cls (.rx 0 false)) clsCtx0 (arr0 (.port 0) 64).bytes [(0x32, 0, 0, 1, 0, 16), (0x40, 0, 0, 1, 0, 4095), (0x43, 0, 0, 1, 0, 0xFFFF),
      (0x30, 1, 0, 0, 0, 0), (0x31, 1, 0, 0, 0, 0), (0x41, 0, 1, 0, 0, 0)] ∧ srcTenant clsCtx0.src = none := by unfold hacAll State.Issues; decide +kernel

theorem wit_HacChoices_b :
    ((hacState (.cls (.rx 0 false)) 0x30 1 0 0 0 0 clsCtx0).lookupExact 0 0 (clsCtx0.k.take 16)).bad = none
      ∧ ((hacState (.cls (.rx 0 false)) 0x31 1 0 0 0 0 clsCtx0).lookupTern 0 0 (clsCtx0.k.drop 16)).bad = none
      ∧ (addExit ((hacState (.cls (.rx 0 false)) 0x41 0 1 0 0 0 clsCtx0).spend 0 1) clsCtx0.exits (clsCtx0.reg 1)).isRight = true := by decide +kernel

theorem wit_HacChoices_c :
    hacAll (.cls (.rx 0 false)) { resCtx0 with resolving := false } (arr0 (.port 0) 64).bytes [(0x42, 0, 0, 0, 0, 0)]
      ∧ ((resCtx0.x.getD 14 0) &&& 1) = 1 ∧ beNat (sliceD resCtx0.x 8 2) < 4096 ∧ srcTenant resCtx0.src = none
      ∧ (addExit ((hacState (.cls (.rx 0 false)) 0x42 0 0 0 0 0 { resCtx0 with resolving := false }).spend 0 1) resCtx0.exits (BitVec.ofNat 64 (beNat (sliceD resCtx0.x 0 8)))).isRight = true := by unfold hacAll State.Issues; decide +kernel

theorem wit_HacChoices_d :
    hacAll (.res 3) { resCtx0 with g := lmod resCtx0.g 1 (fun _ => exitWord0) } [] [(0x44, 0, 1, 0, 0, 0)] ∧ exitReserved exitWord0 = false
      ∧ (exitOf exitWord0).dest = (exit0 1 0).dest ∧ (exitOf exitWord0).sub = 0 ∧ (exitOf exitWord0).mirror = false ∧ (exitOf exitWord0).draws = false := by unfold hacAll State.Issues; decide +kernel

theorem wit_HacUnits :
    hacAll (.res 3) resCtx0 [] [(0x47, 0, 0, 0, 0, 127), (0x50, 1, 2, 0, 0, 511), (0x51, 0, 0, 0, 0, 1023), (0x60, 3, 2, 8, 4, 7), (0x61, 3, 2, 0, 0, 0),
      (0x62, 0, 0, 0, 0, 0)] ∧ srcTenant resCtx0.src = none ∧ jobRange (resCtx0.reg 4) 64 = some (0, 60) ∧ (hacState (.res 3) 0x61 3 2 0 0 0 resCtx0).unitsSync.Issues (.res 3) 0x61 3 2 0 0 0 resCtx0 []
      ∧ (hacState (.res 3) 0x61 3 2 0 0 0 resCtx0).unitsSync.dge.clearing = none := by unfold hacAll State.Issues; decide +kernel

theorem wit_HacUnits_b :
    (hacState (.res 3) 0x50 1 2 0 0 511 resCtx0).partIndex resCtx0 R.PART_POL_POL_BASE R.PART_POL_POL_NUM 511 = some 511
      ∧ (hacState (.res 3) 0x51 0 0 0 0 1023 resCtx0).partIndex resCtx0 R.PART_CNT_CNT_BASE R.PART_CNT_CNT_NUM 1023 = some 1023 := by decide +kernel

theorem wit_HacEnds :
    hacAll (.cls (.host 16 3)) clsCtx0 (arr0 (.port 0) 64).bytes [(0x01, 0, 0, 0, 0, 0), (0x02, 0, 0, 0, 0, 0), (0x03, 0, 0, 0xC0, 0, 0)]
      ∧ clsCtx0.exits ≠ [] ∧ clsCtx0.flow = some 1 ∧ (hacState (.cls (.host 16 3)) 1 0 0 0 0 0 clsCtx0).genOk 0 1 clsCtx0.exits = true := by unfold hacAll State.Issues; decide +kernel

theorem wit_HacEnds_b :
    hacAll (.cls (.host 16 3)) (ctx0 false) (arr0 (.port 0) 64).bytes [(0x02, 0, 0, 0, 0, 0)] ∧ (ctx0 false).exits = []
      ∧ hacAll (.res 3) resCtx0 [] [(0x01, 0, 0, 0, 0, 0)]
      ∧ opInfo (insOf ((hacState (.cls (.rx 0 false)) 0x05 0 0 0 0 0 clsCtx0).hacWord 0)).op = none := by unfold hacAll State.Issues; decide +kernel

/-! ### Witnesses: c09 -/

/-- A frame of 60 bytes and its FCS. -/
def frameBytes0 : List Byte := withFcs (List.replicate 60 5)

/-- The entry of an exit to queue 7 of port 0, that waits in its queue. -/
def entry0 : Entry := ⟨0, 0, 1, 1, 2, 0, 7, false, false, false, false, 0⟩

/-- A queued frame. -/
def item0 : QItem := ⟨0, 0, 100, 64, 0, 0, none, false, false, false⟩

/-- A frame waits in queue 7 of port 0, up at 10 Gb/s. -/
def queued0 : State :=
  withPort 0 (fun q => { q with queues := lmod q.queues 7 (fun _ => [item0]) })
    { upState with frames := [(0, { frame0 with exits := [⟨exit0 0 7, 0, 0, 0, none⟩], resolved := true })], led := { Led.reset with entries := [(0, entry0)] }
                   buf := { Buf.reset with cells := [(0, some ⟨frameBytes0, none, true, false, ccrcOf 0 frameBytes0⟩)] } }

def s_GatesAndLaunches_1 : State :=
  withPort 0 (fun q => { q with oper := [0x80 + 1024 * 100, 0x101, 0x20F] }) (put [(R.QPORT_STAT_PREEMPT_ACTIVE 0, 1)] (inf [(R.QPORT_CFG_GATE_EN 0, 1)] upState))

theorem wit_GatesAndLaunches_1 :
    s_GatesAndLaunches_1.ports.length = 6 ∧ s_GatesAndLaunches_1.gateEn 0 = true ∧ (s_GatesAndLaunches_1.port 0).gclFrom ≤ s_GatesAndLaunches_1.tick.num ∧ (s_GatesAndLaunches_1.port 0).operEntry + 1 < (s_GatesAndLaunches_1.port 0).oper.length
      ∧ s_GatesAndLaunches_1.preemptOn 0 = true ∧ gclOp ((s_GatesAndLaunches_1.port 0).oper.getD ((s_GatesAndLaunches_1.port 0).operEntry + 1) 0xFF) = 1 := by decide +kernel

def s_GatesAndLaunches_1b : State :=
  withPort 0 (fun q => { q with operEntry := 1 }) s_GatesAndLaunches_1

theorem wit_GatesAndLaunches_1b :
    (s_GatesAndLaunches_1b.port 0).operEntry + 1 < (s_GatesAndLaunches_1b.port 0).oper.length ∧ gclOp ((s_GatesAndLaunches_1b.port 0).oper.getD ((s_GatesAndLaunches_1b.port 0).operEntry + 1) 0xFF) = 2 := by decide +kernel

def s_GatesAndLaunches_2 : State :=
  withPort 0 (fun q => { q with gclPend := some ([0x80, 3], 2 ^ 40 - 1) }) upState

theorem wit_GatesAndLaunches_2 :
    s_GatesAndLaunches_2.now = s_GatesAndLaunches_2.tick.start ∧ (s_GatesAndLaunches_2.port 0).gclPend = some ([0x80, 3], 2 ^ 40 - 1) ∧ inFuture (2 ^ 40 - 1) (s_GatesAndLaunches_2.short 0) = false := by decide +kernel

def s_GatesAndLaunches_3 : State :=
  withPort 0 (fun q => { q with gclPend := some ([0x80, 3], 99) }) upState

theorem wit_GatesAndLaunches_3 :
    (s_GatesAndLaunches_3.port 0).gclPend = some ([0x80, 3], 99) ∧ inFuture 99 (s_GatesAndLaunches_3.short 0) = true := by decide +kernel

theorem wit_GatesAndLaunches_4 :
    queued0.now = queued0.tick.start ∧ queued0.missed 0 7 ≠ [] := by decide +kernel

def s_GatesAndLaunches_5 : State :=
  withPort 0 (fun q => { q with queues := lmod q.queues 7 (fun _ => [{ item0 with launch := some 5000 }]) }) queued0

theorem wit_GatesAndLaunches_5 :
    s_GatesAndLaunches_5.head 0 7 = some { item0 with launch := some 5000 } ∧ inFuture 5000 (s_GatesAndLaunches_5.planeShort 0) = true := by decide +kernel

def s_GatesAndLaunches_5b : State :=
  inf [(R.Q_LT_WINDOW 0 7, 9999)] <| withPort 0 (fun q => { q with queues := lmod q.queues 7 (fun _ => [{ item0 with launch := some (2 ^ 40 - 1) }]) }) queued0

theorem wit_GatesAndLaunches_5b :
    s_GatesAndLaunches_5b.head 0 7 = some { item0 with launch := some (2 ^ 40 - 1) } ∧ inFuture (2 ^ 40 - 1) (s_GatesAndLaunches_5b.planeShort 0) = false ∧ (s_GatesAndLaunches_5b.planeShort 0 + 2 ^ 40 - (2 ^ 40 - 1)) % 2 ^ 40 ≤ s_GatesAndLaunches_5b.inf (R.Q_LT_WINDOW 0 7) := by decide +kernel

def s_GatesAndLaunches_5c : State :=
  inf [(R.Q_LT_WINDOW 0 7, 0), (R.Q_CFG_LT_ACT 0 7, 0)] (withPort 0 (fun q => { q with queues := lmod q.queues 7 (fun _ => [{ item0 with launch := some (2 ^ 40 - 1) }]) }) queued0)

theorem wit_GatesAndLaunches_5c :
    s_GatesAndLaunches_5c.head 0 7 = some { item0 with launch := some (2 ^ 40 - 1) } ∧ inFuture (2 ^ 40 - 1) (s_GatesAndLaunches_5c.planeShort 0) = false
      ∧ s_GatesAndLaunches_5c.inf (R.Q_LT_WINDOW 0 7) < (s_GatesAndLaunches_5c.planeShort 0 + 2 ^ 40 - (2 ^ 40 - 1)) % 2 ^ 40 ∧ s_GatesAndLaunches_5c.inf (R.Q_CFG_LT_ACT 0 7) ≠ 1 := by decide +kernel

def s_GatesAndLaunches_5d : State :=
  inf [(R.Q_CFG_LT_ACT 0 7, 1)] s_GatesAndLaunches_5c

theorem wit_GatesAndLaunches_5d :
    s_GatesAndLaunches_5d.head 0 7 = some { item0 with launch := some (2 ^ 40 - 1) } ∧ s_GatesAndLaunches_5d.inf (R.Q_LT_WINDOW 0 7) < (s_GatesAndLaunches_5d.planeShort 0 + 2 ^ 40 - (2 ^ 40 - 1)) % 2 ^ 40
      ∧ s_GatesAndLaunches_5d.inf (R.Q_CFG_LT_ACT 0 7) = 1 ∧ (mget s_GatesAndLaunches_5d.frames 0).map (fun f => f.exits.map (·.disp)) = some [none] ∧ mget s_GatesAndLaunches_5d.led.entries 0 = some entry0 := by decide +kernel

def s_GatesAndLaunches_6 : State :=
  inf [(R.QPORT_CFG_PREEMPT_EN 0, 1)] upState

theorem wit_GatesAndLaunches_6 :
    s_GatesAndLaunches_6.inf (R.QPORT_CFG_PREEMPT_EN 0) = 1 ∧ s_GatesAndLaunches_6.looped 0 = false := by decide +kernel

theorem wit_GatesAndLaunches_6b :
    upState.inf (R.QPORT_CFG_PREEMPT_EN 0) ≠ 1 := by decide +kernel

def s_GatesAndLaunches_7 : State :=
  put [(R.QPORT_STAT_VERIFY_STATE 0, 2)] upState

theorem wit_GatesAndLaunches_7 :
    s_GatesAndLaunches_7.rd (R.QPORT_STAT_VERIFY_STATE 0) = 2 ∧ s_GatesAndLaunches_7.preemptOn 0 = false := by decide +kernel

theorem wit_GatesAndLaunches_8 :
    s_GatesAndLaunches_7.rd (R.QPORT_STAT_VERIFY_STATE 0) = 2 ∧ (s_GatesAndLaunches_7.port 0).verifyCount < s_GatesAndLaunches_7.inf (R.QPORT_CFG_VERIFY_LIMIT 0) ∧ s_GatesAndLaunches_7.looped 0 = false := by decide +kernel

def s_GatesAndLaunches_9 : State :=
  withPort 0 (fun q => { q with verifyCount := 3 }) s_GatesAndLaunches_7

theorem wit_GatesAndLaunches_9 :
    s_GatesAndLaunches_9.rd (R.QPORT_STAT_VERIFY_STATE 0) = 2 ∧ s_GatesAndLaunches_9.inf (R.QPORT_CFG_VERIFY_LIMIT 0) ≤ (s_GatesAndLaunches_9.port 0).verifyCount := by decide +kernel

/-- The state in which the frame of queue 7 is selected to be staged. -/
def staging0 : State := (queued0.syncPort 0).judgeLaunches 0

/-- The frame that waits in queue 7. -/
def frame1 : Frame := { frame0 with exits := [⟨exit0 0 7, 0, 0, 0, none⟩], resolved := true }

theorem wit_FramesLeave_1 :
    staging0.preemptOn 0 = false ∧ staging0.selectQ 0 (fun q => !staging0.isExpress 0 q) = some 7 ∧ staging0.head 0 7 = some item0
      ∧ staging0.slotOf 0 item0 = none ∧ staging0.slotFor 0 7 = some 0 ∧ mget (staging0.releaseSlot 0 0).frames 0 = some frame1
      ∧ mget (staging0.releaseSlot 0 0).led.entries 0 = some entry0 ∧ (staging0.releaseSlot 0 0).provenBytes frame1 = some frameBytes0
      ∧ (staging0.releaseSlot 0 0).wireForm frame1 (exit0 0 7) frameBytes0 = some frameBytes0
      ∧ ((staging0.releaseSlot 0 0).port 0).slots.length = 3 ∧ (staging0.releaseSlot 0 0).ports.length = 6 := by decide +kernel

def s_FramesLeave_2 : State :=
  withPort 0 (fun q => { q with pauseOut := [frameBytes0], gapUntil := 500 }) upState

theorem wit_FramesLeave_2 :
    isUp s_FramesLeave_2 0 = true ∧ s_FramesLeave_2.bitAt R.ENG_RST_STAT 0 = false ∧ s_FramesLeave_2.bitAt R.ENG_RST_STAT 7 = false ∧ (s_FramesLeave_2.port 0).tx = none
      ∧ (s_FramesLeave_2.afterGap 0).ports.length = 6 ∧ ((s_FramesLeave_2.afterGap 0).port 0).pauseOut = [frameBytes0] := by decide +kernel

def s_FramesLeave_3 : State :=
  next (.stageFrame 0) queued0

theorem wit_FramesLeave_3 :
    isUp s_FramesLeave_3 0 = true ∧ s_FramesLeave_3.bitAt R.ENG_RST_STAT 0 = false ∧ s_FramesLeave_3.bitAt R.ENG_RST_STAT 7 = false ∧ (s_FramesLeave_3.port 0).tx = none
      ∧ (s_FramesLeave_3.afterGap 0).ports.length = 6 ∧ ((s_FramesLeave_3.afterGap 0).port 0).pauseOut = [] ∧ ((s_FramesLeave_3.afterGap 0).port 0).preempted = none
      ∧ (s_FramesLeave_3.afterGap 0).selectQ 0 (fun _ => true) = some 7 ∧ (s_FramesLeave_3.afterGap 0).head 0 7 = some item0
      ∧ (s_FramesLeave_3.afterGap 0).slotOf 0 item0 = some 0 ∧ ((s_FramesLeave_3.afterGap 0).port 0).slots.getD 0 none = some ⟨7, 0, 0, frameBytes0⟩ := by decide +kernel

def s_FramesLeave_4 : State :=
  next (.txStart 0) s_FramesLeave_3

theorem wit_FramesLeave_4 :
    (s_FramesLeave_4.port 0).tx.isSome = true ∧ s_FramesLeave_4.looped 0 = false ∧ ((s_FramesLeave_4.port 0).tx.map (·.pm)) = some none ∧ ((s_FramesLeave_4.port 0).tx.bind (·.item)) = some (0, 0)
      ∧ (mget s_FramesLeave_4.frames 0).map (fun f => f.exits.map (·.disp)) = some [none] ∧ (mget s_FramesLeave_4.led.entries 0).isSome = true := by decide +kernel

def s_FramesLeave_4b : State :=
  next (.txStart 0) (put [(R.QPORT_STAT_PREEMPT_ACTIVE 0, 1)] s_FramesLeave_3)

theorem wit_FramesLeave_4b :
    (s_FramesLeave_4b.port 0).tx.isSome = true ∧ s_FramesLeave_4b.looped 0 = false ∧ ((s_FramesLeave_4b.port 0).tx.map (·.pm)) = some (some 0) := by decide +kernel

/-! ### Witnesses: c10 -/

def s_RecoveryReset : State :=
  put [(R.REC_STAT_TAKE_ANY 127, 0), (R.REC_HISTORY 127, 5)] State.reset

theorem wit_RecoveryReset :
    s_RecoveryReset.bitAt R.ENG_RST_STAT 6 = false ∧ (next (.recReset 127) s_RecoveryReset).rd (R.REC_HISTORY 127) = 0 := by decide +kernel

def s_StreamFunctions_1 : State :=
  put [(R.GEN_SEQ 63, 7)] State.reset

theorem wit_StreamFunctions_1 :
    s_StreamFunctions_1.bitAt R.ENG_RST_STAT 6 = false := by decide +kernel

def s_StreamFunctions_2 : State :=
  inf [(R.REC_RESET_TICKS 127, 10)] { State.reset with mas := { Mas.reset with recTimer := [(127, 5)] }, tick := { Tick.reset with num := 15 } }

theorem wit_StreamFunctions_2 :
    mget s_StreamFunctions_2.mas.recTimer 127 = some 5 ∧ 5 + s_StreamFunctions_2.inf (R.REC_RESET_TICKS 127) ≤ s_StreamFunctions_2.tick.num := by decide +kernel

def s_StreamFunctions_3 : State :=
  { s_StreamFunctions_2 with tick := { Tick.reset with num := 14 } }

theorem wit_StreamFunctions_3 :
    mget s_StreamFunctions_3.mas.recTimer 127 = some 5 ∧ s_StreamFunctions_3.tick.num < 5 + s_StreamFunctions_3.inf (R.REC_RESET_TICKS 127) := by decide +kernel

def s_StreamFunctions_4 : State :=
  inf [(R.REC_CFG_LAT_EN 127, 1), (R.LAT_TEST_TICKS 127, 5), (R.LAT_RESET_TICKS 127, 5), (R.LAT_DIFF 127, 3), (R.REC_CFG_LAT_PATHS 127, 2)] { State.reset with mas := { Mas.reset with latCounts := [(127, (10, 7))] }, tick := { Tick.reset with num := 10 } }

theorem wit_StreamFunctions_4 :
    s_StreamFunctions_4.latentDue 127 (s_StreamFunctions_4.inf (R.LAT_TEST_TICKS 127)) = true ∧ mgetD s_StreamFunctions_4.mas.latTested 127 0 ≠ s_StreamFunctions_4.tick.num ∧ mgetD s_StreamFunctions_4.mas.latCounts 127 (0, 0) = (10, 7)
      ∧ ((10 * (s_StreamFunctions_4.inf (R.REC_CFG_LAT_PATHS 127) - 1) : Nat) - (7 : Int)).natAbs ≤ s_StreamFunctions_4.inf (R.LAT_DIFF 127) := by decide +kernel

def s_StreamFunctions_4b : State :=
  { s_StreamFunctions_4 with mas := { Mas.reset with latCounts := [(127, (10, 14))] } }

theorem wit_StreamFunctions_4b :
    s_StreamFunctions_4b.latentDue 127 (s_StreamFunctions_4b.inf (R.LAT_TEST_TICKS 127)) = true ∧ mgetD s_StreamFunctions_4b.mas.latTested 127 0 ≠ s_StreamFunctions_4b.tick.num ∧ mgetD s_StreamFunctions_4b.mas.latCounts 127 (0, 0) = (10, 14)
      ∧ s_StreamFunctions_4b.inf (R.LAT_DIFF 127) < ((10 * (s_StreamFunctions_4b.inf (R.REC_CFG_LAT_PATHS 127) - 1) : Nat) - (14 : Int)).natAbs := by decide +kernel

def s_StreamFunctions_4c : State :=
  { s_StreamFunctions_4b with mas := { Mas.reset with latCounts := [(127, (10, 14))], latTested := [(127, 10)] } }

theorem wit_StreamFunctions_4c :
    mgetD s_StreamFunctions_4c.mas.latTested 127 0 = s_StreamFunctions_4c.tick.num := by decide +kernel

theorem wit_StreamFunctions_5 :
    s_StreamFunctions_4b.latentDue 127 (s_StreamFunctions_4b.inf (R.LAT_RESET_TICKS 127)) = true ∧ (next (.latentReset 127) s_StreamFunctions_4b).bit (R.REC_STAT_LATENT 127) = true := by decide +kernel

/-! ### Witnesses: c11 -/

def s_FunctionResets_1 : State :=
  put [(R.HIF_STAT_READY, 1)] State.reset

theorem wit_FunctionResets_1 :
    s_FunctionResets_1.hif.numVfs = 0 ∧ s_FunctionResets_1.bit R.HIF_STAT_READY = true ∧ s_FunctionResets_1.bitAt R.HIF_FLR_STAT 16 = false ∧ s_FunctionResets_1.bit R.HIF_STAT_FW_LATE = false := by decide +kernel

theorem wit_FunctionResets_1c :
    State.reset.bit R.HIF_STAT_READY = false ∧ (next (.vfEnableSet 3 true) State.reset).sent = [.config 16 .retry] := by decide +kernel

def s_FunctionResets_2 : State :=
  { put [(R.HIF_STAT_READY, 1), (R.TCNT_SEL 1, 5), (R.EL_FLOW_SEL 1, 3), (R.RING_CFG_BUF_SIZE 1 4, 2000)] State.reset with hif := { Hif.reset with numVfs := 2, quotaReset := 2 }, now := 100000 * 64, irc := { Irc.reset with src := [(10, { IrqSrc.reset with cnt := 3 }), (171, { IrqSrc.reset with cnt := 3 }), (230, { IrqSrc.reset with cnt := 4 })] }, events := [(1, [])], latches := [(32 * 5 + 2, 7)] }

theorem wit_FunctionResets_2 :
    s_FunctionResets_2.hif.numVfs = 2 ∧ s_FunctionResets_2.bit R.HIF_STAT_READY = true ∧ s_FunctionResets_2.bitAt R.HIF_FLR_STAT 16 = false := by decide +kernel

theorem wit_FunctionResets_3 :
    s_FunctionResets_2.bit R.HIF_STAT_READY = true ∧ s_FunctionResets_2.addressable 1 = true ∧ s_FunctionResets_2.bitAt R.HIF_FLR_STAT 1 = false ∧ s_FunctionResets_2.bitAt R.ENG_RST_STAT 8 = false
      ∧ s_FunctionResets_2.dge.ctxs.length = 17 := by decide +kernel

theorem wit_FunctionResets_4 :
    s_FunctionResets_2.bit R.HIF_STAT_READY = true ∧ s_FunctionResets_2.hif.numVfs ≤ 2 := by decide +kernel

def s_FunctionResets_5 : State :=
  { s_FunctionResets_2 with tick := { Tick.reset with commitAt := some 4, told := some .uart } }

theorem wit_FunctionResets_5 :
    s_FunctionResets_5.bit R.HIF_STAT_READY = true ∧ s_FunctionResets_5.bitAt R.ENG_RST_STAT 8 = false ∧ s_FunctionResets_5.bitAt R.HIF_FLR_STAT 16 = false ∧ s_FunctionResets_5.Canonical := by unfold State.Canonical; decide +kernel

def s_FunctionResets_6 : State :=
  let s := next (.flrInitiate 1) s_FunctionResets_2; { s with hif := { s.hif with quotaReset := 2 } }

theorem wit_FunctionResets_6 :
    s_FunctionResets_6.bitAt R.HIF_FLR_STAT 1 = true ∧ s_FunctionResets_6.con.serving ≠ some (.tenant 1) ∧ s_FunctionResets_6.hif.quotaReset.testBit 1 = true := by decide +kernel

theorem wit_LinkAndQuiesce_1 :
    s_FunctionResets_2.bit R.HIF_STAT_READY = true ∧ s_FunctionResets_2.addressable 16 = true ∧ s_FunctionResets_2.bitAt R.HIF_FLR_STAT 16 = false ∧ ((next (.quiesce 16 .d3hot) s_FunctionResets_2).pci 16).d3 = true := by decide +kernel

theorem wit_LinkAndQuiesce_1b :
    s_FunctionResets_2.addressable 1 = true ∧ s_FunctionResets_2.bitAt R.HIF_FLR_STAT 1 = false ∧ ((next (.quiesce 1 .busMaster) s_FunctionResets_2).pci 1).bme = false := by decide +kernel

def s_LinkAndQuiesce_2 : State :=
  next (.quiesce 16 .d3hot) s_FunctionResets_2

theorem wit_LinkAndQuiesce_2 :
    s_LinkAndQuiesce_2.bit R.HIF_STAT_READY = true ∧ s_LinkAndQuiesce_2.addressable 1 = true ∧ s_LinkAndQuiesce_2.bitAt R.HIF_FLR_STAT 1 = false ∧ (next (.unquiesce 1) s_LinkAndQuiesce_2).bitAt R.HIF_QUIESCED 1 = true := by decide +kernel

def s_LinkAndQuiesce_2b : State :=
  next (.quiesce 1 .busMaster) s_FunctionResets_2

theorem wit_LinkAndQuiesce_2b :
    s_LinkAndQuiesce_2b.addressable 1 = true ∧ ∀ g : Func, s_LinkAndQuiesce_2b.bitAt R.HIF_QUIESCED g = s_LinkAndQuiesce_2b.quiesced g := by decide +kernel

theorem wit_LinkAndQuiesce_3 :
    s_FunctionResets_1.bit R.HIF_STAT_READY = true ∧ s_FunctionResets_1.bitAt R.HIF_FLR_STAT 16 = false ∧ s_FunctionResets_1.hif.mps ≠ 2 := by decide +kernel

theorem wit_LinkAndQuiesce_4 :
    State.reset.linkDead = false := by decide +kernel

def s_LinkAndQuiesce_5 : State :=
  next (.perstDeassert 3 2) State.reset

theorem wit_LinkAndQuiesce_5 :
    s_LinkAndQuiesce_5.linkDead = false ∧ s_LinkAndQuiesce_5.Canonical := by unfold State.Canonical; decide +kernel

theorem wit_LinkAndQuiesce_6 :
    s_LinkAndQuiesce_5.hif.perstAt = some 0 ∧ s_LinkAndQuiesce_5.bit R.HIF_STAT_READY = false := by decide +kernel

def s_LinkAndQuiesce_7 : State :=
  inf [(R.QUOTA_EL_PERMIT 1, 1)] { State.reset with hif := { Hif.reset with numVfs := 2 }, now := 100000 * 64, led := { Led.reset with flows := [(0, { FlowRec.reset with fn := 1 })] } }

theorem wit_LinkAndQuiesce_7 :
    s_LinkAndQuiesce_7.barOn 1 = true ∧ (s_LinkAndQuiesce_7.flow (s_LinkAndQuiesce_7.rd (R.EL_FLOW_SEL 1))).fn = 1 ∧ s_LinkAndQuiesce_7.bitAt R.ENG_RST_STAT 8 = false ∧ s_LinkAndQuiesce_7.inf (R.QUOTA_EL_PERMIT 1) ≠ 0 := by decide +kernel

def s_LinkAndQuiesce_7b : State :=
  inf [(R.QUOTA_EL_PERMIT 1, 0)] s_LinkAndQuiesce_7

theorem wit_LinkAndQuiesce_7b :
    s_LinkAndQuiesce_7b.inf (R.QUOTA_EL_PERMIT 1) = 0 := by decide +kernel

def s_LinkAndQuiesce_7c : State :=
  { s_LinkAndQuiesce_7 with led := Led.reset }

theorem wit_LinkAndQuiesce_7c :
    s_LinkAndQuiesce_7c.barOn 1 = true ∧ (s_LinkAndQuiesce_7c.flow (s_LinkAndQuiesce_7c.rd (R.EL_FLOW_SEL 1))).fn ≠ 1 ∧ s_LinkAndQuiesce_7c.inf (R.QUOTA_EL_PERMIT 1) ≠ 0 := by decide +kernel

/-! ### Witnesses: c12 -/

/-- Tenants 0 and 1 are present and addressable, ring 0 (transmit), 4 (receive), 8 and 9 of tenant 1 are enabled with 64 entries. -/
def host0 : State :=
  put ([0, 4, 8, 9].flatMap (fun r => [(R.RING_CFG_EN 1 r, 1), (R.RING_STAT_ACTIVE 1 r, 1), (R.RING_CFG_LOG2_SIZE 1 r, 6)]) ++ [(R.DOORBELL 1 0, 2), (R.DOORBELL 1 4, 3), (R.HIF_LINK_SPEED, 4), (R.HIF_LINK_WIDTH, 4)])
    { inf [(R.QUOTA_FETCH_MAX 1, 8), (R.QUOTA_TX_RINGS 1, 1), (R.QUOTA_RX_RINGS 1, 2), (R.QUOTA_RING_LOG2_MAX 1, 8)] State.reset with hif := { Hif.reset with numVfs := 2 }, now := 7000000, tick := { Tick.reset with num := 3, start := 4000000 } }

/-- A transmit descriptor of 60 bytes, and one with a reserved value. -/
def txDesc0 : List Byte := List.replicate 8 0 ++ [60] ++ List.replicate 23 0
def txDesc1 : List Byte := List.replicate 8 0 ++ [59] ++ List.replicate 23 0

/-- A ring of tenant 1 holds these descriptors. -/
def withRing (r : Nat) (l : List Desc) (s : State) : State := s.modRing 1 r (fun x => { x with descs := l })

theorem wit_HostFetches_1 :
    host0.fetchReady 1 0 = true ∧ host0.fetchRoom = true ∧ host0.fetchTurn 1 0 = true ∧ (host0.fresh 1 0).headD 0 = 0 := by decide +kernel

def s_HostFetches_2 : State :=
  withRing 0 [⟨0, 0, .fetching 5⟩] host0

theorem wit_HostFetches_2 :
    s_HostFetches_2.oldestFetching 1 0 = some (0, 5) ∧ ((s_HostFetches_2.ring 1 0).descs.map (·.pos)).Nodup ∧ txMalformed (s_HostFetches_2.bit (R.RING_CFG_TS_EN 1 0)) txDesc1 = true := by decide +kernel

theorem wit_HostFetches_2b :
    s_HostFetches_2.oldestFetching 1 0 = some (0, 5) ∧ txMalformed (s_HostFetches_2.bit (R.RING_CFG_TS_EN 1 0)) txDesc0 = false ∧ s_HostFetches_2.bit R.FLT_STAT_ECLIPSE = false := by decide +kernel

def s_HostFetches_3 : State :=
  withRing 0 [⟨0, 0, .reading (desc0 60) 60 0 [5]⟩] host0

theorem wit_HostFetches_3 :
    s_HostFetches_3.reading 1 0 = some (0, desc0 60, 60, 0, [5]) := by decide +kernel

theorem wit_HostFetches_3c :
    s_HostFetches_2.reading 1 0 = none ∧ s_HostFetches_2.oldestFetching 1 0 = some (0, 5) ∧ (next (.hostReadCompletion 1 0 [] .unsupported) s_HostFetches_2).rd (R.CPL_ERR_CNT 1) = 1 := by decide +kernel

def s_HostFetches_4 : State :=
  withRing 0 [⟨0, 0, .reading (desc0 60) 60 60 []⟩] (withArr (.host 1 0) { arr0 (.ring 1 0) 60 with desc := some (desc0 60), filter := .pass 0xFFFF true } host0)

theorem wit_HostFetches_4 :
    s_HostFetches_4.reading 1 0 = some ((desc0 60).idx, desc0 60, 60, 60, []) ∧ (s_HostFetches_4.arr (.host 1 0)).map (·.bytes.length) = some (desc0 60).len
      ∧ ((s_HostFetches_4.ring 1 0).descs.map (·.pos)).Nodup ∧ s_HostFetches_4.acceptTurn (.host 1 0) = true := by decide +kernel

/-- A frame of tenant 1 is all there, classified to an exit to port 1 on its flow. -/
def hostGood0 : State :=
  let v : Arrival := { arr0 (.ring 1 0) 60 with desc := some (desc0 60), filter := .pass 0xFFFF true, tpl := some none, ctx := some { ctx0 false with src := .ring 1 0, exits := [exit0 1 0], fin := .closed } }
  let s : State := put [(R.PORT_STAT_STATE 1, 3), (R.PORT_STAT_RATE 1, 5)] { host0 with led := { Led.reset with flows := [(1, ⟨0, 0, 1, true, false, false, 0, 0, 0⟩)] } }
  withRing 0 [⟨0, 0, .reading (desc0 60) 60 60 []⟩] (withArr (.host 1 0) v s)

/-- It is judged there. -/
def hostJudged0 : State :=
  ((hostGood0.classifyAll (.host 1 0)).modArr (.host 1 0) (fun v => { v with bytes := withFcs v.bytes })).lastCells (.host 1 0)

theorem wit_HostFetches_4b :
    hostGood0.reading 1 0 = some ((desc0 60).idx, desc0 60, 60, 60, []) ∧ hostGood0.acceptTurn (.host 1 0) = true
      ∧ (match hostJudged0.arr (.host 1 0) with
        | some w => !w.lostClass && decide (w.begun ≠ .cannot) && !w.noMore && (match w.ctx, hostJudged0.ringRate 1 0 w.len with
          | some c, some u => decide (c.fin ≠ .running) && decide (w.exits c ≠ []) && !u.bit R.FLT_STAT_ECLIPSE && u.masRuns
            && (match hostJudged0.arrFlow c with
              | some x => ((u.tryAccept u.newHandle c w x (w.exits c)).why).isNone
              | none => false)
          | _, _ => false)
        | none => false) = true := by decide +kernel

theorem wit_HostFetches_5 :
    s_HostFetches_3.reading 1 0 = some (0, desc0 60, 60, 0, [5]) := by decide +kernel

theorem wit_HostFetches_5b :
    s_HostFetches_2.reading 1 0 = none ∧ s_HostFetches_2.oldestFetching 1 0 = some (0, 5) := by decide +kernel

theorem wit_HostFetches_6 :
    host0.ringOn 1 4 = true ∧ host0.fresh 1 4 ≠ [] := by decide +kernel

theorem wit_HostFetches_7 :
    hasRing 1 4 = true ∧ host0.ringOn 1 4 = true ∧ host0.fnDown 1 = false ∧ host0.stalled = false ∧ host0.hifUp = true ∧ host0.dmaOff = false
      ∧ host0.fresh 1 4 ≠ [] ∧ host0.aheadRoom = true ∧ (host0.ring 1 4).descs.length < 128 ∧ host0.mayRead 1 = true ∧ rxMalformed (List.replicate 32 0) = false := by decide +kernel

theorem wit_HostFetches_7b :
    rxMalformed (List.replicate 32 1) = true := by decide +kernel

theorem wit_HostStalls_1 :
    host0.stalled = false := by decide +kernel

def s_HostStalls_2 : State :=
  put [(R.HS_STAT_HOST_STALL, 1)] { host0 with tick := { Tick.reset with num := 17 }, hif := { host0.hif with stallLast := some 0 } }

theorem wit_HostStalls_2 :
    s_HostStalls_2.stalled = true := by decide +kernel

theorem wit_HostStalls_3 :
    s_HostStalls_2.stalled = true ∧ s_HostStalls_2.hif.stallLast = some 0 ∧ 0 + 17 ≤ s_HostStalls_2.tick.num := by decide +kernel

def s_HostStalls_3b : State :=
  { s_HostStalls_2 with tick := { Tick.reset with num := 16 } }

theorem wit_HostStalls_3b :
    s_HostStalls_3b.hif.stallLast = some 0 ∧ s_HostStalls_3b.tick.num < 0 + 17 := by decide +kernel

def s_HostStalls_4 : State :=
  put [(R.HS_ESC_TICKS, 16)] { s_HostStalls_2 with hif := { host0.hif with stallTick := some 0 } }

theorem wit_HostStalls_4 :
    s_HostStalls_4.hif.stallTick = some 0 ∧ 0 + s_HostStalls_4.rd R.HS_ESC_TICKS ≤ s_HostStalls_4.tick.num ∧ (next (.hostStallEscalate) s_HostStalls_4).bit R.HS_STAT_HS_ESC = true := by decide +kernel

def s_HostStalls_5 : State :=
  put [(R.HS_ESC_TICKS, 18)] s_HostStalls_4

theorem wit_HostStalls_5 :
    s_HostStalls_5.hif.stallTick = some 0 ∧ s_HostStalls_5.tick.num < 0 + s_HostStalls_5.rd R.HS_ESC_TICKS := by decide +kernel

def s_HostWrites_1 : State :=
  withRing 4 [⟨0, 4096, .reserved 0 7⟩] { host0 with frames := [(0, { frame0 with exits := List.replicate 7 ⟨exit0 0 7, 9, 0, 0, some 0⟩ ++ [⟨exit0 9 0, 0, 0, 0, none⟩], resolved := true })], led := { Led.reset with entries := [(0, { entry0 with exit := 7, stage := 4, dest := 9, sub := 0 })] }, buf := { Buf.reset with cells := [(0, some ⟨frameBytes0, none, true, false, ccrcOf 0 frameBytes0⟩)] } }

theorem wit_HostWrites_1 :
    (mget s_HostWrites_1.frames 0).isSome = true ∧ ((mget s_HostWrites_1.frames 0).bind (fun f => f.exits[7]?)).isSome = true
      ∧ s_HostWrites_1.dataDesc 0 7 ⟨exit0 9 0, 0, 0, 0, none⟩ = some (1, 4, ⟨0, 4096, .reserved 0 7⟩, { entry0 with exit := 7, stage := 4, dest := 9, sub := 0 })
      ∧ ((mget s_HostWrites_1.frames 0).map s_HostWrites_1.dataTurn) = some true ∧ ((mget s_HostWrites_1.frames 0).bind s_HostWrites_1.provenBytes).isSome = true := by decide +kernel

def s_HostWrites_2 : State :=
  withRing 4 [⟨0, 4096, .ready (bareCpl stMalformed 2 0)⟩] host0

theorem wit_HostWrites_2 :
    s_HostWrites_2.mayWrite 1 = true ∧ s_HostWrites_2.batchDue (s_HostWrites_2.batch 1 4) = true ∧ s_HostWrites_2.batchTurn (s_HostWrites_2.batch 1 4) = true := by decide +kernel

theorem wit_HostWrites_3 :
    s_HostWrites_2.mayWrite 1 = true ∧ s_HostWrites_2.batch 1 4 = [(⟨0, 4096, .ready (bareCpl stMalformed 2 0)⟩, bareCpl stMalformed 2 0)] := by decide +kernel

def s_HostWrites_4 : State :=
  next (.hostDataWrite 0 7) s_HostWrites_1

theorem wit_HostWrites_4 :
    s_HostWrites_4.hif.posted.map (·.ends) = [[(0, 7, false)]] ∧ s_HostWrites_4.hifUp = true ∧ ((mget s_HostWrites_4.frames 0).bind (fun f => f.exits[7]?)).map (·.disp) = some none ∧ (mget s_HostWrites_4.led.entries 0).isSome = true := by decide +kernel

def s_HostWrites_5 : State :=
  next (.completionWrite 1 4) (put [(R.WB_COALESCE, 0)] (next .writeAcknowledged s_HostWrites_4))

theorem wit_HostWrites_5 :
    s_HostWrites_5.hif.posted.map (·.ends) = [[(0, 7, true)]] ∧ s_HostWrites_5.hifUp = true ∧ ((mget s_HostWrites_5.frames 0).bind (fun f => f.exits[7]?)).map (·.disp) = some none ∧ (mget s_HostWrites_5.led.entries 0).isSome = true := by decide +kernel

def s_HostWrites_5b : State :=
  put [(R.ENG_RST_STAT, 256)] s_HostWrites_5

theorem wit_HostWrites_5b :
    s_HostWrites_5b.hifUp = false := by decide +kernel

def s_HostWrites_6 : State :=
  put [(R.RING_CFG_EN 1 9, 0)] { host0 with events := [(1, [⟨1, 5, false, false, 1, 1, 1, 1, 1, 0, 0, 0, none, 3, 0⟩])] }

theorem wit_HostWrites_6 :
    mgetD s_HostWrites_6.events 1 [] = [⟨1, 5, false, false, 1, 1, 1, 1, 1, 0, 0, 0, none, 3, 0⟩] ∧ s_HostWrites_6.mayRecord 1 = true
      ∧ s_HostWrites_6.cplPending 1 none = false ∧ s_HostWrites_6.ringOn 1 9 = false := by decide +kernel

def s_HostWrites_6b : State :=
  { host0 with events := [(1, [⟨1, 5, false, false, 1, 1, 1, 1, 1, 0, 0, 0, none, 3, 0⟩])] }

theorem wit_HostWrites_6b :
    s_HostWrites_6b.ringOn 1 9 = true ∧ s_HostWrites_6b.recFree 1 9 ≠ 0 ∧ (s_HostWrites_6b.ring 1 9).skipped = 0
      ∧ s_HostWrites_6b.wbDue ((s_HostWrites_6b.evBatch 1).map (fun e => (e.readyAt, e.due))) = true := by decide +kernel

theorem wit_HostWrites_6c :
    s_HostWrites_6b.mayRecord 1 = true ∧ s_HostWrites_6b.evBatch 1 = [⟨1, 5, false, false, 1, 1, 1, 1, 1, 0, 0, 0, none, 3, 0⟩] := by decide +kernel

def s_HostWrites_7 : State :=
  { host0 with hif := { host0.hif with el := [(1, [⟨0x13, [[1, 2, 3, 4, 5, 6, 7, 8]], some 2, some 0⟩])] } }

theorem wit_HostWrites_7 :
    s_HostWrites_7.elRecs 1 = [⟨0x13, [[1, 2, 3, 4, 5, 6, 7, 8]], some 2, some 0⟩] ∧ s_HostWrites_7.ringOn 1 8 = true ∧ s_HostWrites_7.fnDown 1 = false ∧ s_HostWrites_7.hifUp = true ∧ s_HostWrites_7.dmaOff = false := by decide +kernel

theorem wit_RingControl_1 :
    host0.barOn 1 = true ∧ hasRing 1 0 = true ∧ host0.ringOn 1 0 = true ∧ host0.bitAt R.ENG_RST_STAT 8 = false
      ∧ (host0.rd (R.HEAD 1 0) + 2 ^ 16 - host0.rd (R.CPL 1 0)) % 2 ^ 16 ≤ (64 + 2 ^ 16 - host0.rd (R.CPL 1 0)) % 2 ^ 16 ∧ (64 + 2 ^ 16 - host0.rd (R.CPL 1 0)) % 2 ^ 16 ≤ host0.ringSize 1 0 := by decide +kernel

def s_RingControl_2 : State :=
  put [(R.RING_CFG_EN 16 10, 1), (R.RING_CFG_LOG2_SIZE 16 10, 6)] host0

theorem wit_RingControl_2 :
    s_RingControl_2.barOn 16 = true ∧ hasRing 16 10 = true ∧ s_RingControl_2.ringOn 16 10 = true ∧ s_RingControl_2.ringSize 16 10 < (65 + 2 ^ 16 - s_RingControl_2.rd (R.CPL 16 10)) % 2 ^ 16 := by decide +kernel

theorem wit_RingControl_3 :
    host0.bit (R.RING_CFG_EN 1 5) = false ∧ host0.bit (R.RING_STAT_RESETTING 1 5) = false ∧ ringCfgBad 5 1 8 0 9216 = false ∧ host0.quotaOk 1 5 8 = true
      ∧ (next (.ringEnable 1 5 0x24000081) host0).rd (R.RING_CFG_BUF_SIZE 1 5) = 9216 := by decide +kernel

theorem wit_RingControl_4 :
    ringCfgBad 5 1 9 0 9216 = false ∧ host0.quotaOk 1 5 9 = false := by decide +kernel

def s_RingControl_5 : State :=
  withRing 4 [⟨0, 4096, .held⟩] host0

theorem wit_RingControl_5 :
    s_RingControl_5.bit (R.RING_CFG_EN 1 4) = true ∧ s_RingControl_5.bit (R.RING_STAT_RESETTING 1 4) = false := by decide +kernel

def s_RingControl_6 : State :=
  put [(R.RING_STAT_RESETTING 1 4, 1)] host0

theorem wit_RingControl_6 :
    s_RingControl_6.bit (R.RING_CFG_EN 1 4) = true ∧ s_RingControl_6.bit (R.RING_STAT_RESETTING 1 4) = true := by decide +kernel

theorem wit_RingControl_7 :
    s_RingControl_6.bit (R.RING_STAT_RESETTING 1 4) = true ∧ (s_RingControl_6.ring 1 4).descs = [] := by decide +kernel

/-! ### Witnesses: c14 -/

def s_DomainStates_1 : State :=
  put [(R.DOM_STAT_STATE 1, 2), (R.DOM_STAT_VALID 1, 1), (R.TD_RATE_HI 1, 0xFF)] State.reset

theorem wit_DomainStates_1 :
    s_DomainStates_1.tuUp = true ∧ (toSigned 40 (0xFFFFFFFF + 2 ^ 32 * s_DomainStates_1.rd (R.TD_RATE_HI 1))).natAbs ≤ 0x7A1200000 ∧ s_DomainStates_1.domState 1 = 2 := by decide +kernel

theorem wit_DomainStates_1b :
    (toSigned 40 (5 + 2 ^ 32 * State.reset.rd (R.TD_RATE_HI 1))).natAbs ≤ 0x7A1200000 ∧ State.reset.domState 1 ≠ 2 := by decide +kernel

def s_DomainStates_1c : State :=
  put [(R.DOM_STAT_STATE 1, 1), (R.DOM_STAT_VALID 1, 1)] { State.reset with td := [TDom.reset, { TDom.reset with sinceRate := 70000 }] }

theorem wit_DomainStates_1c :
    s_DomainStates_1c.tuUp = true ∧ (s_DomainStates_1c.domDue 1).domState 1 = 2 ∧ (next (.tdRateLoWrite 1 5) s_DomainStates_1c).domState 1 = 1 ∧ (next (.tdRateLoWrite 1 5) s_DomainStates_1c).rd (R.HOLDOVER_CNT 1) = 1 := by decide +kernel

def s_DomainStates_1d : State :=
  put [(R.DOM_STAT_STATE 1, 2), (R.HOLD_MAX 1, 7)] State.reset

theorem wit_DomainStates_1d :
    s_DomainStates_1d.syncDue 1 = false ∧ ((s_DomainStates_1d.td[1]?).map (·.holdTicks)).getD 0 < s_DomainStates_1d.rd (R.HOLD_MAX 1) := by decide +kernel

def s_DomainStates_2 : State :=
  put [(R.DOM_STAT_RATE_UNTRAINED 1, 0)] State.reset

theorem wit_DomainStates_2 :
    s_DomainStates_2.tuUp = true ∧ s_DomainStates_2.maySetValid 1 = true := by decide +kernel

def s_DomainStates_3 : State :=
  put [(R.DOM_STAT_STATE 1, 1), (R.DOM_STAT_VALID 1, 1), (R.DOM_STAT_SYNC_CNT 1, 16), (R.HOLD_RATE_LO 1, 9)] State.reset

theorem wit_DomainStates_3 :
    s_DomainStates_3.tuUp = true := by decide +kernel

def s_DomainStates_4 : State :=
  put [(R.DOM_STAT_STATE 1, 1), (R.DOM_STAT_VALID 1, 1)] { State.reset with td := [TDom.reset, { TDom.reset with sinceRate := 70000 }] }

theorem wit_DomainStates_4 :
    s_DomainStates_4.domState 1 = 1 ∧ s_DomainStates_4.rd (R.SYNC_TIMEOUT 1) ≤ ((s_DomainStates_4.td[1]?).map (·.sinceRate)).getD 0 := by decide +kernel

def s_DomainStates_5 : State :=
  put [(R.DOM_STAT_STATE 1, 2), (R.DOM_STAT_VALID 1, 1), (R.HOLD_RATE_LO 1, 9), (R.HOLD_MAX 1, 7)] { State.reset with td := [TDom.reset, { TDom.reset with holdTicks := 7 }] }

theorem wit_DomainStates_5 :
    s_DomainStates_5.domState 1 = 2 ∧ s_DomainStates_5.rd (R.HOLD_MAX 1) ≠ 0 ∧ s_DomainStates_5.rd (R.HOLD_MAX 1) ≤ ((s_DomainStates_5.td[1]?).map (·.holdTicks)).getD 0 := by decide +kernel

def s_Corrections_1 : State :=
  { State.reset with now := 640000, td := [TDom.reset, { TDom.reset with val := 3000000000 * tdUnit }] }

theorem wit_Corrections_1 :
    s_Corrections_1.tuUp = true ∧ s_Corrections_1.td.length = 2 ∧ s_Corrections_1.bit (R.TD_ADJ_CTRL_MODE 1) = false ∧ s_Corrections_1.guards 1 (toSigned 32 0x80000000) (s_Corrections_1.bit (R.TD_ADJ_CTRL_FORCE 1)) = false := by decide +kernel

def s_Corrections_2 : State :=
  put [(R.TD_ADJ_CTRL_MODE 1, 1)] State.reset

theorem wit_Corrections_2 :
    s_Corrections_2.bit (R.TD_ADJ_CTRL_MODE 1) = true ∧ s_Corrections_2.guards 1 (toSigned 32 0xFFFFFFFF) (s_Corrections_2.bit (R.TD_ADJ_CTRL_FORCE 1)) = false := by decide +kernel

def s_Corrections_3 : State :=
  put [(R.TD_CFG_POLICY 1, 1), (R.DOM_STAT_VALID 1, 1)] State.reset

theorem wit_Corrections_3 :
    s_Corrections_3.guards 1 (toSigned 32 0x80000000) (s_Corrections_3.bit (R.TD_ADJ_CTRL_FORCE 1)) = true ∧ s_Corrections_3.bit (R.TD_ADJ_CTRL_MODE 1) = false := by decide +kernel

def s_Corrections_4 : State :=
  put [(R.DOM_STAT_SLEWING 1, 1), (R.SLEW_PPB 1, 10)] { State.reset with now := 640000, td := [TDom.reset, { TDom.reset with val := 3000000000 * tdUnit, adj := -1000000000 }] }

theorem wit_Corrections_4 :
    s_Corrections_4.bit (R.DOM_STAT_SLEWING 1) = true ∧ 0 < s_Corrections_4.rd (R.SLEW_PPB 1) ∧ s_Corrections_4.ClockOk := by unfold State.ClockOk; decide +kernel

def s_Corrections_5 : State :=
  put [(R.TD_SET_SEC_HI 1, 0xFFFF), (R.TD_SET_NS 1, 999999999)] State.reset

theorem wit_Corrections_5 :
    s_Corrections_5.guards 1 ((s_Corrections_5.setTime 1 : Int) - (s_Corrections_5.tdNs 1 % (2 ^ 48 * 1000000000) : Nat)) true = false := by decide +kernel

def s_OutputsAndInputs_1 : State :=
  put [(R.TOUT_CFG_MODE 7, 1), (R.TOUT_START_LO 7, 0xFFFFFFFF), (R.TOUT_START_HI 7, 0x7F), (R.TOUT_CFG_DOM 7, 1)] State.reset

theorem wit_OutputsAndInputs_1 :
    s_OutputsAndInputs_1.tu.tout.length = 8 ∧ s_OutputsAndInputs_1.tuUp = true ∧ s_OutputsAndInputs_1.rd (R.TOUT_CFG_MODE 7) = 1
      ∧ inFuture (s_OutputsAndInputs_1.rd64 (R.TOUT_START_LO 7) (R.TOUT_START_HI 7)) (s_OutputsAndInputs_1.short (s_OutputsAndInputs_1.outDom 7)) = true := by decide +kernel

def s_OutputsAndInputs_2 : State :=
  { put [(R.TOUT_CFG_MODE 7, 1), (R.TOUT_CTRL_ARMED 7, 1)] State.reset with tu := { State.reset.tu with tout := lmod State.reset.tu.tout 7 (fun _ => ⟨true, some 5, some 9, false⟩) } }

theorem wit_OutputsAndInputs_2 :
    s_OutputsAndInputs_2.tuUp = true := by decide +kernel

def s_OutputsAndInputs_3 : State :=
  put [(R.TOUT_CFG_MODE 7, 2), (R.TOUT_PERIOD 7, 1000), (R.TOUT_WIDTH 7, 10)] s_OutputsAndInputs_2

theorem wit_OutputsAndInputs_3 :
    (s_OutputsAndInputs_3.out 7).next = some 5 ∧ (s_OutputsAndInputs_3.out 7).idle = false ∧ s_OutputsAndInputs_3.tuUp = true ∧ s_OutputsAndInputs_3.bit (R.TOUT_CFG_REQ_VALID 7) = false ∧ s_OutputsAndInputs_3.rd (R.TOUT_CFG_MODE 7) ≠ 3 := by decide +kernel

def s_OutputsAndInputs_4 : State :=
  put [(R.TOUT_CFG_MODE 7, 3), (R.TOUT_CFG_LEVEL 7, 0)] s_OutputsAndInputs_2

theorem wit_OutputsAndInputs_4 :
    (s_OutputsAndInputs_4.out 7).next = some 5 ∧ (s_OutputsAndInputs_4.out 7).idle = false ∧ s_OutputsAndInputs_4.tuUp = true ∧ s_OutputsAndInputs_4.bit (R.TOUT_CFG_REQ_VALID 7) = false ∧ s_OutputsAndInputs_4.rd (R.TOUT_CFG_MODE 7) = 3 := by decide +kernel

theorem wit_OutputsAndInputs_5 :
    (s_OutputsAndInputs_2.out 7).endAt = some 9 ∧ s_OutputsAndInputs_2.rd (R.TOUT_CFG_MODE 7) = 1 := by decide +kernel

theorem wit_OutputsAndInputs_6 :
    State.reset.tuUp = true := by decide +kernel

def s_OutputsAndInputs_7 : State :=
  put [(R.TCAP_CFG_EDGE 3, 2)] State.reset

theorem wit_OutputsAndInputs_7 :
    s_OutputsAndInputs_7.tuUp = true ∧ s_OutputsAndInputs_7.rd (R.TCAP_CFG_EDGE 3) / 2 ≠ 0 ∧ (s_OutputsAndInputs_7.rd (R.TCAP_CFG_FILTER 3) + 1) * 4 ≤ 4 ∧ s_OutputsAndInputs_7.tu.tcap[3]? = some [] := by decide +kernel

def s_OutputsAndInputs_7b : State :=
  { put [(R.TCAP_CFG_EDGE 3, 1)] State.reset with tu := { State.reset.tu with tcap := lmod State.reset.tu.tcap 3 (fun _ => List.replicate 8 []) } }

theorem wit_OutputsAndInputs_7b :
    8 ≤ (s_OutputsAndInputs_7b.tu.tcap.getD 3 []).length ∧ s_OutputsAndInputs_7b.rd (R.TCAP_CFG_EDGE 3) % 2 = 1 ∧ (s_OutputsAndInputs_7b.rd (R.TCAP_CFG_FILTER 3) + 1) * 4 ≤ 4 := by decide +kernel

def s_OutputsAndInputs_8 : State :=
  put [(R.UTC_CFG_LEAP61, 1), (R.UTC_CFG_OFFSET, 37), (R.DOM_STAT_VALID 0, 1), (R.DOM_STAT_STATE 0, 1), (R.UTC_LEAP_DAY, 6000)] State.reset

theorem wit_OutputsAndInputs_8 :
    s_OutputsAndInputs_8.leapSet = true ∧ s_OutputsAndInputs_8.tdValid 0 = true := by decide +kernel

def s_CalendarConverter_1 : State :=
  put [(R.UTC_CFG_OFFSET, 37)] { State.reset with td := [TDom.reset, { TDom.reset with val := 1961668837 * 1000000000 * tdUnit }] }

theorem wit_CalendarConverter_1 :
    s_CalendarConverter_1.tuUp = true ∧ s_CalendarConverter_1.toCivil (s_CalendarConverter_1.tdSec 1) = some ⟨2032, 2, 29, 12, 0, 0⟩ := by decide +kernel

def s_CalendarConverter_2 : State :=
  put [(R.UTC_CFG_OFFSET, 37), (R.CAL_SEC_LO, 1961668837)] State.reset

theorem wit_CalendarConverter_2 :
    s_CalendarConverter_2.toCivil (s_CalendarConverter_2.rd64 R.CAL_SEC_LO R.CAL_SEC_HI) = some ⟨2032, 2, 29, 12, 0, 0⟩ := by decide +kernel

def s_CalendarConverter_3 : State :=
  put [(R.UTC_CFG_OFFSET, 37), (R.CAL_DATE0, 2032 + 2 ^ 12 * 2 + 2 ^ 16 * 29), (R.CAL_DATE1, 12)] State.reset

theorem wit_CalendarConverter_3 :
    s_CalendarConverter_3.possible s_CalendarConverter_3.date = true := by decide +kernel

def s_CalendarConverter_4 : State :=
  put [(R.UTC_CFG_OFFSET, 37), (R.CAL_DATE0, 2100 + 2 ^ 12 * 2 + 2 ^ 16 * 29), (R.CAL_DATE1, 12)] State.reset

theorem wit_CalendarConverter_4 :
    s_CalendarConverter_4.possible s_CalendarConverter_4.date = false := by decide +kernel

theorem wit_CalendarConverter_5 :
    s_CalendarConverter_3.td.length = 2 ∧ s_CalendarConverter_3.possible s_CalendarConverter_3.date = true ∧ s_CalendarConverter_3.tdValid 1 = false := by decide +kernel

def s_CalendarRoundTrip : State :=
  put [(R.UTC_CFG_OFFSET, 37)] State.reset

theorem wit_CalendarRoundTrip :
    s_CalendarRoundTrip.leapSet = false ∧ s_CalendarRoundTrip.possible ⟨2399, 12, 31, 23, 59, 59⟩ = true ∧ s_CalendarRoundTrip.taiOf ⟨2032, 2, 29, 12, 0, 0⟩ = 1961668837 := by decide +kernel

/-! ### Witnesses: c15 -/

/-- Frame 0 in resolution on a lane with these jobs. -/
def withJobs (l : List Job) (s : State) : State :=
  inLane3 { ctx0 true with jobs := l } false { s with frames := [(0, frame0)] }

def s_FrameJobs_1 : State :=
  withJobs [job0 (some 3) none true, job0 (some 2) none false, job0 (some 3) none false] State.reset

theorem wit_FrameJobs_1 :
    ((s_FrameJobs_1.ctxOf 0).map (fun c => c.jobs.find? (fun j => j.unit == some 3 && !j.done))) = some (some (job0 (some 3) none false)) ∧ s_FrameJobs_1.bitAt R.ENG_RST_STAT (11 + 3) = false := by decide +kernel

def s_FrameJobs_2 : State :=
  withJobs [job0 none (some 63) false] State.reset

theorem wit_FrameJobs_2 :
    ((s_FrameJobs_2.ctxOf 0).map (fun c => c.jobs.find? (fun j => j.unit.isNone && !j.done))) = some (some (job0 none (some 63) false)) ∧ s_FrameJobs_2.bitAt R.ENG_RST_STAT 10 = false ∧ s_FrameJobs_2.dge.clearing = none := by decide +kernel

def s_FrameJobs_2b : State :=
  withJobs [job0 none none false] State.reset

theorem wit_FrameJobs_2b :
    ((s_FrameJobs_2b.ctxOf 0).map (fun c => c.jobs.find? (fun j => j.unit.isNone && !j.done))) = some (some (job0 none none false)) ∧ (next (.digJobDone 0 2) s_FrameJobs_2b).rd R.DGE_ECC_CORR = 2 := by decide +kernel

def s_FrameJobs_3 : State :=
  { State.reset with frames := [(0, { frame0 with epoch := 4 })], dge := { State.reset.dge with slots := [(0, ⟨KeyBank.reset, ⟨2, true, false, [1], [2], 3⟩, false, some 4⟩), (1, ⟨KeyBank.reset, ⟨2, true, false, [1], [2], 3⟩, false, some 5⟩)] }, crus := [{ Cru.reset with retiring := some 4 }, { Cru.reset with retiring := some 5 }, Cru.reset, Cru.reset] }

theorem wit_FrameJobs_3 :
    s_FrameJobs_3.noOlder 4 = true ∧ s_FrameJobs_3.noOlder 5 = false ∧ (s_FrameJobs_3.cru 0).retiring = some 4 ∧ (s_FrameJobs_3.cru 1).retiring = some 5 ∧ (mget s_FrameJobs_3.dge.slots 0).isSome = true := by decide +kernel

def s_FrameJobs_4 : State :=
  withJobs [job0 (some 3) none true] { State.reset with crus := lmod State.reset.crus 3 (fun x => { x with ports := [CruPort.reset, { CruPort.reset with state := 2 }] }) }

theorem wit_FrameJobs_4 :
    (∀ l ∈ s_FrameJobs_4.mas.lanes, ∀ x ∈ l.res.toList ++ l.parked, ∀ k ∈ x.2.jobs, k.unit = some 3 → k.done = true) ∧ (s_FrameJobs_4.cruPort 3 1).state = 2 ∧ (s_FrameJobs_4.cruPort 3 0).state = 0 := by decide +kernel

def s_FrameJobs_4b : State :=
  withJobs [job0 (some 3) none false, job0 none none false] { State.reset with crus := lmod State.reset.crus 3 (fun x => { x with ports := [{ CruPort.reset with state := 2 }, CruPort.reset] }) }

theorem wit_FrameJobs_4b :
    (∀ l ∈ s_FrameJobs_4b.mas.lanes, ∀ x ∈ l.res.toList ++ l.parked, x.1 ≠ 0 → ∀ k ∈ x.2.jobs, k.unit = some 3 → k.done = true)
      ∧ (s_FrameJobs_4b.ctxOf 0).map (·.jobs) = some [job0 (some 3) none false, job0 none none false] ∧ ((next (.cruParityFault 3) s_FrameJobs_4b).ctxOf 0).map (·.jobs.length) = some 1 := by decide +kernel

def s_KeysAndClears_1 : State :=
  put [(R.KEY_SEL, 63)] State.reset

theorem wit_KeysAndClears_1 :
    s_KeysAndClears_1.bitAt R.ENG_RST_STAT 10 = false ∧ s_KeysAndClears_1.bit R.FLT_STAT_ECLIPSE = false ∧ s_KeysAndClears_1.tick.commitAt = none ∧ s_KeysAndClears_1.dge.clearing = none ∧ (s_KeysAndClears_1.keySlot (s_KeysAndClears_1.rd R.KEY_SEL)).retiring = none ∧ s_KeysAndClears_1.bit R.KEY_CTRL_GO = false := by decide +kernel

def s_KeysAndClears_1b : State :=
  put [(R.KEY_CTRL_GO, 1)] State.reset

theorem wit_KeysAndClears_1b :
    s_KeysAndClears_1b.bit R.KEY_CTRL_GO = true ∧ s_KeysAndClears_1b.bitAt R.ENG_RST_STAT 10 = false ∧ s_KeysAndClears_1b.bit R.FLT_STAT_ECLIPSE = false ∧ s_KeysAndClears_1b.tick.commitAt = none ∧ s_KeysAndClears_1b.dge.clearing = none ∧ (s_KeysAndClears_1b.keySlot (s_KeysAndClears_1b.rd R.KEY_SEL)).retiring = none := by decide +kernel

def s_KeysAndClears_2 : State :=
  put [(R.KEY_SEL, 63), (R.KEY_ATTR_ALG, 2), (R.KEY_ATTR_LEN, 3), (R.KEY_DATA 0, 0x79656B), (R.KEY_DATA 31, 7), (R.KEY_CTRL_GO, 1)] State.reset

theorem wit_KeysAndClears_2 :
    s_KeysAndClears_2.bit R.KEY_CTRL_GO = true ∧ s_KeysAndClears_2.bitAt R.ENG_RST_STAT 10 = false := by decide +kernel

def s_KeysAndClears_3 : State :=
  put [(R.KEY_DATA 31, 7), (R.SYS_DATA_LO, 9), (R.KEY_CTRL_GO, 1)] (withJobs [job0 none none false, job0 (some 1) none false] { State.reset with now := 77, dge := { State.reset.dge with slots := [(0, ⟨KeyBank.reset, ⟨2, true, false, [1], [2], 3⟩, false, none⟩)], ctxs := lmod State.reset.dge.ctxs 16 (fun _ => { Stream.reset with state := 1, holder := 1, part := [1] }) } })

theorem wit_KeysAndClears_3 :
    s_KeysAndClears_3.dge.clearing = none := by decide +kernel

def s_KeysAndClears_3b : State :=
  { State.reset with dge := { State.reset.dge with clearing := some (3, 2) } }

theorem wit_KeysAndClears_3b :
    s_KeysAndClears_3b.dge.clearing = some (3, 2) ∧ 3 / s_KeysAndClears_3b.cycle = s_KeysAndClears_3b.now / s_KeysAndClears_3b.cycle := by decide +kernel

def s_KeysAndClears_3d : State :=
  { s_KeysAndClears_3b with now := 200 }

theorem wit_KeysAndClears_3d :
    s_KeysAndClears_3d.dge.clearing = some (3, 2) ∧ 3 / s_KeysAndClears_3d.cycle ≠ s_KeysAndClears_3d.now / s_KeysAndClears_3d.cycle := by decide +kernel

theorem wit_KeysAndClears_3c :
    State.reset.dge.clearing = none ∧ State.reset.bitAt R.ENG_RST_STAT 10 = false := by decide +kernel

def s_KeysAndClears_4 : State :=
  { State.reset with dge := { State.reset.dge with clearing := some (3, 6) } }

theorem wit_KeysAndClears_4 :
    s_KeysAndClears_4.dge.clearing = some (3, 6) ∧ (6 : Nat) < 2 ^ R.DGE_CLEAR_CAUSE.width := by decide +kernel

theorem wit_AbsorbingKeepsDigest :
    (Stream.start 1 1 0 none).part.length < shaBlock 1 ∧ ((Stream.start 1 1 0 none).append 0 (List.replicate 64 0)).blockReady = true
      ∧ ((Stream.start 1 1 0 none).append 0 (List.replicate 64 0)).state = 1 := by decide +kernel

/-- Context 16 as given, with the whole of DGE idle. -/
def withOwner (x : Stream) (s : State) : State := { s with dge := { s.dge with ctxs := lmod s.dge.ctxs 16 (fun _ => x) } }
theorem wit_Streams_1 :
    State.reset.dge.ctxs.length = 17 ∧ State.reset.dgeReject = none ∧ (State.reset.stream 16).state = 0 := by decide +kernel

def s_Streams_1b : State :=
  { State.reset with dge := { State.reset.dge with slots := [(63, ⟨⟨2, true, false, [1], [2], 3⟩, KeyBank.reset, false, none⟩)] } }

theorem wit_Streams_1b :
    s_Streams_1b.streamKey 2 63 false = some ⟨2, true, false, [1], [2], 3⟩ ∧ s_Streams_1b.dgeReject = none ∧ (s_Streams_1b.stream 16).state = 0 := by decide +kernel

def s_Streams_1c : State :=
  withOwner { Stream.reset with state := 3, holder := 1 } State.reset

theorem wit_Streams_1c :
    s_Streams_1c.streamKey 4 0 false = none ∧ s_Streams_1c.dgeReject = none ∧ (s_Streams_1c.stream 16).state = 3 ∧ (s_Streams_1c.stream 16).holder ≠ 2 := by decide +kernel

def s_Streams_2 : State :=
  put [(R.SYS_DATA_LO, 0x0D0C0B0A)] (withOwner (Stream.start 2 1 0 none) State.reset)

theorem wit_Streams_2 :
    (s_Streams_2.stream 16).state = 1 ∧ (s_Streams_2.stream 16).holder = 1 ∧ s_Streams_2.dgeReject = none ∧ s_Streams_2.dge.ctxs.length = 17 := by decide +kernel

def s_Streams_2f : State :=
  withOwner (Stream.start 2 1 0 none) { State.reset with dge := { State.reset.dge with mgcWait := some 5 } }

theorem wit_Streams_2f :
    (s_Streams_2f.stream 16).state = 1 ∧ (s_Streams_2f.stream 16).holder = 1 ∧ s_Streams_2f.dge.mgcWait = some 5 ∧ s_Streams_2f.dgeReject = none := by decide +kernel

def s_Streams_3 : State :=
  withOwner { Stream.start 2 1 0 none with state := 2, part := txt "abc", count := 3 } State.reset

theorem wit_Streams_3 :
    (s_Streams_3.stream 16).state = 2 ∧ s_Streams_3.dge.ctxs.length = 17 ∧ s_Streams_3.dgeReject = none := by decide +kernel

def s_Streams_4 : State :=
  withOwner { Stream.reset with state := 3, holder := 1, digest := List.replicate 64 7 } State.reset

theorem wit_Streams_4 :
    (s_Streams_4.stream 16).state = 3 ∧ s_Streams_4.dgeReject = none ∧ s_Streams_4.barOn 16 = true := by decide +kernel

theorem wit_Streams_4b :
    (State.reset.stream 16).state ≠ 3 ∧ State.reset.barOn 16 = true := by decide +kernel

def s_CruPorts_1 : State :=
  put [(jpar R.CRU_CFG_WIDTH 3 1, 32), (R.JPAR_CFG_WIDTH 3 1, 32), (jpar R.POLY_LO 3 1, 0x04C11DB7), (jpar R.INIT_LO 3 1, 0xFFFFFFFF), (R.JFOLD_LO 3 1, 0x01020304)] State.reset

theorem wit_CruPorts_1 :
    s_CruPorts_1.crus.length = 4 ∧ (s_CruPorts_1.cru 3).ports.length = 2 ∧ s_CruPorts_1.bitAt R.ENG_RST_STAT (11 + 3) = false ∧ (s_CruPorts_1.cruPort 3 1).state = 0 ∧ s_CruPorts_1.jpar64 3 1 R.POLY_LO R.POLY_HI ≠ 0 ∧
      s_CruPorts_1.jpar64 3 1 R.POLY_LO R.POLY_HI < 2 ^ s_CruPorts_1.rd (R.JPAR_CFG_WIDTH 3 1) ∧ s_CruPorts_1.jpar64 3 1 R.INIT_LO R.INIT_HI < 2 ^ s_CruPorts_1.rd (R.JPAR_CFG_WIDTH 3 1) ∧
          s_CruPorts_1.jpar64 3 1 R.XOROUT_LO R.XOROUT_HI < 2 ^ s_CruPorts_1.rd (R.JPAR_CFG_WIDTH 3 1) := by decide +kernel

/-- Job port 1 of CRU 3 as given. -/
def withJobPort (x : CruPort) (s : State) : State := s.setCruPort 3 1 x
def s_CruPorts_2 : State :=
  put [(R.JDATA_LO 3 1, 0x0D0C0B0A)] (withJobPort { CruPort.reset with state := 1, width := 32, poly := 0x04C11DB7, buf := List.replicate 56 0 } State.reset)

theorem wit_CruPorts_2 :
    (s_CruPorts_2.cruPort 3 1).state = 1 ∧ (s_CruPorts_2.cruPort 3 1).buf.length ≤ 56 ∧ s_CruPorts_2.crus.length = 4 ∧ (s_CruPorts_2.cru 3).ports.length = 2 := by decide +kernel

def s_CruPorts_2b : State :=
  withJobPort { CruPort.reset with state := 1, width := 32, poly := 0x04C11DB7, buf := List.replicate 57 0, busy := 1000000 } State.reset

theorem wit_CruPorts_2b :
    56 < (s_CruPorts_2b.cruPort 3 1).buf.length ∧ (s_CruPorts_2b.cruPort 3 1).state = 1 := by decide +kernel

def s_CruPorts_2e : State :=
  withJobPort { CruPort.reset with state := 1, width := 32, poly := 0x04C11DB7, buf := List.replicate 58 0, busy := 1000000 } State.reset

theorem wit_CruPorts_2e :
    64 < (s_CruPorts_2e.cruPort 3 1).buf.length + 7 ∧ (s_CruPorts_2e.cruPort 3 1).state = 1 := by decide +kernel

def s_CruPorts_4 : State :=
  withJobPort { CruPort.reset with state := 2, width := 32, poly := 0x04C11DB7, refin := true, refout := true, xorout := 0xFFFFFFFF, reg := 0xFFFFFFFF, buf := txt "123456789" } State.reset

theorem wit_CruPorts_4 :
    (s_CruPorts_4.cruPort 3 1).state = 2 ∧ s_CruPorts_4.bitAt R.ENG_RST_STAT (11 + 3) = false := by decide +kernel

theorem test_crc32_check_value : ((next (.cruPortJobDone 3 1) s_CruPorts_4).cruPort 3 1).result = 0xCBF43926 := by decide +kernel

/-! ### Witnesses: c16 -/

/-- The source state of an asking source. -/
def src0 : IrqSrc := { IrqSrc.reset with latch := true, mask := false, pend := true, oldest := some 0, vec := 77, cnt := 5 }

/-- A state with this source's state. -/
def withSrc (i : Nat) (x : IrqSrc) (s : State) : State := s.setSrc i x

def s_Interrupts_1 : State :=
  withSrc 249 src0 (put [(R.SLOT_STATE_IDLE 15, 1), (R.MSIX_ADDR_LO 16 15, 0xFEE00000), (R.MSIX_CTRL_MASK 16 15, 0), (R.SLOT_STATE_OFFLINE 15, 0)] (inf [(R.ROUTE_SLOT 249, 15), (R.SYS_MSG_MAX, 1)] State.reset))

set_option maxRecDepth 1000000 in
theorem wit_Interrupts_1 :
    s_Interrupts_1.bitAt R.ENG_RST_STAT 15 = false ∧ s_Interrupts_1.irc.lastMsg = none ∧ s_Interrupts_1.countOffline.nextMsg = some (249, 15, 0) ∧ s_Interrupts_1.countOffline.msgHeld (sourceOwner 249) 15 = false := by decide +kernel

def s_Interrupts_1b : State :=
  withSrc 9 src0 (put [(R.SLOT_STATE_OFFLINE 0, 0), (R.MSIX_CTRL_MASK 0 0, 1)] State.reset)

set_option maxRecDepth 1000000 in
theorem wit_Interrupts_1b :
    s_Interrupts_1b.bitAt R.ENG_RST_STAT 15 = false ∧ s_Interrupts_1b.countOffline.nextMsg = some (9, 0, 0) ∧ s_Interrupts_1b.countOffline.msgHeld (sourceOwner 9) 0 = true := by decide +kernel

def s_Interrupts_2 : State :=
  { State.reset with regs := regPut State.reset.regs R.ENG_RST_STAT (2 ^ 15) }

theorem wit_Interrupts_2 :
    s_Interrupts_2.bitAt R.ENG_RST_STAT 15 = true := by decide +kernel

def s_Interrupts_3 : State :=
  withSrc 383 { src0 with held := some (15, 77) } (put [(R.MSIX_PBA_LO 16, 0x8001), (R.MSIX_CTRL_MASK 16 15, 0)] State.reset)

theorem wit_Interrupts_3 :
    (s_Interrupts_3.src 383).held = some (15, 77) ∧ s_Interrupts_3.msgHeld (sourceOwner 383) 15 = false ∧ mwf s_Interrupts_3.irc.src = true ∧ (∀ x ∈ s_Interrupts_3.irc.src, x.1 ≠ 383 → x.2.held = none) := by decide +kernel

def s_Interrupts_4b : State :=
  withSrc 383 { src0 with insvc := true } { State.reset with cyc := { State.reset.cyc with srcs := [(383, (4, 1))] } }

theorem wit_Interrupts_4b :
    (mget s_Interrupts_4b.cyc.srcs 383).isSome = true ∧ s_Interrupts_4b.bitAt R.ENG_RST_STAT 15 = false := by decide +kernel

def s_Interrupts_6 : State :=
  withSrc 205 src0 State.reset

theorem wit_Interrupts_6 :
    sourceOwner 205 = 16 := by decide +kernel

/-- Tenants 0 to 15 are present and addressable, and source i is asking. -/
def srcOf (i : Nat) : State := withSrc i src0 { State.reset with hif := { Hif.reset with numVfs := 16 }, now := 10000000000 }

def s_Interrupts_6b : State :=
  srcOf 159

theorem wit_Interrupts_6b :
    sourceOwner 159 = 15 ∧ s_Interrupts_6b.barOn 16 = true := by decide +kernel

def s_Interrupts_7 : State :=
  srcOf 185

theorem wit_Interrupts_7 :
    sourceOwner 185 = 15 ∧ s_Interrupts_7.barOn 15 = true := by decide +kernel

def s_Interrupts_7b : State :=
  srcOf 159

theorem wit_Interrupts_7b :
    sourceOwner 159 = 15 ∧ s_Interrupts_7b.barOn 15 = true := by decide +kernel

def s_Interrupts_7c : State :=
  { srcOf 159 with cyc := { State.reset.cyc with srcs := [(159, (4, 1))] } }

theorem wit_Interrupts_7c :
    sourceOwner 159 = 15 ∧ s_Interrupts_7c.barOn 15 = true ∧ mgetD s_Interrupts_7c.cyc.srcs 159 ((s_Interrupts_7c.src 159).cnt, 0) = (4, 1) := by decide +kernel

/-- The event log holds one entry. -/
def log1 (s : State) : State := { s with irc := { s.irc with log := [⟨0x60, 6, 9⟩] } }

def s_Fifos_1 : State :=
  log1 State.reset

theorem wit_Fifos_1 :
    s_Fifos_1.irc.log = [⟨0x60, 6, 9⟩] ∧ s_Fifos_1.cyc.log < s_Fifos_1.irc.log.length ∧ s_Fifos_1.bitAt R.ENG_RST_STAT 15 = false := by decide +kernel

theorem wit_Fifos_2 :
    State.reset.irc.log.length ≤ State.reset.cyc.log ∧ State.reset.bitAt R.ENG_RST_STAT 15 = false := by decide +kernel

def s_Fifos_3 : State :=
  put [(R.TELE_CFG_EN, 1), (R.TELE_CFG_TYPES, 1), (R.TELE_CFG_PERIOD, 1)] State.reset

theorem wit_Fifos_3 :
    s_Fifos_3.bit R.TELE_CFG_EN = true ∧ s_Fifos_3.irc.teleTick ≠ some s_Fifos_3.tick.num ∧ s_Fifos_3.tickNum % s_Fifos_3.rd R.TELE_CFG_PERIOD = 0 ∧ s_Fifos_3.rd R.TELE_CFG_TYPES = 1 ∧ s_Fifos_3.rd R.TELE_CFG_DEST ≠ 2 ∧ s_Fifos_3.irc.teleLost = 0 ∧ s_Fifos_3.irc.tele.length < teleMax := by decide +kernel

def s_Fifos_3b : State :=
  put [(R.TELE_CFG_EN, 1), (R.TELE_CFG_TYPES, 7), (R.TELE_CFG_PORTS, 63), (R.TELE_CFG_PERIOD, 1), (R.TELE_FLOW_N, 3), (R.TELE_WM, 2)] State.reset

def s_Fifos_3c : State :=
  put [(R.TELE_CFG_EN, 1), (R.TELE_CFG_TYPES, 1), (R.TELE_CFG_PERIOD, 1), (R.TELE_WM, 1)] State.reset

theorem wit_Fifos_3c :
    s_Fifos_3c.rd R.TELE_WM = 1 := by decide +kernel

/-- The telemetry FIFO holds one record. -/
def tele1 (s : State) : State := { s with irc := { s.irc with tele := [(List.range 16).map (· + 100)] } }

def s_Fifos_4 : State :=
  tele1 State.reset

theorem wit_Fifos_4 :
    s_Fifos_4.rd R.TELE_CFG_DEST = 0 ∧ s_Fifos_4.irc.tele ≠ [] ∧ s_Fifos_4.cyc.tele < s_Fifos_4.irc.tele.length ∧ s_Fifos_4.bitAt R.ENG_RST_STAT 15 = false := by decide +kernel

def s_Fifos_5 : State :=
  put [(R.TELE_CFG_DEST, 1), (R.TLR_HEAD, 65535), (R.TLR_TAIL, 65528), (R.TLR_LOG2, 3)] (tele1 host0)

theorem wit_Fifos_5 :
    s_Fifos_5.rd R.TELE_CFG_DEST = 1 ∧ s_Fifos_5.irc.tele ≠ [] ∧ s_Fifos_5.mayWrite 16 = true ∧ s_Fifos_5.stalled = false ∧ s_Fifos_5.ringRoom = true ∧
          (s_Fifos_5.rd R.TLR_HEAD + 2 ^ 16 - s_Fifos_5.rd R.TLR_TAIL) % 2 ^ 16 < 2 ^ s_Fifos_5.rd R.TLR_LOG2 := by decide +kernel

def s_Fifos_6 : State :=
  put [(R.TLR_HEAD, 2), (R.TLR_TAIL, 65530)] State.reset

theorem wit_Fifos_6 :
    s_Fifos_6.bitAt R.ENG_RST_STAT 15 = false ∧ ((2 : BitVec 16).toNat + 2 ^ 16 - s_Fifos_6.rd R.TLR_TAIL) % 2 ^ 16 ≤ (s_Fifos_6.rd R.TLR_HEAD + 2 ^ 16 - s_Fifos_6.rd R.TLR_TAIL) % 2 ^ 16 := by decide +kernel

def s_Fifos_7 : State :=
  put [(R.EVLOG_AGE_TICKS, 65535)] (log1 { State.reset with irc := { State.reset.irc with logAge := 65535 } })

theorem wit_Fifos_7 :
    s_Fifos_7.rd R.EVLOG_AGE_TICKS ≠ 0 ∧ s_Fifos_7.irc.log ≠ [] ∧ s_Fifos_7.rd R.EVLOG_AGE_TICKS ≤ s_Fifos_7.irc.logAge ∧ s_Fifos_7.irc.aged.1 = false := by decide +kernel

def s_Fifos_8 : State :=
  put [(R.TELE_AGE_TICKS, 1)] (tele1 { State.reset with irc := { State.reset.irc with teleAge := 1 } })

theorem wit_Fifos_8 :
    s_Fifos_8.rd R.TELE_AGE_TICKS ≠ 0 ∧ s_Fifos_8.irc.tele ≠ [] ∧ s_Fifos_8.rd R.TELE_AGE_TICKS ≤ s_Fifos_8.irc.teleAge ∧ s_Fifos_8.irc.aged.2 = false := by decide +kernel

/-! ### Witnesses: c17 -/

/-- MGC runs. -/
def run0 (s : State) : State := { s with boot := { s.boot with phase := .ended } }

/-- MGC runs and another line waits for its reply. -/
def busy0 (s : State) : State := { run0 s with con := { s.con with serving := some .check } }

/-- MGC runs and this line is next. -/
def line (ch : Nat) (strict : Bool) (t : String) (s : State) : State := { run0 s with con := { s.con with lines := [⟨ch, txt t, strict, false, 0⟩] } }

theorem wit_ConsoleInputs_1 :
    State.reset.addressable 0 = false := by decide +kernel

theorem wit_ConsoleInputs_1x :
    State.reset.addressable 15 = false := by decide +kernel

def s_ConsoleInputs_1y : State :=
  host0.setPci 1 { PciFn.reset with mse := false }

theorem wit_ConsoleInputs_1y :
    s_ConsoleInputs_1y.addressable 1 = true ∧ (s_ConsoleInputs_1y.pci 1).mse = false := by decide +kernel

def s_ConsoleInputs_1z : State :=
  { host0 with regs := regPut host0.regs R.HIF_FLR_STAT 2 }

theorem wit_ConsoleInputs_1z :
    s_ConsoleInputs_1z.addressable 1 = true ∧ (s_ConsoleInputs_1z.pci 1).mse = true ∧ s_ConsoleInputs_1z.bitAt R.HIF_FLR_STAT 1 = true := by decide +kernel

def s_ConsoleInputs_2 : State :=
  inf [(R.QUOTA_MBX_EN 1, 0)] host0

theorem wit_ConsoleInputs_2 :
    s_ConsoleInputs_2.barOn 1 = true ∧ s_ConsoleInputs_2.inf (R.QUOTA_MBX_EN 1) = 0 := by decide +kernel

def s_ConsoleInputs_3 : State :=
  put [(R.MBX_STAT_CMD_BUSY 1, 1)] (inf [(R.QUOTA_MBX_EN 1, 1)] host0)

theorem wit_ConsoleInputs_3 :
    s_ConsoleInputs_3.barOn 1 = true ∧ s_ConsoleInputs_3.inf (R.QUOTA_MBX_EN 1) ≠ 0 ∧ s_ConsoleInputs_3.bit (R.MBX_STAT_CMD_BUSY 1) = true := by decide +kernel

def s_ConsoleInputs_4 : State :=
  busy0 (put [(R.MBX_CMD_LEN 16, 160), (mbxWord 16 0, 0x04030201), (mbxWord 16 39, 0xFFFFFFFF)] State.reset)

theorem wit_ConsoleInputs_4 :
    s_ConsoleInputs_4.barOn 16 = true ∧ s_ConsoleInputs_4.bit (R.MBX_STAT_CMD_BUSY 16) = false ∧ s_ConsoleInputs_4.conIdle = false := by decide +kernel

def s_ConsoleInputs_5 : State :=
  State.reset.modChan 1 (fun c => { c with replies := [(false, [1]), (true, [2])] })

theorem wit_ConsoleInputs_5 :
    s_ConsoleInputs_5.barOn 16 = true ∧ (s_ConsoleInputs_5.chan (chNum (.mbx 16))).events = [] ∧ s_ConsoleInputs_5.con.waiting = [] ∧ s_ConsoleInputs_5.con.lines = [] := by decide +kernel

def s_ConsoleInputs_6 : State :=
  put [(R.MBX_STAT_CMD_BUSY 16, 1)] { State.reset.modChan 1 (fun c => { c with replies := List.replicate 16 (false, [1]) }) with con := { (State.reset.modChan 1 (fun c => { c with replies := List.replicate 16 (false, [1]) })).con with waiting := [(16, true, [9])] } }

theorem wit_ConsoleInputs_6 :
    s_ConsoleInputs_6.barOn 16 = true ∧ (s_ConsoleInputs_6.chan (chNum (.mbx 16))).events = [] ∧ (s_ConsoleInputs_6.chan (chNum (.mbx 16))).replies.length = 16 ∧ s_ConsoleInputs_6.con.waiting = [(16, true, [9])] ∧ s_ConsoleInputs_6.con.lines = [] := by decide +kernel

def s_ConsoleInputs_7 : State :=
  put [(R.CON_CFG_UART_MODE, 0)] State.reset

theorem wit_ConsoleInputs_7 :
    s_ConsoleInputs_7.rd R.CON_CFG_UART_MODE = 0 := by decide +kernel

theorem wit_ConsoleInputs_8 :
    State.reset.rd R.CON_CFG_UART_MODE ≠ 0 ∧ State.reset.bit R.BOOT_STAT_RECOVERY = false ∧ State.reset.uartBehind < 512 := by decide +kernel

def s_ConsoleInputs_9 : State :=
  { State.reset with con := { State.reset.con with lines := [⟨0, [], false, false, 0⟩], part := List.replicate 512 65 } }

theorem wit_ConsoleInputs_9 :
    512 ≤ s_ConsoleInputs_9.uartBehind := by decide +kernel

def s_ConsoleInputs_10 : State :=
  { State.reset with con := { State.reset.con with lines := [⟨0, [], false, false, 0⟩], part := List.replicate 511 65 } }

theorem wit_ConsoleInputs_10 :
    s_ConsoleInputs_10.uartBehind < 512 := by decide +kernel

def s_ConsoleInputs_10b : State :=
  put [(R.CON_STAT_STRICT, 1)] State.reset

theorem wit_ConsoleInputs_10b :
    s_ConsoleInputs_10b.strict 0 = true ∧ s_ConsoleInputs_10b.uartBehind < 512 := by decide +kernel

def s_ConsoleInputs_11 : State :=
  put [(R.CON_STAT_STRICT, 0)] { State.reset with con := { State.reset.con with part := [65, 66] } }

theorem wit_ConsoleInputs_11 :
    s_ConsoleInputs_11.strict 0 = false ∧ s_ConsoleInputs_11.uartBehind < 512 := by decide +kernel

def s_ConsoleInputs_12 : State :=
  { State.reset with con := { State.reset.con with lastCr := true } }

theorem wit_ConsoleInputs_12 :
    s_ConsoleInputs_12.con.lastCr = true := by decide +kernel

def s_ConsoleInputs_13 : State :=
  busy0 { State.reset with con := { State.reset.con with part := [65, 66] } }

theorem wit_ConsoleInputs_13 :
    s_ConsoleInputs_13.conIdle = false ∧ s_ConsoleInputs_13.uartBehind < 512 ∧ s_ConsoleInputs_13.crus.length = 4 ∧ (s_ConsoleInputs_13.cru 3).ports.length = 2 ∧ s_ConsoleInputs_13.bit R.BOOT_STAT_RECOVERY = false ∧ s_ConsoleInputs_13.rd R.CON_CFG_UART_MODE ≠ 0 := by decide +kernel

def s_ConsoleInputs_13b : State :=
  put [(R.CON_STAT_STRICT, 0)] (busy0 { State.reset with con := { State.reset.con with part := [65, 66] } })

theorem wit_ConsoleInputs_13b :
    s_ConsoleInputs_13b.conIdle = false ∧ s_ConsoleInputs_13b.uartBehind < 512 ∧ s_ConsoleInputs_13b.con.lastCr = false := by decide +kernel

theorem wit_ConsoleInputs_14 :
    State.reset.con.tx = [] := by decide +kernel

def s_ConsoleInputs_15 : State :=
  { State.reset with con := { State.reset.con with tx := [1, 2], rateNext := some (1, 7) } }

theorem wit_ConsoleInputs_15 :
    s_ConsoleInputs_15.con.tx = [1, 2] ∧ (s_ConsoleInputs_15.chan 0).events = [] ∧ s_ConsoleInputs_15.con.rateNext = some (1, 7) := by decide +kernel

def s_ConsoleInputs_15b : State :=
  { State.reset with con := { State.reset.con with tx := [1] } }

theorem wit_ConsoleInputs_15b :
    s_ConsoleInputs_15b.con.rateNext = none := by decide +kernel

theorem wit_ConsoleInputs_16 :
    State.reset.hif.mgc = [] := by decide +kernel

/-- A frame from port 0 with this network console payload waits for MGC. -/
def netBytes (pay : List Byte) : List Byte := withFcs (List.replicate 6 1 ++ List.replicate 6 2 ++ [0x88, 0xB5] ++ pay ++ List.replicate (46 - pay.length) 0)
def netState (pay : List Byte) : State :=
  busy0 (inf [(R.NETCON_CFG_PORTS, 1), (R.NETCON_CFG_ETYPE, 0x88B5), (R.NETCON_CFG2_KEY, 63)]
    { upState with frames := [(0, { frame0 with exits := [⟨exit0 8 0, 0, 0, 0, none⟩], resolved := true })], led := { Led.reset with entries := [(0, entry0)] }
                   dge := { Dge.reset with slots := [(63, ⟨keyBankOf 1 true false (txt "key"), KeyBank.reset, false, none⟩)] }
                   hif := { Hif.reset with mgc := [(0, 0)] }, buf := { Buf.reset with cells := [(0, some ⟨netBytes pay, none, true, false, ccrcOf 0 (netBytes pay)⟩)] } })

/-- A payload of kind 1 with a line, and its tag. -/
def netPay0 : List Byte := [1, 1, 63, 4] ++ txt "ping"
def netTag0 : List Byte := (State.netTag (netState []) 63 (List.replicate 6 2) netPay0).getD []

/-- What the statement on NETCON_FRAME asks of the frame. -/
def netHyps (s : State) : Bool :=
  match mget s.frames 0, s.hif.mgc.head? with
  | some f, some (0, 0) =>
    match s.provenBytes f, f.exits[0]? with
    | some o, some x =>
      let b := (s.exitBytes f x.exit o).1
      f.resolved && f.src == .port 0 && !s.mgcStopped && s.inf R.NETCON_CFG_PORTS / 2 ^ 0 % 2 == 1
        && (parseTags (s.tpidOf f.src) b).etype == s.inf R.NETCON_CFG_ETYPE && (parseTags (s.tpidOf f.src) b).etypeOff == 12
    | _, _ => false
  | _, _ => false

def s_ConsoleInputs_17 : State :=
  withOwner (Stream.start 2 1 0 none) (netState (netPay0 ++ netTag0))

theorem wit_ConsoleInputs_17 :
    netHyps s_ConsoleInputs_17 = true ∧ s_ConsoleInputs_17.ownerHolds16 = true ∧ (s_ConsoleInputs_17.netWants (List.replicate 6 2) (netPay0 ++ netTag0)).isSome = true := by decide +kernel

def s_ConsoleInputs_18 : State :=
  netState [2, 1, 63, 4]

theorem wit_ConsoleInputs_18 :
    netHyps s_ConsoleInputs_18 = true ∧ s_ConsoleInputs_18.ownerHolds16 = false := by decide +kernel

def s_ConsoleInputs_19 : State :=
  netState (netPay0 ++ netTag0)

theorem wit_ConsoleInputs_19 :
    netHyps s_ConsoleInputs_19 = true ∧ s_ConsoleInputs_19.ownerHolds16 = false ∧ s_ConsoleInputs_19.conIdle = false ∧ s_ConsoleInputs_19.netTag (s_ConsoleInputs_19.inf R.NETCON_CFG2_KEY) (List.replicate 6 2) netPay0 = some netTag0 ∧ (next (.netconFrame) s_ConsoleInputs_19).con.lines = [⟨2, txt "ping", true, false, s_ConsoleInputs_19.now⟩] := by decide +kernel

/-- The UART's channel holds the reply to sequence 7. -/
def stored0 (ch : Nat) (v : Option (Nat × List (List Byte))) (s : State) : State := s.modChan ch (fun c => { c with stored := v })

def s_ConsoleInputs_20 : State :=
  stored0 0 (some (7, [txt "ok"])) (line 0 true "#7 ping *F58C" State.reset)

theorem wit_ConsoleInputs_20 :
    s_ConsoleInputs_20.con.lines = [⟨0, txt "#7 ping *F58C", true, false, 0⟩] ∧ s_ConsoleInputs_20.conIdle = true ∧ s_ConsoleInputs_20.judgeLine ⟨0, txt "#7 ping *F58C", true, false, 0⟩ = .retry ∧ (s_ConsoleInputs_20.chan 0).stored = some (7, [txt "ok"]) := by decide +kernel

def s_ConsoleInputs_21 : State :=
  stored0 1 (some (7, [txt "ok"])) (line 1 true "#7 ping *F58C" (put [(R.MBX_STAT_CMD_BUSY 16, 1)] State.reset))

theorem wit_ConsoleInputs_21 :
    s_ConsoleInputs_21.conIdle = true ∧ s_ConsoleInputs_21.judgeLine ⟨1, txt "#7 ping *F58C", true, false, 0⟩ = .retry ∧ (s_ConsoleInputs_21.chan 1).replies = [] := by decide +kernel

def s_ConsoleInputs_22 : State :=
  line 7 true "#7 ping *F58C" (put [(R.NET_LAST_SEQ 5, 0x10007)] State.reset)

theorem wit_ConsoleInputs_22 :
    s_ConsoleInputs_22.conIdle = true ∧ s_ConsoleInputs_22.judgeLine ⟨7, txt "#7 ping *F58C", true, false, 0⟩ = .retry ∧ (s_ConsoleInputs_22.chan 7).stored = none := by decide +kernel

/-- What the statements on the verbs ask of a state with one line: the channel, the verb and the number of its arguments. -/
def servesLine (s : State) (ch : Channel) (v : ConVerb) (n : Nat) : Bool :=
  match s.con.lines with
  | [x] => s.conIdle && x.ch == chNum ch && (match s.judgeLine x with
    | .verb w _ a => w == v && a.length == n && (s.verbRefused x.ch v).isNone
    | _ => false)
  | _ => false

theorem servesLine_serves {s : State} {ch : Channel} {v : ConVerb} {n : Nat} (h : servesLine s ch v n = true) :
    ∃ x q a, s.con.lines = [x] ∧ a.length = n ∧ s.Serves ch v x q a := by
  unfold servesLine at h
  split at h
  · rename_i x hx
    split at h
    · rename_i w q a hj
      simp only [Bool.and_eq_true, beq_iff_eq, Option.isNone_iff_eq_none] at h
      obtain ⟨⟨h1, h2⟩, ⟨h3, h4⟩, h5⟩ := h
      subst h3
      exact ⟨x, q, a, hx, h4, by simp [hx], h1, h2, hj, h5⟩
    · simp at h
  · simp at h

def s_ConsoleVerbs_1 : State :=
  line 0 false "ping" (State.reset)

theorem wit_ConsoleVerbs_1 :
    servesLine s_ConsoleVerbs_1 (.uart) .ping 0 = true := by decide +kernel

def s_ConsoleVerbs_1b : State :=
  line 7 true "#7 ping *F58C" (put [(R.NET_LAST_SEQ 5, 0x10006)] State.reset)

theorem wit_ConsoleVerbs_1b :
    servesLine s_ConsoleVerbs_1b (.net 5) .ping 0 = true := by decide +kernel

def s_ConsoleVerbs_1c : State :=
  line 23 false "ping x" (State.reset)

theorem wit_ConsoleVerbs_1c :
    servesLine s_ConsoleVerbs_1c (.mbx 15) .ping 1 = true := by decide +kernel

def s_ConsoleVerbs_2 : State :=
  line 0 false "mode strict" (State.reset)

theorem wit_ConsoleVerbs_2 :
    servesLine s_ConsoleVerbs_2 (.uart) .mode 1 = true := by decide +kernel

def s_ConsoleVerbs_2b : State :=
  line 1 false "mode int" (State.reset)

theorem wit_ConsoleVerbs_2b :
    servesLine s_ConsoleVerbs_2b (.mbx 16) .mode 1 = true := by decide +kernel

def s_ConsoleVerbs_3 : State :=
  line 0 false "baud 3000000" (State.reset)

theorem wit_ConsoleVerbs_3 :
    servesLine s_ConsoleVerbs_3 (.uart) .baud 1 = true ∧ bauds.findIdx? (· == 3000000) = some 7 := by decide +kernel

def s_ConsoleVerbs_3b : State :=
  line 0 false "baud 9600" (State.reset)

theorem wit_ConsoleVerbs_3b :
    servesLine s_ConsoleVerbs_3b (.uart) .baud 1 = true ∧ 9600 ∉ bauds := by decide +kernel

def s_ConsoleVerbs_4_0 : State :=
  line 0 false "show device" (State.reset)

theorem wit_ConsoleVerbs_4_0 :
    servesLine s_ConsoleVerbs_4_0 (.uart) .show_ 1 = true ∧ tenantOf 0 = none ∧ s_ConsoleVerbs_4_0.bit R.BOOT_STAT_RECOVERY = false := by decide +kernel

def s_ConsoleVerbs_4_1 : State :=
  line 0 false "show tick" (State.reset)

theorem wit_ConsoleVerbs_4_1 :
    servesLine s_ConsoleVerbs_4_1 (.uart) .show_ 1 = true ∧ tenantOf 0 = none ∧ s_ConsoleVerbs_4_1.bit R.BOOT_STAT_RECOVERY = false := by decide +kernel

def s_ConsoleVerbs_4_2 : State :=
  line 0 false "show time" (State.reset)

theorem wit_ConsoleVerbs_4_2 :
    servesLine s_ConsoleVerbs_4_2 (.uart) .show_ 1 = true ∧ tenantOf 0 = none ∧ s_ConsoleVerbs_4_2.bit R.BOOT_STAT_RECOVERY = false := by decide +kernel

def s_ConsoleVerbs_4_3 : State :=
  line 0 false "show epoch" (State.reset)

theorem wit_ConsoleVerbs_4_3 :
    servesLine s_ConsoleVerbs_4_3 (.uart) .show_ 1 = true ∧ tenantOf 0 = none ∧ s_ConsoleVerbs_4_3.bit R.BOOT_STAT_RECOVERY = false := by decide +kernel

def s_ConsoleVerbs_4_5 : State :=
  line 0 false "show buffer" (State.reset)

theorem wit_ConsoleVerbs_4_5 :
    servesLine s_ConsoleVerbs_4_5 (.uart) .show_ 1 = true ∧ tenantOf 0 = none ∧ s_ConsoleVerbs_4_5.bit R.BOOT_STAT_RECOVERY = false := by decide +kernel

def s_ConsoleVerbs_4_8 : State :=
  line 0 false "show stage" (State.reset)

theorem wit_ConsoleVerbs_4_8 :
    servesLine s_ConsoleVerbs_4_8 (.uart) .show_ 1 = true ∧ tenantOf 0 = none ∧ s_ConsoleVerbs_4_8.bit R.BOOT_STAT_RECOVERY = false := by decide +kernel

def s_ConsoleVerbs_4_9 : State :=
  line 23 false "show self" (State.reset)

theorem wit_ConsoleVerbs_4_9 :
    servesLine s_ConsoleVerbs_4_9 (.mbx 15) .show_ 1 = true ∧ tenantOf 23 = some 15 := by decide +kernel

def s_ConsoleVerbs_4_s : State :=
  line 23 false "show stage" (State.reset)

theorem wit_ConsoleVerbs_4_s :
    servesLine s_ConsoleVerbs_4_s (.mbx 15) .show_ 1 = true := by decide +kernel

def s_ConsoleVerbs_5 : State :=
  line 0 false "rd 0x3FFFFC" (State.reset)

theorem wit_ConsoleVerbs_5 :
    servesLine s_ConsoleVerbs_5 (.uart) .rd 1 = true := by decide +kernel

def s_ConsoleVerbs_5b : State :=
  line 0 false "rd 0x400000" (State.reset)

theorem wit_ConsoleVerbs_5b :
    servesLine s_ConsoleVerbs_5b (.uart) .rd 1 = true := by decide +kernel

def s_ConsoleVerbs_6 : State :=
  line 0 false "wr 0xA0800 0" (State.reset)

theorem wit_ConsoleVerbs_6 :
    servesLine s_ConsoleVerbs_6 (.uart) .wr 2 = true ∧ ((s_ConsoleVerbs_6.ownerWrite 0xA0800 0).1) = none := by decide +kernel

def s_ConsoleVerbs_6b : State :=
  line 0 false "wr 0x0 1" (State.reset)

theorem wit_ConsoleVerbs_6b :
    servesLine s_ConsoleVerbs_6b (.uart) .wr 2 = true := by decide +kernel

def s_ConsoleVerbs_7 : State :=
  line 0 false "set con_cfg uart_mode 1" (State.reset)

theorem wit_ConsoleVerbs_7 :
    servesLine s_ConsoleVerbs_7 (.uart) .set 3 = true := by decide +kernel

def s_ConsoleVerbs_8 : State :=
  line 0 false "stage drop" (put [(R.NETCON_CFG2_KEY, 5)] State.reset)

theorem wit_ConsoleVerbs_8 :
    servesLine s_ConsoleVerbs_8 (.uart) .stageDrop 0 = true ∧ s_ConsoleVerbs_8.tick.commitAt = none := by decide +kernel

def s_ConsoleVerbs_8b : State :=
  line 0 false "stage drop" ({ State.reset with tick := { Tick.reset with commitAt := some 5 } })

theorem wit_ConsoleVerbs_8b :
    servesLine s_ConsoleVerbs_8b (.uart) .stageDrop 0 = true ∧ s_ConsoleVerbs_8b.tick.commitAt ≠ none := by decide +kernel

def s_ConsoleVerbs_9 : State :=
  line 0 false "check" (State.reset)

theorem wit_ConsoleVerbs_9 :
    servesLine s_ConsoleVerbs_9 (.uart) .check 0 = true := by decide +kernel

def s_ConsoleVerbs_10 : State :=
  line 0 false "commit" (State.reset)

theorem wit_ConsoleVerbs_10 :
    servesLine s_ConsoleVerbs_10 (.uart) .commit 0 = true ∧ s_ConsoleVerbs_10.tick.commitAt = none := by decide +kernel

def s_ConsoleVerbs_10b : State :=
  line 0 false "commit" ({ State.reset with tick := { Tick.reset with commitAt := some 5 } })

theorem wit_ConsoleVerbs_10b :
    servesLine s_ConsoleVerbs_10b (.uart) .commit 0 = true ∧ s_ConsoleVerbs_10b.tick.commitAt ≠ none := by decide +kernel

def s_ConsoleVerbs_11 : State :=
  line 0 false "commit at tick 281474976710655" (State.reset)

theorem wit_ConsoleVerbs_11 :
    servesLine s_ConsoleVerbs_11 (.uart) .commit 3 = true ∧ s_ConsoleVerbs_11.tick.commitAt = none ∧ number (txt "281474976710655") = some (2 ^ 48 - 1) := by decide +kernel

def s_ConsoleVerbs_12 : State :=
  line 0 false "log 64" ({ State.reset with irc := { State.reset.irc with log := [⟨1, 5, 9⟩, ⟨0x60, 6, 9⟩] } })

theorem wit_ConsoleVerbs_12 :
    servesLine s_ConsoleVerbs_12 (.uart) .log 1 = true := by decide +kernel

def s_ConsoleVerbs_12b : State :=
  line 0 false "log 65" (State.reset)

theorem wit_ConsoleVerbs_12b :
    servesLine s_ConsoleVerbs_12b (.uart) .log 1 = true := by decide +kernel

def s_ConsoleVerbs_13 : State :=
  line 0 false "tele on" (State.reset)

theorem wit_ConsoleVerbs_13 :
    servesLine s_ConsoleVerbs_13 (.uart) .teleOn 0 = true ∧ s_ConsoleVerbs_13.con.tele = none := by decide +kernel

def s_ConsoleVerbs_13b : State :=
  line 0 false "tele on" ({ State.reset with con := { State.reset.con with tele := some 0 } })

theorem wit_ConsoleVerbs_13b :
    servesLine s_ConsoleVerbs_13b (.uart) .teleOn 0 = true ∧ s_ConsoleVerbs_13b.con.tele = some 0 := by decide +kernel

def s_ConsoleVerbs_13c : State :=
  line 0 false "tele on" ({ State.reset with con := { State.reset.con with tele := some 1 } })

theorem wit_ConsoleVerbs_13c :
    servesLine s_ConsoleVerbs_13c (.uart) .teleOn 0 = true ∧ s_ConsoleVerbs_13c.con.tele = some 1 := by decide +kernel

def s_ConsoleVerbs_14 : State :=
  line 0 false "tele off" ({ State.reset with con := { State.reset.con with tele := some 0 } })

theorem wit_ConsoleVerbs_14 :
    servesLine s_ConsoleVerbs_14 (.uart) .teleOff 0 = true ∧ s_ConsoleVerbs_14.con.tele = some 0 := by decide +kernel

def s_ConsoleVerbs_14b : State :=
  line 0 false "tele off" ({ State.reset with con := { State.reset.con with tele := some 1 } })

theorem wit_ConsoleVerbs_14b :
    servesLine s_ConsoleVerbs_14b (.uart) .teleOff 0 = true ∧ s_ConsoleVerbs_14b.con.tele ≠ some 0 := by decide +kernel

def s_ConsoleWork_1 : State :=
  line 0 false "mdio 5 rd 31 65535" (inf [(R.PHY_LOC_CL45 5, 1)] State.reset)

theorem wit_ConsoleWork_1 :
    servesLine s_ConsoleWork_1 (.uart) .mdioRd 3 = true ∧ s_ConsoleWork_1.inf (R.PHY_LOC_CL45 5) = 1 ∧ s_ConsoleWork_1.inf (R.PHY_LOC_BUS 5) < 2 ∧ s_ConsoleWork_1.mdio.length = 2 ∧ s_ConsoleWork_1.parked (s_ConsoleWork_1.inf (R.PHY_LOC_BUS 5)) = false ∧ (s_ConsoleWork_1.mdioOf (s_ConsoleWork_1.inf (R.PHY_LOC_BUS 5))).running = none ∧ (s_ConsoleWork_1.mdioOf (s_ConsoleWork_1.inf (R.PHY_LOC_BUS 5))).mgc = [] := by decide +kernel

def s_ConsoleWork_1b : State :=
  line 0 false "mdio 0 rd 0 32" (inf [(R.PHY_LOC_CL45 0, 0)] State.reset)

theorem wit_ConsoleWork_1b :
    servesLine s_ConsoleWork_1b (.uart) .mdioRd 3 = true ∧ s_ConsoleWork_1b.inf (R.PHY_LOC_CL45 0) ≠ 1 := by decide +kernel

def s_ConsoleWork_2 : State :=
  line 0 false "mdio 0 wr 31 65535 65535" (inf [(R.PHY_LOC_CL45 0, 1)] { State.reset with mdio := State.reset.mdio.map (fun x => { x with running := some (0, ⟨1, 3, 0, 0, 0, 0, 0⟩) }) })

theorem wit_ConsoleWork_2 :
    servesLine s_ConsoleWork_2 (.uart) .mdioWr 4 = true ∧ (s_ConsoleWork_2.mdioOf (s_ConsoleWork_2.inf (R.PHY_LOC_BUS 0))).running ≠ none ∧ s_ConsoleWork_2.inf (R.PHY_LOC_CL45 0) = 1 ∧ s_ConsoleWork_2.parked (s_ConsoleWork_2.inf (R.PHY_LOC_BUS 0)) = false ∧ s_ConsoleWork_2.mdio.length = 2 := by decide +kernel

def s_ConsoleWork_3 : State :=
  line 0 false "reset engine cru3" (State.reset)

theorem wit_ConsoleWork_3 :
    servesLine s_ConsoleWork_3 (.uart) .resetEngine 1 = true ∧ s_ConsoleWork_3.bitAt R.ENG_RST_STAT 14 = false := by decide +kernel

def s_ConsoleWork_3b : State :=
  line 0 false "reset engine mp0" ({ State.reset with regs := regPut State.reset.regs R.ENG_RST_STAT 1 })

theorem wit_ConsoleWork_3b :
    servesLine s_ConsoleWork_3b (.uart) .resetEngine 1 = true ∧ s_ConsoleWork_3b.bitAt R.ENG_RST_STAT 0 = true ∧ s_ConsoleWork_3b.selfNow 0 = false := by decide +kernel

def s_ConsoleWork_4 : State :=
  line 0 false "reset tenant 1" (host0)

theorem wit_ConsoleWork_4 :
    servesLine s_ConsoleWork_4 (.uart) .resetTenant 1 = true ∧ (1 : Nat) < s_ConsoleWork_4.hif.numVfs ∧ s_ConsoleWork_4.bitAt R.HIF_FLR_STAT 1 = false := by decide +kernel

def s_ConsoleWork_4b : State :=
  line 0 false "reset tenant 15" (host0)

theorem wit_ConsoleWork_4b :
    servesLine s_ConsoleWork_4b (.uart) .resetTenant 1 = true ∧ s_ConsoleWork_4b.hif.numVfs ≤ 15 ∧ s_ConsoleWork_4b.bitAt R.HIF_FLR_STAT 15 = false := by decide +kernel

def s_ConsoleWork_5 : State :=
  line 9 false "reset self" (host0)

theorem wit_ConsoleWork_5 :
    servesLine s_ConsoleWork_5 (.mbx 1) .resetSelf 0 = true ∧ tenantOf 9 = some 1 ∧ s_ConsoleWork_5.bitAt R.HIF_FLR_STAT 1 = false := by decide +kernel

def s_ConsoleWork_6 : State :=
  line 0 false "reset device" (State.reset)

theorem wit_ConsoleWork_6 :
    servesLine s_ConsoleWork_6 (.uart) .resetDevice 0 = true := by decide +kernel

def s_ConsoleWork_7 : State :=
  line 0 false "digest open sha512_256" (State.reset)

theorem wit_ConsoleWork_7 :
    servesLine s_ConsoleWork_7 (.uart) .digestOpen 1 = true ∧ s_ConsoleWork_7.dgeShut = false ∧ (s_ConsoleWork_7.stream 16).state = 0 := by decide +kernel

def s_ConsoleWork_7b : State :=
  line 0 false "digest open sha256" (withOwner { Stream.reset with state := 1, holder := 2 } State.reset)

theorem wit_ConsoleWork_7b :
    servesLine s_ConsoleWork_7b (.uart) .digestOpen 1 = true ∧ (s_ConsoleWork_7b.stream 16).holder = 2 := by decide +kernel

def s_ConsoleWork_8 : State :=
  line 0 false "digest data 61" (withOwner (Stream.start 1 1 0 none) State.reset)

theorem wit_ConsoleWork_8 :
    servesLine s_ConsoleWork_8 (.uart) .digestData 1 = true ∧ (s_ConsoleWork_8.stream 16).state = 1 ∧ (s_ConsoleWork_8.stream 16).holder = 1 := by decide +kernel

def s_ConsoleWork_8b : State :=
  line 0 false "digest data 0000000000000000000000000000000000000000000000000000000000000000000000000000000000000000000000000000000000000000000000000000000000" (State.reset)

theorem wit_ConsoleWork_8b :
    servesLine s_ConsoleWork_8b (.uart) .digestData 1 = true := by decide +kernel

def s_ConsoleWork_8c : State :=
  line 0 false "digest data 00000000000000000000000000000000000000000000000000000000000000000000000000000000000000000000000000000000000000000000000000000000" (State.reset)

theorem wit_ConsoleWork_8c :
    servesLine s_ConsoleWork_8c (.uart) .digestData 1 = true ∧ (s_ConsoleWork_8c.stream 16).state = 0 := by decide +kernel

def s_ConsoleWork_9 : State :=
  line 0 false "digest final" (withOwner { Stream.start 1 1 0 none with buf := txt "abc" } State.reset)

theorem wit_ConsoleWork_9 :
    servesLine s_ConsoleWork_9 (.uart) .digestFinal 0 = true ∧ (s_ConsoleWork_9.stream 16).state = 1 ∧ s_ConsoleWork_9.dge.ctxs.length = 17 ∧ s_ConsoleWork_9.dgeShut = false ∧ (s_ConsoleWork_9.stream 16).holder = holderOf 0 := by decide +kernel

def s_ConsoleWork_10 : State :=
  line 0 false "digest abort" (withOwner (Stream.start 1 1 0 none) State.reset)

theorem wit_ConsoleWork_10 :
    servesLine s_ConsoleWork_10 (.uart) .digestAbort 0 = true ∧ (s_ConsoleWork_10.stream 16).holder = holderOf 0 := by decide +kernel

def s_ConsoleWork_10b : State :=
  line 0 false "digest abort" (State.reset)

theorem wit_ConsoleWork_10b :
    servesLine s_ConsoleWork_10b (.uart) .digestAbort 0 = true ∧ (s_ConsoleWork_10b.stream 16).holder ≠ holderOf 0 := by decide +kernel

def s_ConsoleWork_11 : State :=
  line 0 false "update status" (State.reset)

theorem wit_ConsoleWork_11 :
    servesLine s_ConsoleWork_11 (.uart) .updateStatus 0 = true := by decide +kernel

def s_ConsoleWork_12 : State :=
  line 0 false "update begin a" (State.reset)

theorem wit_ConsoleWork_12 :
    servesLine s_ConsoleWork_12 (.uart) .updateBegin 1 = true ∧ s_ConsoleWork_12.jnl.get 0 ≠ 3 ∧ s_ConsoleWork_12.jnl.get 0 ≠ 4 ∧ s_ConsoleWork_12.foreignSession .uart = false := by decide +kernel

def s_ConsoleWork_12b : State :=
  line 0 false "update begin b" (State.reset)

theorem wit_ConsoleWork_12b :
    servesLine s_ConsoleWork_12b (.uart) .updateBegin 1 = true := by decide +kernel

def s_ConsoleWork_12c : State :=
  line 0 false "update begin b" (put [(R.UPD_STATE_B, 4)] State.reset)

theorem wit_ConsoleWork_12c :
    servesLine s_ConsoleWork_12c (.uart) .updateBegin 1 = true ∧ s_ConsoleWork_12c.jnl.get 1 = 4 := by decide +kernel

def s_ConsoleWork_13 : State :=
  line 0 false "update data 0 00FF" (put [(R.UPD_STATE_B, 1)] { State.reset with boot := { State.reset.boot with session := some (.uart, 1, 0) } })

theorem wit_ConsoleWork_13 :
    servesLine s_ConsoleWork_13 (.uart) .updateData 2 = true ∧ s_ConsoleWork_13.loading .uart = some (1, 0) := by decide +kernel

def s_ConsoleWork_13b : State :=
  line 0 false "update data 1 00FF" (put [(R.UPD_STATE_B, 1)] { State.reset with boot := { State.reset.boot with session := some (.uart, 1, 0) } })

theorem wit_ConsoleWork_13b :
    servesLine s_ConsoleWork_13b (.uart) .updateData 2 = true ∧ s_ConsoleWork_13b.loading .uart = some (1, 0) := by decide +kernel

def s_ConsoleWork_13c : State :=
  line 0 false "update data 1 00FF" (State.reset)

theorem wit_ConsoleWork_13c :
    servesLine s_ConsoleWork_13c (.uart) .updateData 2 = true ∧ s_ConsoleWork_13c.loading .uart = none := by decide +kernel

def s_ConsoleWork_13d : State :=
  line 0 false "update data 3145727 00FF" (put [(R.UPD_STATE_B, 1)] { State.reset with boot := { State.reset.boot with session := some (.uart, 1, 3145727) } })

theorem wit_ConsoleWork_13d :
    servesLine s_ConsoleWork_13d (.uart) .updateData 2 = true ∧ s_ConsoleWork_13d.loading .uart = some (1, 3145727) := by decide +kernel

def s_ConsoleWork_14 : State :=
  line 0 false "update end" (put [(R.UPD_STATE_B, 1)] { State.reset with boot := { State.reset.boot with session := some (.uart, 1, 0) } })

theorem wit_ConsoleWork_14 :
    servesLine s_ConsoleWork_14 (.uart) .updateEnd 0 = true ∧ s_ConsoleWork_14.genuine (s_ConsoleWork_14.slot 1) = false ∧ s_ConsoleWork_14.ownerHolds16 = false := by decide +kernel

def s_ConsoleWork_15 : State :=
  line 0 false "update activate" (put [(R.UPD_STATE_B, 2)] State.reset)

theorem wit_ConsoleWork_15 :
    servesLine s_ConsoleWork_15 (.uart) .updateActivate 0 = true ∧ s_ConsoleWork_15.stagedSlot = some 1 ∧ s_ConsoleWork_15.jnl.slotIn 3 = none ∧ s_ConsoleWork_15.passesRollback (s_ConsoleWork_15.jnl.sv 1) = true := by decide +kernel

def s_ConsoleWork_15b : State :=
  line 0 false "update activate" (State.reset)

theorem wit_ConsoleWork_15b :
    servesLine s_ConsoleWork_15b (.uart) .updateActivate 0 = true ∧ s_ConsoleWork_15b.stagedSlot = none := by decide +kernel

def s_ConsoleWork_16 : State :=
  line 0 false "update confirm" (put [(R.UPD_STATE_A, 4), (R.UPD_STATE_B, 3), (R.BOOT_STAT_SLOT, 1), (R.BOOT_STAT_TRIAL, 1)] State.reset)

theorem wit_ConsoleWork_16 :
    servesLine s_ConsoleWork_16 (.uart) .updateConfirm 0 = true ∧ s_ConsoleWork_16.jnl.get (s_ConsoleWork_16.rd R.BOOT_STAT_SLOT) = 3 ∧ s_ConsoleWork_16.jnl.get (1 - s_ConsoleWork_16.rd R.BOOT_STAT_SLOT) = 4 ∧ s_ConsoleWork_16.bit R.BOOT_STAT_TRIAL = true := by decide +kernel

def s_ConsoleWork_16b : State :=
  line 0 false "update confirm" (State.reset)

theorem wit_ConsoleWork_16b :
    servesLine s_ConsoleWork_16b (.uart) .updateConfirm 0 = true ∧ s_ConsoleWork_16b.bit R.BOOT_STAT_TRIAL = false := by decide +kernel

/-! ### Witnesses: c18 -/

def s_PowerTransitions_1 : State :=
  put [(R.FLT_STAT_ECLIPSE, 1)] State.reset

theorem wit_PowerTransitions_1 :
    s_PowerTransitions_1.bit R.FLT_STAT_ECLIPSE = true := by decide +kernel

def s_PowerTransitions_1b : State :=
  put [(R.PM_STAT_BUSY, 1)] State.reset

theorem wit_PowerTransitions_1b :
    s_PowerTransitions_1b.bit R.FLT_STAT_ECLIPSE = false ∧ s_PowerTransitions_1b.bit R.PM_STAT_BUSY = true := by decide +kernel

def s_PowerTransitions_1c : State :=
  put [(R.PM_STAT_STATE, 2)] State.reset

theorem wit_PowerTransitions_1c :
    s_PowerTransitions_1c.bit R.FLT_STAT_ECLIPSE = false ∧ s_PowerTransitions_1c.bit R.PM_STAT_BUSY = false ∧ s_PowerTransitions_1c.rd R.PM_STAT_STATE = 2 := by decide +kernel

theorem wit_PowerTransitions_1d :
    State.reset.bit R.PM_STAT_BUSY = false ∧ State.reset.rd R.PM_STAT_STATE = 0 := by decide +kernel

def s_PowerTransitions_1e : State :=
  put [(R.PM_STAT_STATE, 2)] State.reset

theorem wit_PowerTransitions_1e :
    s_PowerTransitions_1e.rd R.PM_STAT_STATE = 2 := by decide +kernel

def s_PowerTransitions_1f : State :=
  put [(R.PM_STAT_STATE, 1)] { State.reset with now := 9 }

theorem wit_PowerTransitions_1f :
    s_PowerTransitions_1f.rd R.PM_STAT_STATE = 1 ∧ s_PowerTransitions_1f.bit R.PM_STAT_BUSY = false := by decide +kernel

def s_PowerTransitions_1g : State :=
  inf [(R.PORT_CFG_IF 0, 1), (R.PORT_CFG_RATE_MAX 0, 1)] State.reset

theorem wit_PowerTransitions_1g :
    s_PowerTransitions_1g.rd R.PM_STAT_STATE = 0 ∧ s_PowerTransitions_1g.tick.commitAt = none ∧ (∀ p : Port, s_PowerTransitions_1g.inf (R.PORT_CFG_IF p) = 0 ∨ s_PowerTransitions_1g.inf (R.PORT_CFG_RATE_MAX p) ≤ 1) := by decide +kernel

def s_PowerTransitions_1h : State :=
  put [(R.PM_STAT_STATE, 1)] State.reset

theorem wit_PowerTransitions_1h :
    s_PowerTransitions_1h.rd R.PM_STAT_STATE = 1 ∧ s_PowerTransitions_1h.listenBad = false ∧ s_PowerTransitions_1h.tick.commitAt = none := by decide +kernel

def s_PowerTransitions_1i : State :=
  put [(R.PM_STAT_STATE, 1), (R.TW_CFG_PORTS, 63)] State.reset

theorem wit_PowerTransitions_1i :
    s_PowerTransitions_1i.rd R.PM_STAT_STATE = 1 ∧ s_PowerTransitions_1i.listenBad = true ∧ s_PowerTransitions_1i.tick.commitAt = none := by decide +kernel

/-- A transition stands here. -/
def inPhase (x : PmPhase) (s : State) : State := { s with pm := { s.pm with phase := x } }

def s_PowerTransitions_2 : State :=
  inPhase (.duskAt 3) { State.reset with tick := { Tick.reset with num := 3 } }

theorem wit_PowerTransitions_2 :
    s_PowerTransitions_2.pm.phase = .duskAt 3 ∧ 3 ≤ s_PowerTransitions_2.tick.num ∧ s_PowerTransitions_2.now = s_PowerTransitions_2.tick.start := by decide +kernel

def s_PowerTransitions_2b : State :=
  inPhase (.duskAt 3) { State.reset with tick := { Tick.reset with num := 2 } }

theorem wit_PowerTransitions_2b :
    s_PowerTransitions_2b.tick.num < 3 := by decide +kernel

def s_PowerTransitions_3 : State :=
  inPhase (.ramp 0 true) State.reset

theorem wit_PowerTransitions_3 :
    s_PowerTransitions_3.pm.phase = .ramp 0 true := by decide +kernel

def s_PowerTransitions_4 : State :=
  inPhase (.ramp 0 false) (put [(R.PM_STAT_STATE, 1), (R.PM_STAT_BUSY, 1)] { State.reset with hif := { Hif.reset with ltrOn := true } })

theorem wit_PowerTransitions_4 :
    s_PowerTransitions_4.pm.phase = .ramp 0 false ∧ s_PowerTransitions_4.hif.ltrOn = true := by decide +kernel

def s_PowerTransitions_4b : State :=
  inPhase .dayAt (put [(R.PM_STAT_STATE, 1), (R.PM_STAT_BUSY, 1)] State.reset)

theorem wit_PowerTransitions_4b :
    s_PowerTransitions_4b.pm.phase = .dayAt ∧ s_PowerTransitions_4b.now = s_PowerTransitions_4b.tick.start ∧ s_PowerTransitions_4b.hif.ltrOn = false := by decide +kernel

def s_PowerTransitions_5 : State :=
  inPhase (.drain 0 true) (put [(R.PM_STAT_STATE, 1), (R.PM_STAT_BUSY, 1)] State.reset)

theorem wit_PowerTransitions_5 :
    s_PowerTransitions_5.led.entries = [] ∧ s_PowerTransitions_5.freeCells = cellCount ∧ s_PowerTransitions_5.pm.phase = .drain 0 true := by decide +kernel

def s_PowerTransitions_5b : State :=
  inPhase (.drain 0 true) { State.reset with led := { Led.reset with entries := [(0, entry0)] } }

theorem wit_PowerTransitions_5b :
    s_PowerTransitions_5b.led.entries ≠ [] := by decide +kernel

def s_PowerTransitions_6 : State :=
  inPhase (.drain 1 true) (put [(R.TW_DRAIN_TICKS, 4), (R.PM_STAT_BUSY, 1), (R.PM_STAT_DRAIN, 1), (R.PM_STAT_STATE, 1)] { State.reset with tick := { Tick.reset with num := 5 } })

theorem wit_PowerTransitions_6 :
    s_PowerTransitions_6.pm.phase = .drain 1 true ∧ 1 + s_PowerTransitions_6.rd R.TW_DRAIN_TICKS ≤ s_PowerTransitions_6.tick.num := by decide +kernel

def s_PowerTransitions_7 : State :=
  inPhase (.handOver 0 true false) (put [(R.PM_STAT_BUSY, 1), (R.PM_STAT_DRAIN, 1), (R.PM_STAT_TW_READY, 1), (R.PM_STAT_STATE, 1)] host0)

theorem wit_PowerTransitions_7 :
    s_PowerTransitions_7.pm.phase = .handOver 0 true false := by decide +kernel

def s_PowerTransitions_7c : State :=
  inPhase (.handOver 0 true true) (put [(R.PM_STAT_BUSY, 1), (R.PM_STAT_DRAIN, 1), (R.PM_STAT_TW_READY, 1), (R.PM_STAT_STATE, 1)] host0)

theorem wit_PowerTransitions_7c :
    s_PowerTransitions_7c.pm.phase = .handOver 0 true true ∧ (s_PowerTransitions_7c.mgcStopped = true ∨ ∀ p : Port, s_PowerTransitions_7c.inf (R.PORT_CFG_IF p) = 0 ∨ (true = false ∧ s_PowerTransitions_7c.listens p = true) ∨ s_PowerTransitions_7c.bit (R.PHY_PM_ADDR_EN p) = false) := by decide +kernel

def s_PowerTransitions_7f : State :=
  inPhase (.handOver 0 false true) (put [(R.PM_STAT_BUSY, 1), (R.PM_STAT_DRAIN, 1), (R.PM_STAT_TW_READY, 1), (R.PM_STAT_STATE, 1), (R.TW_CFG_PARK_B, 1), (R.PHY_PM_ADDR_EN 5, 0)] (inf [(R.PORT_CFG_IF 5, 1)] (run0 host0)))

theorem wit_PowerTransitions_7f :
    s_PowerTransitions_7f.pm.phase = .handOver 0 false true ∧ s_PowerTransitions_7f.mgcStopped = false ∧ s_PowerTransitions_7f.bit R.TW_CFG_PARK_B = true ∧ (∀ p : Port, s_PowerTransitions_7f.inf (R.PORT_CFG_IF p) = 0 ∨ (false = false ∧ s_PowerTransitions_7f.listens p = true) ∨ s_PowerTransitions_7f.bit (R.PHY_PM_ADDR_EN p) = false) := by decide +kernel

def s_PowerTransitions_7d : State :=
  inPhase (.handOver 0 false true) (put [(R.PM_STAT_BUSY, 1), (R.PM_STAT_DRAIN, 1), (R.PM_STAT_TW_READY, 1), (R.PM_STAT_STATE, 1), (R.TW_CFG_PARK_B, 1), (R.PHY_PM_ADDR_EN 5, 1)] (inf [(R.PORT_CFG_IF 5, 1)] (run0 host0)))

theorem wit_PowerTransitions_7d :
    s_PowerTransitions_7d.pm.phase = .handOver 0 false true ∧ s_PowerTransitions_7d.mgcStopped = false ∧ (∀ p : Port, s_PowerTransitions_7d.parked (s_PowerTransitions_7d.inf (R.PHY_LOC_BUS p)) = false) ∧ s_PowerTransitions_7d.pm.slept = 0 ∧ s_PowerTransitions_7d.inf (R.PORT_CFG_IF 5) ≠ 0 ∧ s_PowerTransitions_7d.listens 5 = false ∧ s_PowerTransitions_7d.bit (R.PHY_PM_ADDR_EN 5) = true := by decide +kernel

def s_PowerTransitions_8 : State :=
  put [(R.PM_STAT_STATE, 2), (R.TW_NIGHT_TICKS, 3), (R.WAKE_CNT, 5), (R.TICK_ACTIVE, 3)] { State.reset with tick := { Tick.reset with num := 4 }, pm := { Pm.reset with twSince := 1 } }

theorem wit_PowerTransitions_8 :
    s_PowerTransitions_8.rd R.TW_NIGHT_TICKS ≠ 0 ∧ s_PowerTransitions_8.pm.twSince + s_PowerTransitions_8.rd R.TW_NIGHT_TICKS ≤ s_PowerTransitions_8.tick.num ∧ s_PowerTransitions_8.rd R.PM_STAT_STATE = 2 ∧ s_PowerTransitions_8.bit R.PM_STAT_BUSY = false ∧ s_PowerTransitions_8.mgcStopped = true := by decide +kernel

def s_PowerTransitions_8c : State :=
  put [(R.PM_STAT_STATE, 2), (R.TW_NIGHT_TICKS, 3), (R.TW_CFG_PORTS, 32), (R.PHY_PM_ADDR_EN 5, 1)] (inf [(R.PORT_CFG_IF 5, 1)] (run0 { State.reset with tick := { Tick.reset with num := 4 } }))

theorem wit_PowerTransitions_8c :
    s_PowerTransitions_8c.rd R.TW_NIGHT_TICKS ≠ 0 ∧ s_PowerTransitions_8c.pm.twSince + s_PowerTransitions_8c.rd R.TW_NIGHT_TICKS ≤ s_PowerTransitions_8c.tick.num ∧ s_PowerTransitions_8c.rd R.PM_STAT_STATE = 2 ∧ s_PowerTransitions_8c.bit R.PM_STAT_BUSY = false ∧ s_PowerTransitions_8c.mgcStopped = false ∧ (∀ p : Port, s_PowerTransitions_8c.parked (s_PowerTransitions_8c.inf (R.PHY_LOC_BUS p)) = false) ∧ s_PowerTransitions_8c.inf (R.PORT_CFG_IF 5) ≠ 0 ∧ s_PowerTransitions_8c.bit (R.PHY_PM_ADDR_EN 5) = true ∧ s_PowerTransitions_8c.pm.slept.testBit 5 = false := by decide +kernel

def s_PowerTransitions_9 : State :=
  put [(R.HIF_STAT_READY, 1)] State.reset

theorem wit_PowerTransitions_9 :
    s_PowerTransitions_9.bit R.HIF_STAT_READY = true ∧ s_PowerTransitions_9.bitAt R.HIF_FLR_STAT 16 = false := by decide +kernel

theorem wit_PowerTransitions_9b :
    State.reset.bit R.HIF_STAT_READY = false := by decide +kernel

/-- Twilight, and Night. -/
def twilight0 : State := put [(R.PORT_STAT_STATE 0, 3), (R.PORT_STAT_RATE 0, 5), (R.PM_STAT_STATE, 2), (R.TW_CFG_PORTS, 1), (R.TW_CFG_LE_PORTS, 2), (R.WK_CFG_EDGE 3, 3), (R.MDIO_CFG_PARK 1, 1)] { State.reset with pm := { Pm.reset with perstLow := true, slept := 32 } }
def night0 : State := inPhase .night twilight0

/-- Twilight with a pattern that matches any frame to port 0 that begins with 5. -/
def pattern0 : State := let s := put [(R.PAT_CTRL_EN 31, 1), (R.PAT_CTRL_PORTS 31, 1), (R.PAT_MASK 31 0, 1), (R.PAT 31 0, 5)] twilight0; { s with pm := { s.pm with pats := patRegs s.regs } }

theorem wit_Wakes_1 :
    twilight0.rd R.PM_STAT_STATE = 2 ∧ twilight0.pm.phase ≠ .night ∧ twilight0.sameWake 4 = false ∧ (twilight0.rd (R.WK_CFG_EDGE 3)).testBit 0 = true := by decide +kernel

theorem wit_Wakes_1b :
    pattern0.listens 0 = true ∧ isUp pattern0 0 = true ∧ pattern0.sameWake 5 = false ∧ fcsGood frameBytes0 = true ∧ (List.range 32).find? (patMatches pattern0.pm.pats 0 frameBytes0) = some 31 ∧ pattern0.rd R.PM_STAT_STATE = 2 ∧ pattern0.pm.phase ≠ .night := by decide +kernel

theorem wit_Wakes_1c :
    twilight0.bitAt R.TW_CFG_LE_PORTS 1 = true ∧ twilight0.listens 1 = false := by decide +kernel

theorem wit_Wakes_1d :
    twilight0.pm.perstLow = true := by decide +kernel

theorem wit_Wakes_1f :
    twilight0.bit R.FLT_STAT_ECLIPSE = false ∧ twilight0.bit R.PM_STAT_BUSY = false := by decide +kernel

theorem wit_Wakes_2 :
    night0.pm.phase = .night ∧ night0.sameWake 4 = false ∧ (night0.rd (R.WK_CFG_EDGE 3)).testBit 1 = true ∧ night0.pm.wakeDue = none := by decide +kernel

theorem wit_Wakes_2b :
    night0.pm.perstLow = true := by decide +kernel

def s_Wakes_2c : State :=
  { night0 with pm := { night0.pm with wakeDue := some 4 } }

theorem wit_Wakes_2c :
    s_Wakes_2c.pm.wakeDue ≠ none ∧ s_Wakes_2c.pm.phase = .night ∧ s_Wakes_2c.pm.perstLow = true := by decide +kernel

def s_Wakes_2e : State :=
  { put [(R.LW_REC0, 8)] twilight0 with now := 1700, pm := { twilight0.pm with woke := some (1600, 8, 2) } }

theorem wit_Wakes_2e :
    s_Wakes_2e.pm.woke = some (1600, 8, 2) ∧ s_Wakes_2e.sameWake 4 = true ∧ (s_Wakes_2e.rd (R.WK_CFG_EDGE 3)).testBit 0 = true := by decide +kernel

def s_Wakes_2f : State :=
  { put [(R.LW_REC0, 4)] twilight0 with now := 1600, pm := { twilight0.pm with woke := some (1600, 4, 2) } }

theorem wit_Wakes_2f :
    s_Wakes_2f.pm.woke = some (1600, 4, 2) ∧ s_Wakes_2f.sameWake 4 = true ∧ (s_Wakes_2f.rd (R.WK_CFG_EDGE 3)).testBit 0 = true := by decide +kernel

def s_Wakes_3 : State :=
  put [(R.WK_CFG_EDGE 0, 2)] State.reset

theorem wit_Wakes_3 :
    (s_Wakes_3.rd (R.WK_CFG_EDGE 0)).testBit 0 = false := by decide +kernel

def s_Wakes_4 : State :=
  { State.reset with pm := { Pm.reset with perstLow := true } }

theorem wit_Wakes_4 :
    s_Wakes_4.pm.phase ≠ .night ∧ s_Wakes_4.rd R.PM_STAT_STATE ≠ 2 := by decide +kernel

theorem wit_Wakes_5 :
    night0.pm.phase = .night := by decide +kernel

def s_Wakes_6 : State :=
  { State.reset with con := { Con.reset with part := [1], partBad := true } }

theorem wit_Wakes_6 :
    s_Wakes_6.pm.phase ≠ .night ∧ s_Wakes_6.rd R.PM_STAT_STATE = 0 ∧ s_Wakes_6.sameWake 8 = false := by decide +kernel

/-! ### Witnesses: c19 -/

/-- A start that meets nothing, with unsecured fuses and these slots; image 0 is well formed. -/
def image0 : List Byte :=
  let h : List Byte := [0x55, 0x52, 0x49, 0x52, 1, 0, 1, 0, 0x14, 1, 0, 0, 7, 0, 0, 0, 1, 0, 0, 0, 0, 0, 0, 0, 0x16, 0x64] ++ List.replicate 34 0
  h ++ leBytes 4 (crc32c h) ++ [1, 0, 0, 0, 80, 0, 0, 0, 4, 0, 0, 0, 0, 0, 0, 0] ++ List.replicate 196 0
def start0 (nor : Option (List Byte × List Byte × List Byte × List Byte)) (failed : List Nat) : StartInputs :=
  ⟨[(0, some 1, some 1, false), (1, some 0, some 0, false)], nor, none, [], true, true, failed, 0, true, 0, []⟩

/-- A scan that shifts in a pattern while the pins show another. -/
def scan0 : Option Scan := some ⟨3#100, [3300, 3300, 3300, 3300], 5#100, 3⟩

/-- A device that runs, with a trial and a requested reset. -/
def device0 : State := { host0 with boot := { Boot.reset with phase := .ended, slotA := image0, trialEnd := some 70, resetDue := some 70 }, led := { Led.reset with retention := [(4, 9)] } }

def s_StartsAndResets_1 : State :=
  { State.reset with pins := { State.reset.pins with porst := true } }

theorem wit_StartsAndResets_1 :
    s_StartsAndResets_1.pins.porst = true ∧ s_StartsAndResets_1.pm.phase ≠ .night ∧ s_StartsAndResets_1.pins.sysrst = false ∧ s_StartsAndResets_1.testHeld = false ∧ s_StartsAndResets_1.pins.low = [] ∧ testHalts [6, 7] = true := by decide +kernel

theorem wit_StartsAndResets_1b :
    testHalts [] = false ∧ (((s_StartsAndResets_1.startReads false (start0 none [])).readJournal []).chooseSlot (start0 none [])).1 = none := by
     unfold State.startReads State.fuseReads s_StartsAndResets_1 State.reset Boot.reset R.DEV_ID R.TJ_ALARM Config.devId Config.tjAlarmReset
     generalize Config.gradeAE = b
     cases b <;> decide +kernel

def s_StartsAndResets_1c : State :=
  put [(R.UPD_STATE_A, 4)] { night0 with pm := { night0.pm with wakeDue := some 4 }, boot := { Boot.reset with slotA := image0 } }

theorem wit_StartsAndResets_1c :
    s_StartsAndResets_1c.pins.porst = false ∧ s_StartsAndResets_1c.pm.phase = .night ∧ s_StartsAndResets_1c.pm.wakeDue ≠ none := by decide +kernel

def s_StartsAndResets_1d : State :=
  put [(R.UPD_STATE_A, 4)] device0

theorem wit_StartsAndResets_1d :
    s_StartsAndResets_1d.boot.resetDue = some 70 ∧ s_StartsAndResets_1d.pins.porst = false ∧ testHalts [1] = false ∧ wellFormed image0 = true := by decide +kernel

def s_StartsAndResets_1e : State :=
  put [(R.UPD_STATE_A, 4)] { device0 with boot := { device0.boot with phase := .held }, pins := { State.reset.pins with sysrst := true } }

theorem wit_StartsAndResets_1e :
    s_StartsAndResets_1e.boot.phase = .held ∧ s_StartsAndResets_1e.pins.porst = false ∧ s_StartsAndResets_1e.pm.phase ≠ .night ∧ configRecords image0 = [] ∧ s_StartsAndResets_1e.slot 0 = image0 := by decide +kernel

theorem wit_StartsAndResets_1e_chosen :
    (((({ s_StartsAndResets_1e with pins := { s_StartsAndResets_1e.pins with sysrst := false } }).startReads true (start0 none [1])).readJournal []).chooseSlot (start0 none [1])).1 = some ⟨0, false, false⟩ := by
     unfold State.startReads State.fuseReads s_StartsAndResets_1e device0 Boot.reset R.DEV_ID R.TJ_ALARM Config.devId Config.tjAlarmReset
     generalize Config.gradeAE = b
     cases b <;> decide +kernel

def s_StartsAndResets_1f : State :=
  put [(R.UPD_STATE_A, 4)] device0

theorem wit_StartsAndResets_1f :
    s_StartsAndResets_1f.boot.trialEnd = some 70 ∧ s_StartsAndResets_1f.mgcStopped = false := by decide +kernel

def s_StartsAndResets_3 : State :=
  put [(R.ECL_CAUSE, 7), (R.WAKE_CNT, 5)] device0

theorem wit_StartsAndResets_3 :
    s_StartsAndResets_3.pm.phase ≠ .night ∧ s_StartsAndResets_3.pins.porst = false ∧ s_StartsAndResets_3.testHeld = false ∧ s_StartsAndResets_3.boot.phase ≠ .none ∧ s_StartsAndResets_3.boot.phase ≠ .waiting := by decide +kernel

theorem wit_StartsAndResets_4 :
    night0.pm.phase = .night := by decide +kernel

theorem wit_StartsAndResets_5 :
    State.reset.boot.resetDue = none := by decide +kernel

/-- Rails below their threshold. -/
def withLow (l : List Rail) (s : State) : State := { s with pins := { s.pins with low := l } }

def s_RailsAndTest_1 : State :=
  withLow [.sram] State.reset

theorem wit_RailsAndTest_1 :
    s_RailsAndTest_1.pins.low.contains .sram = true := by decide +kernel

theorem wit_RailsAndTest_2 :
    device0.pins.low.contains .aon = false := by decide +kernel

theorem wit_RailsAndTest_3 :
    device0.pins.low.contains .sram = false ∧ device0.coreRuns = true ∧ device0.dge.clearing = none := by decide +kernel

theorem wit_RailsAndTest_4 :
    device0.pins.low.contains .hsx = false ∧ device0.coreRuns = true ∧ device0.Canonical := by unfold State.Canonical; decide +kernel

def s_RailsAndTest_5 : State :=
  { device0 with pins := { device0.pins with io33 := 3 } }

theorem wit_RailsAndTest_5 :
    s_RailsAndTest_5.pins.low.contains .ioB = false := by decide +kernel

def s_RailsAndTest_6 : State :=
  withLow [.ioA, .hsx] device0

theorem wit_RailsAndTest_6 :
    s_RailsAndTest_6.pins.low.contains .ioA = true ∧ s_RailsAndTest_6.boot.phase ≠ .waiting ∧ s_RailsAndTest_6.boot.phase ≠ .held := by decide +kernel

theorem wit_RailsAndTest_7 :
    State.reset.pins.low.contains .ioA = false := by decide +kernel

def s_RailsAndTest_8 : State :=
  withLow [.core] device0

theorem wit_RailsAndTest_8 :
    s_RailsAndTest_8.tapOn = false := by decide +kernel

theorem wit_RailsAndTest_8x :
    s_RailsAndTest_8.tapOn = false := by decide +kernel

theorem wit_RailsAndTest_9 :
    device0.tapOn = true ∧ device0.testHeld = false ∧ device0.boot.phase ≠ .none ∧ device0.boot.phase ≠ .waiting := by decide +kernel

def s_RailsAndTest_9b : State :=
  { device0 with pins := { device0.pins with tapIr := 3 } }

theorem wit_RailsAndTest_9b :
    s_RailsAndTest_9b.testHeld = true ∧ s_RailsAndTest_9b.tapOn = true ∧ s_RailsAndTest_9b.boot.phase ≠ .held ∧ s_RailsAndTest_9b.boot.phase ≠ .waiting := by decide +kernel

theorem wit_RailsAndTest_10 :
    device0.bypasses 0xFF = true ∧ device0.bypasses 7 = true ∧ device0.bypasses 8 = false := by decide +kernel

theorem wit_RailsAndTest_9d :
    device0.tapOn = true ∧ device0.testHeld = false ∧ device0.boot.phase ≠ .none ∧ device0.boot.phase ≠ .waiting := by decide +kernel

def s_ConsoleWork_14b : State :=
  line 0 false "update end" (put [(R.UPD_STATE_B, 1)] { State.reset with boot := { State.reset.boot with fuse := [], slotB := image0, session := some (.uart, 1, 276) } })

theorem wit_ConsoleWork_14b :
    servesLine s_ConsoleWork_14b (.uart) .updateEnd 0 = true ∧ s_ConsoleWork_14b.loading .uart = some (1, 276) ∧ s_ConsoleWork_14b.genuine (s_ConsoleWork_14b.slot 1) = true ∧ s_ConsoleWork_14b.passesRollback (imageSv (s_ConsoleWork_14b.slot 1)) = true ∧ s_ConsoleWork_14b.ownerHolds16 = false := by decide +kernel

/-! ### Witnesses: c20 -/

/-- These engines are in reset. -/
def inReset (v : Nat) (s : State) : State := put [(R.ENG_RST_STAT, v)] s

def s_EngineResets_1 : State :=
  inReset 0x10000 device0

theorem wit_EngineResets_1 :
    s_EngineResets_1.bitAt R.ENG_RST_STAT 16 = true ∧ s_EngineResets_1.selfNow 16 = false := by decide +kernel

def s_EngineResets_1b : State :=
  inReset 1 { device0 with ladder := { Ladder.reset with selfRun := 1, resetAt := [(0, 7000000)] } }

theorem wit_EngineResets_1b :
    s_EngineResets_1b.selfNow 0 = true := by decide +kernel

theorem wit_EngineResets_2 :
    device0.bitAt R.ENG_RST_STAT 7 = false ∧ device0.selfNow 7 = false ∧ device0.ports.length = 6 := by decide +kernel

def s_EngineResets_4 : State :=
  withPort 5 (fun q => { q with tx := some ⟨0, frameBytes0, 6900000, 0, 6900000, some (0, 0), 0, none⟩ }) device0

theorem wit_EngineResets_4 :
    s_EngineResets_4.bitAt R.ENG_RST_STAT 5 = false ∧ s_EngineResets_4.looped 5 = false ∧ s_EngineResets_4.ports.length = 6 ∧ (s_EngineResets_4.port 5).tx = some ⟨0, frameBytes0, 6900000, 0, 6900000, some (0, 0), 0, none⟩ := by decide +kernel

def s_EngineResets_4c : State :=
  inReset 32 device0

theorem wit_EngineResets_4c :
    s_EngineResets_4c.bitAt R.ENG_RST_STAT 5 = true := by decide +kernel

theorem wit_EngineResets_4b :
    (device0.port 0).tx = none ∧ device0.bitAt R.ENG_RST_STAT 0 = false := by decide +kernel

def s_EngineResets_5 : State :=
  inReset 1 { device0 with ladder := { Ladder.reset with selfRun := 1, resetAt := [(0, 5)] } }

theorem wit_EngineResets_5 :
    s_EngineResets_5.bitAt R.ENG_RST_STAT 0 = true ∧ s_EngineResets_5.sxLow = false ∧ s_EngineResets_5.hif.heldAcc = [] ∧ s_EngineResets_5.con.serving ≠ some (.engine 0) ∧ s_EngineResets_5.ladder.selfRun.testBit 0 = true := by decide +kernel

def s_EngineResets_5b : State :=
  put [(R.TU_STAT_TU_RESET, 1)] (inReset 0x200 device0)

theorem wit_EngineResets_5b :
    s_EngineResets_5b.bitAt R.ENG_RST_STAT 9 = true ∧ s_EngineResets_5b.con.serving ≠ some (.engine 9) := by decide +kernel

def s_EngineResets_5c : State :=
  inReset 0x80 device0

theorem wit_EngineResets_5c :
    s_EngineResets_5c.bitAt R.ENG_RST_STAT 7 = true := by decide +kernel

def s_EngineResets_5d : State :=
  inReset 0x8000 { device0 with hif := { device0.hif with heldAcc := [.eoi 3] } }

theorem wit_EngineResets_5d :
    s_EngineResets_5d.bitAt R.ENG_RST_STAT 15 = true ∧ (Access.eoi 3).block = some 15 ∧ s_EngineResets_5d.hif.heldAcc = [.eoi 3] := by decide +kernel

def s_EngineResets_5e : State :=
  inReset 0x8000 device0

theorem wit_EngineResets_5e :
    s_EngineResets_5e.bitAt R.ENG_RST_STAT 15 = true := by decide +kernel

def s_EngineResets_6 : State :=
  put [(R.FLT_STAT_MGC_HALT, 1)] (inReset 0x10000 device0)

theorem wit_EngineResets_6 :
    s_EngineResets_6.bitAt R.ENG_RST_STAT 16 = true ∧ s_EngineResets_6.con.lines = [] ∧ s_EngineResets_6.ladder.codeBad = false ∧ s_EngineResets_6.con.serving = none := by decide +kernel

def s_EngineResets_7 : State :=
  put [(R.ESC_LIMIT, 2), (R.ESC_WINDOW, 10)] { device0 with tick := { Tick.reset with num := 20 }, ladder := { Ladder.reset with selfAt := [(15, [12, 10])] } }

theorem wit_EngineResets_7 :
    selfResets 15 = true ∧ ((mgetD s_EngineResets_7.ladder.selfAt 15 []).filter (fun t => decide (s_EngineResets_7.tick.num < t + s_EngineResets_7.rd R.ESC_WINDOW))).length < s_EngineResets_7.rd R.ESC_LIMIT := by decide +kernel

def s_EngineResets_8 : State :=
  put [(R.ESC_LIMIT, 2), (R.ESC_WINDOW, 10)] { device0 with tick := { Tick.reset with num := 20 }, ladder := { Ladder.reset with selfAt := [(8, [12, 11])] } }

theorem wit_EngineResets_8 :
    selfResets 8 = true ∧ s_EngineResets_8.commitDue = false ∧ s_EngineResets_8.bit R.FLT_STAT_ECLIPSE = false ∧ s_EngineResets_8.rd R.ESC_LIMIT ≤ ((mgetD s_EngineResets_8.ladder.selfAt 8 []).filter (fun t => decide (s_EngineResets_8.tick.num < t + s_EngineResets_8.rd R.ESC_WINDOW))).length := by decide +kernel

theorem wit_EngineResets_9 :
    selfResets 6 = false := by decide +kernel

theorem wit_EngineResets_10 :
    device0.mgcStopped = false := by decide +kernel

def s_EclipseCauses_1 : State :=
  put [(R.ECL_DRAIN_TICKS, 1)] { device0 with tick := { device0.tick with commitAt := some 9 } }

theorem wit_EclipseCauses_1 :
    s_EclipseCauses_1.bit R.FLT_STAT_ECLIPSE = false ∧ s_EclipseCauses_1.commitDue = false ∧ s_EclipseCauses_1.rd R.ECL_DRAIN_TICKS ≠ 0 := by decide +kernel

def s_EclipseCauses_1d : State :=
  { device0 with tick := { device0.tick with commitAt := some 0 } }

theorem wit_EclipseCauses_1d :
    s_EclipseCauses_1d.bit R.FLT_STAT_ECLIPSE = false ∧ s_EclipseCauses_1d.commitDue = true := by decide +kernel

def s_EclipseCauses_2 : State :=
  put [(R.FLT_STAT_ECLIPSE, 1)] device0

theorem wit_EclipseCauses_2 :
    s_EclipseCauses_2.bit R.FLT_STAT_ECLIPSE = true := by decide +kernel

theorem wit_EclipseCauses_4 :
    device0.laneUp 0 = true ∧ device0.rd R.MAS_STAT_LANE_FAIL = 0 := by decide +kernel

def s_EclipseCauses_4b : State :=
  put [(R.MAS_STAT_LANE_FAIL, 1)] device0

theorem wit_EclipseCauses_4b :
    s_EclipseCauses_4b.laneUp 7 = true ∧ s_EclipseCauses_4b.rd R.MAS_STAT_LANE_FAIL ≠ 0 ∧ s_EclipseCauses_4b.commitDue = false ∧ s_EclipseCauses_4b.bit R.FLT_STAT_ECLIPSE = false := by decide +kernel

def s_EclipseCauses_5 : State :=
  put [(R.FLT_STAT_ECLIPSE, 1), (R.FLT_STAT_ECL_DRAIN, 1)] device0

theorem wit_EclipseCauses_5 :
    s_EclipseCauses_5.bit R.FLT_STAT_ECL_DRAIN = true ∧ s_EclipseCauses_5.led.entries = [] := by decide +kernel

def s_EclipseCauses_5b : State :=
  put [(R.ECL_DRAIN_TICKS, 4), (R.FLT_STAT_ECLIPSE, 1), (R.FLT_STAT_ECL_DRAIN, 1)] { queued0 with ladder := { Ladder.reset with drained := 4 } }

theorem wit_EclipseCauses_5b :
    s_EclipseCauses_5b.bit R.FLT_STAT_ECL_DRAIN = true ∧ s_EclipseCauses_5b.led.entries ≠ [] ∧ s_EclipseCauses_5b.rd R.ECL_DRAIN_TICKS ≤ s_EclipseCauses_5b.ladder.drained := by decide +kernel

/-! ### Witnesses: c21 -/

def s_LatchedReads_1 : State :=
  { State.reset with tick := { Tick.reset with num := 2 ^ 48 - 1 } }

def s_LatchedReads_2 : State :=
  put [(R.RX_OCTETS 5, 7), (R.RX_OCTETS_HI 5, 8)] State.reset

def s_LatchedReads_3 : State :=
  put [(R.FLOW_SEL, 4095)] { State.reset with led := { Led.reset with flows := [(4095, ⟨7, 8, 15, true, false, true, 3, 4, 2⟩)] } }

def s_LatchedReads_4 : State :=
  put [(R.T_FLOW_SEL 1, 4)] { host0 with led := { Led.reset with flows := [(4, ⟨7, 8, 1, true, false, true, 3, 4, 2⟩)] } }

theorem wit_LatchedReads_4 :
    s_LatchedReads_4.barOn (1 : Tenant).castSucc = true ∧ (s_LatchedReads_4.flow (s_LatchedReads_4.rd (R.T_FLOW_SEL 1))).fn = 1 := by decide +kernel

theorem wit_LatchedReads_5 :
    s_LatchedReads_4.barOn (0 : Tenant).castSucc = true ∧ (s_LatchedReads_4.flow (s_LatchedReads_4.rd (R.T_FLOW_SEL 0))).fn ≠ 0 := by decide +kernel

def s_LatchedReads_6 : State :=
  { State.reset with now := 10000000000, hif := { Hif.reset with numVfs := 16 }, td := [TDom.reset, { TDom.reset with val := 3000000000 * tdUnit + 5, at_ := 10000000000 }] }

theorem wit_LatchedReads_6 :
    s_LatchedReads_6.barOn 15 = true := by decide +kernel

def s_LatchedReads_7 : State :=
  put [(R.TSQ_COUNT 5, 2)] { State.reset with tu := { State.reset.tu with tsq := lmod State.reset.tu.tsq 5 (fun _ => [[1, 2, 3, 4, 5, 6, 7, 8], [9]]) } }

theorem wit_LatchedReads_7 :
    s_LatchedReads_7.tu.tsq[5]? = some [[1, 2, 3, 4, 5, 6, 7, 8], [9]] ∧ mgetD s_LatchedReads_7.cyc.queues 5 0 ≤ 1 ∧ s_LatchedReads_7.barOn 16 = true := by decide +kernel

def s_LatchedReads_8 : State :=
  put [(R.TCAP_COUNT 3, 1)] { State.reset with tu := { State.reset.tu with tcap := lmod State.reset.tu.tcap 3 (fun _ => [[1, 2, 3, 4, 5, 6, 7, 8]]) } }

theorem wit_LatchedReads_8 :
    s_LatchedReads_8.tu.tcap[3]? = some [[1, 2, 3, 4, 5, 6, 7, 8]] ∧ mgetD s_LatchedReads_8.cyc.queues (8 + 3) 0 ≤ 0 ∧ s_LatchedReads_8.barOn 16 = true := by decide +kernel

theorem wit_LatchedReads_9 :
    State.reset.tu.tsq[0]? = some [] := by decide +kernel

theorem wit_LatchedReads_10 :
    State.reset.tu.tcap[0]? = some [] := by decide +kernel

/-- What the statement on a write of a register by the owner asks. -/
def plainReg (s : State) (off v : Nat) : Bool :=
  match barRegs none off with
  | (d, i) :: _ => off % 4 == 0 && s.barOn 16 && (s.writeBad 16 off d i v).isNone && (ownerActs.find? (fun e => e.1 == d.base)).isNone
      && ownerMayWrite d i && decide (d.fields.map (·.lo)).Nodup && (ownerReads.find? (fun e => e.1 == d.base)).isNone
  | [] => false

theorem wit_RegisterAccess_1 :
    plainReg State.reset 0xA0814 0x12360021 = true ∧ State.reset.accessHeld (.write 16 0xA0814 15 0x12360021) = false ∧ State.reset.barOn 16 = true ∧ State.reset.commitDue = false := by decide +kernel

def s_RegisterAccess_1b : State :=
  { State.reset with tick := { Tick.reset with commitAt := some 0 } }

theorem wit_RegisterAccess_1b :
    s_RegisterAccess_1b.accessHeld (.write 16 0xA0814 15 0x12360021) = false ∧ s_RegisterAccess_1b.barOn 16 = true ∧ s_RegisterAccess_1b.commitDue = true ∧ (next (.registerWrite 16 0xA0814 15 0x12360021 []) s_RegisterAccess_1b).tick.commitAt = none := by decide +kernel

theorem wit_RegisterAccess_2 :
    barRegs none 0xA0814 ≠ [] := by decide +kernel

theorem wit_RegisterAccess_3 :
    ((barRegs none 0xA0800).head?.map (fun x => State.reset.writeBad 16 0xA0800 x.1 x.2 0x30)) = some (some 1) := by decide +kernel

theorem wit_RegisterAccess_4 :
    barRegs none 0x3FFFFC = [] := by decide +kernel

theorem wit_RegisterAccess_5 :
    State.reset.addressable 1 = false := by decide +kernel

def s_RegisterAccess_5b : State :=
  host0.setPci 1 { PciFn.reset with mse := false }

theorem wit_RegisterAccess_5b :
    s_RegisterAccess_5b.addressable 1 = true ∧ (s_RegisterAccess_5b.pci 1).mse = false ∧ s_RegisterAccess_5b.accessHeld (.write 1 0 15 0) = false := by decide +kernel

def s_RegisterAccess_5c : State :=
  put [(R.ENG_RST_STAT, 0x100)] State.reset

theorem wit_RegisterAccess_5c :
    s_RegisterAccess_5c.accessHeld (.write 16 0x50100 15 0) = true := by decide +kernel

theorem wit_RegisterAccess_5e :
    State.reset.barOn 16 = true := by decide +kernel

def s_RegisterAccess_6 : State :=
  put [(R.ADM_DISC_FCS 1, 7)] { State.reset with cyc := { State.reset.cyc with regs := (put [(R.ADM_DISC_FCS 1, 5)] State.reset).regs } }

theorem wit_RegisterAccess_6 :
    plainReg s_RegisterAccess_6 0x12500 0 = true ∧ s_RegisterAccess_6.rd (R.ADM_DISC_FCS 1) = 7 ∧ s_RegisterAccess_6.accessHeld (.read .owner 0x12500 15) = false := by decide +kernel

def s_RegisterAccess_7 : State :=
  let s := put [(R.LINK_CHG_LINK_UP_EV 0, 1)] State.reset; { s with cyc := { s.cyc with regs := s.regs } }

theorem wit_RegisterAccess_7 :
    s_RegisterAccess_7.accessHeld (.write 16 (R.LINK_CHG_LINK_UP_EV 0).off 15 1) = false := by decide +kernel

def s_RegisterAccess_7b : State :=
  put [(R.LINK_CHG_LINK_UP_EV 0, 1)] State.reset

theorem wit_RegisterAccess_7b :
    plainReg s_RegisterAccess_7b (R.LINK_CHG_LINK_UP_EV 0).off 1 = true := by decide +kernel

end Sys2Proof.Tests
end

section
/-! The commit (spec/02_tick_and_budget.md R37, R38, R71). A commit first moves what is staged into force, opens the next epoch and
writes CFG_EPOCH; the many parts that follow touch none of this. `State.commitView` is what a commit decides, a lemma `commitView_f` says
that the operation `f` keeps it, and `commitView_commitNow` says what it is after a commit. -/

namespace Sys2Proof.Machine

/-! ### Sparse maps and register files, filtered -/

/-- An entry that a filter keeps, whatever it holds, is found as before. -/
theorem mget_filter {α : Type} (m : SMap α) (k : Nat) (p : Nat × α → Bool) (h : ∀ v, p (k, v) = true) : mget (m.filter p) k = mget m k := by
  induction m with
  | nil => rfl
  | cons x t ih =>
    obtain ⟨j, v⟩ := x
    by_cases hk : k = j
    · subst hk
      simp [mget, h v]
    · by_cases hp : p (j, v) = true <;> simp [mget, hk, hp, ih]

/-- An entry that a filter drops, whatever it holds, is not found. -/
theorem mget_filter_none {α : Type} (m : SMap α) (k : Nat) (p : Nat × α → Bool) (h : ∀ v, p (k, v) = false) : mget (m.filter p) k = none := by
  induction m with
  | nil => rfl
  | cons x t ih =>
    obtain ⟨j, v⟩ := x
    by_cases hk : k = j
    · subst hk
      simp [h v, ih]
    · by_cases hp : p (j, v) = true <;> simp [mget, hk, hp, ih]

theorem stagedPart_mput (r : RegFile) {k : Nat} (h : stagedKey k = false) (v : Nat) : stagedPart (mput r k v) = stagedPart r := by
  induction r with
  | nil => simp [stagedPart, mput, h]
  | cons x t ih =>
    obtain ⟨j, u⟩ := x
    simp only [stagedPart, mput] at ih ⊢
    split
    · next hj => simp [← hj, h]
    · split
      · simp [List.filter_cons, h]
      · simp [List.filter_cons, ih]

theorem stagedPart_mdel (r : RegFile) {k : Nat} (h : stagedKey k = false) : stagedPart (mdel r k) = stagedPart r := by
  induction r with
  | nil => rfl
  | cons x t ih =>
    obtain ⟨j, u⟩ := x
    simp only [stagedPart, mdel] at ih ⊢
    split
    · next hj => simp [← hj, h, ih]
    · simp [List.filter_cons, ih]

/-- A field that is not staged may be written without a change of the staged part. -/
theorem stagedPart_regPut (r : RegFile) {f : Fld} (h : stagedKey (Fld.key f) = false) (v : Nat) :
    stagedPart (regPut r f v) = stagedPart r := by
  unfold regPut
  extract_lets
  split
  · exact stagedPart_mdel r h
  · exact stagedPart_mput r h _

/-! ### Registers above CFG_EPOCH -/

/-- The registers of every ring lie above CFG_EPOCH. -/
theorem ringBase_gt (f r : Nat) : 512 < R.ringBase f r := by
  unfold R.ringBase
  split <;> omega

/-- The registers of every mailbox lie above CFG_EPOCH. -/
theorem mbxBase_gt (f : Nat) : 512 < R.mbxBase f := by
  unfold R.mbxBase
  split <;> omega

/-! ### The view of a state that a commit decides -/

/-- What a commit decides of a state, and no later part of it may touch. -/
structure CommitView where
  epoch : Nat
  commitAt : Option Nat
  num : Nat
  force : RegFile
  oldForce : List (Nat × RegFile)
  cfgEpoch : Nat

/-- The view of a state. -/
def State.commitView (s : State) : CommitView :=
  ⟨s.tick.epoch, s.tick.commitAt, s.tick.num, s.force, s.oldForce, regGet s.regs R.CFG_EPOCH⟩

/-- The view of a state written out looks at the tick, the register file and the configurations in force alone. -/
theorem commitView_mk {pd nw b0 dr se rg fo of' ke la tk le bu po fr ma ir td ha ev md dg cr hi tu ld pm co bo pi cy} :
    (State.mk pd nw b0 dr se rg fo of' ke la tk le bu po fr ma ir td ha ev md dg cr hi tu ld pm co bo pi cy).commitView
      = ⟨tk.epoch, tk.commitAt, tk.num, fo, of', regGet rg R.CFG_EPOCH⟩ := rfl

/-- The view is folded back after `commitView_mk`. -/
theorem commitView_fold (s : State) :
    CommitView.mk s.tick.epoch s.tick.commitAt s.tick.num s.force s.oldForce (regGet s.regs R.CFG_EPOCH) = s.commitView := rfl

/-- Where both branches of a choice have a view, the choice has it. -/
theorem commitView_ite {c : Prop} [Decidable c] {a b : State} {v : CommitView} (ha : a.commitView = v) (hb : b.commitView = v) :
    (if c then a else b).commitView = v := by
  split
  · exact ha
  · exact hb

variable (s : State)

/-! ### Registers, outputs, interrupt sources, the log -/

/-- A write of a register above CFG_EPOCH. -/
theorem commitView_wr {f : Fld} (h : 512 < f.off) (v : Nat) : (s.wr f v).commitView = s.commitView := by
  have hk : Fld.key R.CFG_EPOCH ≠ Fld.key f := by
    simp only [Fld.key, R.CFG_EPOCH]; omega
  simp only [State.wr, commitView_mk, regGet_regPut_other s.regs hk v, commitView_fold]

theorem commitView_put {f : Fld} (h : 512 < f.off) (b : Bool) : (s.put f b).commitView = s.commitView :=
  commitView_wr s h _
theorem commitView_add {f : Fld} (h : 512 < f.off) (n : Nat) : (s.add f n).commitView = s.commitView :=
  commitView_wr s h _
theorem commitView_inc {f : Fld} (h : 512 < f.off) : (s.inc f).commitView = s.commitView :=
  commitView_wr s h _
theorem commitView_putAt {f : Fld} (h : 512 < f.off) (i : Nat) (b : Bool) : (s.putAt f i b).commitView = s.commitView :=
  commitView_wr s h _
theorem commitView_spend (k n : Nat) : (s.spend k n).commitView = s.commitView := rfl
theorem commitView_emit (o : Sent) : (s.emit o).commitView = s.commitView := by
  unfold State.emit
  split <;> rfl
theorem commitView_setSrc (i : Nat) (v : IrqSrc) : (s.setSrc i v).commitView = s.commitView := rfl
theorem commitView_arrive (i : Nat) (l : Bool) : (s.arrive i l).commitView = s.commitView := rfl
theorem commitView_raise (i : Nat) : (s.raise i).commitView = s.commitView := rfl
theorem commitView_modPort (p : Nat) (g : PortState → PortState) : (s.modPort p g).commitView = s.commitView := rfl
theorem commitView_setLevel {f : Fld} (h : 512 < f.off) (i : Nat) (was : Bool) : (s.setLevel f i was).commitView = s.commitView := by
  simp (disch := omega) only [State.setLevel, apply_ite State.commitView, commitView_arrive, commitView_wr, ite_self]
theorem commitView_setFlag {f : Fld} (h : 512 < f.off) (i : Nat) : (s.setFlag f i).commitView = s.commitView :=
  commitView_setLevel s h i _

/-- An event logged changes EVLOG_LOST alone of the registers. -/
theorem commitView_log (c n : Nat) : (s.log c n).commitView = s.commitView := by
  have h : regGet (s.log c n).regs R.CFG_EPOCH = regGet s.regs R.CFG_EPOCH := s.rd_log c n (by decide)
  simp only [State.commitView, State.log_tick, State.log_force, State.log_oldForce, h]

/-! ### Cells, rings, the ledger -/

theorem commitView_freeFlags : s.freeFlags.commitView = s.commitView := by
  simp (disch := simp only [R.FREE_MIN, R.BUF_STAT_FREE_LOW] <;> omega) only [State.freeFlags, apply_ite State.commitView,
    commitView_wr, commitView_put, commitView_setFlag, ite_self]

theorem commitView_freeList (l : List Nat) (mgmt : Bool) : (s.freeList l mgmt).commitView = s.commitView := by
  simp (disch := simp only [R.MGMT_HELD] <;> omega) only [State.freeList, commitView_freeFlags, apply_ite State.commitView,
    commitView_wr, commitView_mk, commitView_fold, ite_self]

theorem commitView_classCells (src : Source) (c : Nat) (g : Nat → Nat) : (s.classCells src c g).commitView = s.commitView := by
  unfold State.classCells
  split <;> rfl
theorem commitView_setRefs (t n : Nat) : (s.setRefs t n).commitView = s.commitView := rfl
theorem commitView_modRing (f r : Nat) (g : Ring → Ring) : (s.modRing f r g).commitView = s.commitView := rfl
theorem commitView_modDesc (f r pos : Nat) (g : Desc → Desc) : (s.modDesc f r pos g).commitView = s.commitView := rfl
theorem commitView_readyDesc (f r pos : Nat) (c : Cpl) : (s.readyDesc f r pos c).commitView = s.commitView := rfl
theorem commitView_setFlow (x : Nat) (v : FlowRec) : (s.setFlow x v).commitView = s.commitView := rfl
theorem commitView_event (fn : Nat) (e : EvRec) : (s.event fn e).commitView = s.commitView := rfl
theorem commitView_entryLow : s.entryLow.commitView = s.commitView := commitView_put s (by decide) _

theorem commitView_modEntry (i : Nat) (g : Entry → Entry) : (s.modEntry i g).commitView = s.commitView := by
  unfold State.modEntry
  split <;> rfl
theorem commitView_advanceDel (x : Nat) : (s.advanceDel x).commitView = s.commitView := by
  unfold State.advanceDel
  simp only [apply_ite State.commitView, commitView_mk, commitView_fold, commitView_setFlow, ite_self]
theorem commitView_leaveQueue (dest sub h i : Nat) : (s.leaveQueue dest sub h i).commitView = s.commitView := by
  unfold State.leaveQueue
  split <;> rfl
theorem commitView_returnDesc (f : Frame) (h i : Nat) (x : ExitRec) (elv : Bool) (code : Nat) :
    (s.returnDesc f h i x elv code).commitView = s.commitView := by
  unfold State.returnDesc
  split <;> split <;> rfl
theorem commitView_acceptedCpl (h : Nat) (f : Frame) (late : Bool) : (s.acceptedCpl h f late).commitView = s.commitView := by
  unfold State.acceptedCpl
  split <;> rfl
theorem commitView_endFrame (h : Nat) (f : Frame) : (s.endFrame h f).commitView = s.commitView := by
  unfold State.endFrame
  cases f.folded <;>
    simp (disch := simp only [R.CARRY_FREE] <;> omega) only [apply_ite State.commitView, commitView_acceptedCpl, commitView_wr,
      commitView_mk, commitView_fold, commitView_setRefs, commitView_classCells, commitView_freeList, ite_self]

theorem commitView_dispose (h i code : Nat) : (s.dispose h i code).commitView = s.commitView := by
  unfold State.dispose
  split
  · rfl
  split
  · rfl
  split
  · extract_lets counted _ freed low _ _ r marked _ told left returned f' u
    have hlow : low.commitView = s.commitView := by
      simp (disch := simp only [R.DISP_CNT] <;> omega) only [low, freed, counted, commitView_entryLow, commitView_mk,
        commitView_fold, commitView_spend, commitView_inc]
    have hmarked : marked.commitView = s.commitView := (commitView_advanceDel _ _).trans ((commitView_setFlow low _ r).trans hlow)
    have htold : told.commitView = s.commitView := commitView_ite ((commitView_event marked _ _).trans hmarked) hmarked
    have hu : u.commitView = s.commitView := by
      simp only [u, commitView_mk, commitView_fold]
      exact (commitView_returnDesc left _ h i _ _ code).trans ((commitView_leaveQueue told _ _ h i).trans htold)
    exact commitView_ite ((commitView_endFrame u h f').trans hu) hu
  · rfl

/-! ### Frames in arrival and Early Look -/

theorem commitView_bufFault (cell bank : Nat) : (s.bufFault cell bank).commitView = s.commitView := by
  simp (disch := simp only [R.FAULT_CELL, R.FAULT_BANK] <;> omega) only [State.bufFault, commitView_raise, commitView_log, commitView_wr]

theorem commitView_setArr (a : Arr) (v : Option Arrival) : (s.setArr a v).commitView = s.commitView := by
  unfold State.setArr
  split <;> rfl
theorem commitView_freeArr (v : Arrival) : (s.freeArr v).commitView = s.commitView := by
  unfold State.freeArr
  cases v.fold <;>
    simp only [apply_ite State.commitView, commitView_setRefs, commitView_classCells, commitView_freeList, ite_self]
theorem commitView_dropArr (a : Arr) : (s.dropArr a).commitView = s.commitView := by
  unfold State.dropArr
  split
  · rfl
  · simp only [commitView_setArr, commitView_freeArr]

theorem commitView_setElRecs (n : Nat) (l : List ElRec) : (s.setElRecs n l).commitView = s.commitView := rfl
theorem commitView_elSkipped (v : Arrival) : (s.elSkipped v).commitView = s.commitView := by
  unfold State.elSkipped
  split
  · exact commitView_inc s (by simp only [R.EL_SKIP_LIMIT]; omega)
  · exact commitView_inc s (by simp only [R.EL_SKIP_ROOM]; omega)
  · rfl
theorem commitView_elConfirm (h : Nat) (v : Arrival) (flow seq : Nat) (l : List (Exit × Nat)) :
    (s.elConfirm h v flow seq l).commitView = s.commitView := by
  unfold State.elConfirm
  split
  · extract_lets u mine
    cases mine
    · exact commitView_elSkipped s v
    · simp only [State.elOutcome, u, commitView_setElRecs, commitView_elSkipped]
  · exact commitView_elSkipped s v
theorem commitView_elClose (n : Nat) : (s.elClose n).commitView = s.commitView := by
  unfold State.elClose
  refine (foldl_same State.commitView _ _ (fun u a => ?_) _).trans ?_
  · split
    · rfl
    split
    · simp only [apply_ite State.commitView, commitView_setArr, ite_self]
    · rfl
  · have hb := ringBase_gt n 8
    simp (disch := simp only [R.EL_STAT_OUTSTANDING, R.RING_CNT1] <;> omega) only [commitView_wr, commitView_setElRecs, commitView_add]

/-! ### Policers, counters, the sketch, DGE and CRU -/

theorem commitView_setHits (l : List Nat) : (s.setHits l).commitView = s.commitView := rfl
theorem commitView_setPolLvl (i : Nat) (l : PolLvl) : (s.setPolLvl i l).commitView = s.commitView := rfl
theorem commitView_count (i len : Nat) : (s.count i len).commitView = s.commitView := rfl
theorem commitView_fillPolicers (o : Overlay) (e : Nat) : (s.fillPolicers o e).commitView = s.commitView :=
  foldl_same State.commitView _ _ (fun (u : State) (x : Nat × _) => commitView_ite rfl (commitView_setPolLvl u x.1 _)) s

theorem commitView_sketchSync : s.sketchSync.commitView = s.commitView := by
  unfold State.sketchSync
  split <;> rfl
theorem commitView_sketchAdd (x len : Nat) : (s.sketchAdd x len).commitView = s.commitView := by
  refine commitView_ite rfl ((foldl_same State.commitView _ _ (fun u r => ?_) _).trans (commitView_sketchSync s))
  simp (disch := simp only [R.SKETCH_STAT_SAT] <;> omega) only [apply_ite State.commitView, commitView_put, commitView_mk,
    commitView_fold, ite_self]

theorem commitView_modCtxs (g : Nat → Ctx → Ctx) : (s.modCtxs g).commitView = s.commitView := rfl
theorem commitView_modCru (u : Nat) (g : Cru → Cru) : (s.modCru u g).commitView = s.commitView := rfl

theorem commitView_startCtx (k t : Nat) : (s.startCtx k t).commitView = s.commitView := by
  unfold State.startCtx
  simp only []
  split <;> rfl
theorem commitView_startStream (k t : Nat) : (s.startStream k t).commitView = s.commitView := by
  unfold State.startStream
  simp only []
  split
  · exact commitView_ite rfl (commitView_startCtx s k t)
  · exact commitView_startCtx s k t
theorem commitView_startFrame (k t : Nat) (j : OpenJob) : (s.startFrame k t j).commitView = s.commitView := rfl

theorem commitView_dgeStep {s t : State} {lim : Nat} (h : s.dgeStep lim = some t) : t.commitView = s.commitView := by
  unfold State.dgeStep at h
  simp only [] at h
  split at h
  · split at h
    · cases h
    split at h
    · cases h
      exact commitView_ite (commitView_startStream s _ _) (commitView_startFrame s _ _ _)
    · cases h
      exact commitView_startStream s _ _
  · cases h
theorem commitView_dgeRun (lim n : Nat) : ∀ s : State, (State.dgeRun lim n s).commitView = s.commitView := by
  induction n with
  | zero => exact fun _ => rfl
  | succ n ih =>
    intro s
    unfold State.dgeRun
    split
    · next h => exact (ih _).trans (commitView_dgeStep h)
    · rfl
theorem commitView_setStream (c : Nat) (x : Stream) : (s.setStream c x).commitView = s.commitView := by
  simp only [State.setStream, State.dgeSync, State.dgeTo, commitView_mk, commitView_fold, apply_ite State.commitView,
    commitView_dgeRun, ite_self]

theorem commitView_cruStep {s t : State} {u lim : Nat} (h : s.cruStep u lim = some t) : t.commitView = s.commitView := by
  unfold State.cruStep at h
  simp only [] at h
  split at h
  · cases h
  split at h
  · cases h
  split at h <;> cases h
  · exact commitView_ite rfl rfl
  all_goals rfl
theorem commitView_cruRun (u lim n : Nat) : ∀ s : State, (State.cruRun u lim n s).commitView = s.commitView := by
  induction n with
  | zero => exact fun _ => rfl
  | succ n ih =>
    intro s
    unfold State.cruRun
    split
    · next h => exact (ih _).trans (commitView_cruStep h)
    · rfl
theorem commitView_cruSync (u : Nat) : (s.cruSync u).commitView = s.commitView :=
  commitView_ite rfl (commitView_cruRun u s.now _ s)

/-! ### Ports: credits, pause, gates, preemption, links -/

theorem commitView_syncCredit (p : Nat) : (s.syncCredit p).commitView = s.commitView := rfl
theorem commitView_setHeld (p i : Nat) (t : Option Nat) (now : Bool) : (s.setHeld p i t now).commitView = s.commitView :=
  commitView_putAt (s.modPort p _) (by simp only [R.FC_STAT_RX_HELD]; omega) i _
theorem commitView_settleLoads (p : Nat) : (s.settleLoads p).commitView = s.commitView := by
  simp only [State.settleLoads, commitView_modPort, commitView_mk, commitView_fold]
  refine foldl_same State.commitView _ _ (fun u x => ?_) s
  simp only [commitView_setHeld, commitView_syncCredit, commitView_mk, commitView_fold]
theorem commitView_syncPort (p : Nat) : (s.syncPort p).commitView = s.commitView := commitView_settleLoads s p
theorem commitView_syncCredits : s.syncCredits.commitView = s.commitView :=
  foldl_same State.commitView _ _ commitView_syncPort s

theorem commitView_setPreempt (p : Nat) (b : Bool) : (s.setPreempt p b).commitView = s.commitView := by
  simp (disch := simp only [R.QPORT_STAT_PREEMPT_ACTIVE, R.QPORT_STAT_HOLD] <;> omega) only [State.setPreempt,
    apply_ite State.commitView, commitView_put, commitView_mk, commitView_fold, ite_self]
theorem commitView_sendOut (p : Nat) (o : Sent) : (s.sendOut p o).commitView = s.commitView :=
  commitView_ite rfl (commitView_emit s o)
theorem commitView_verifyStart (p : Nat) : (s.verifyStart p).commitView = s.commitView := by
  simp (disch := simp only [R.QPORT_STAT_VERIFY_STATE, R.QPORT_STAT_HOLD] <;> omega) only [State.verifyStart,
    apply_ite State.commitView, commitView_setPreempt, commitView_sendOut, commitView_modPort, commitView_wr, commitView_put, ite_self]

theorem commitView_gateHold (p w : Nat) : (s.gateHold p w).commitView = s.commitView := by
  have h (b : Bool) : (s.put (R.QPORT_STAT_HOLD p) b).commitView = s.commitView :=
    commitView_put s (by simp only [R.QPORT_STAT_HOLD]; omega) b
  unfold State.gateHold
  split
  · rfl
  split
  · exact h true
  · exact h false
  · rfl
theorem commitView_enterGate (p e : Nat) : (s.enterGate p e).commitView = s.commitView := by
  simp (disch := simp only [R.GCL_OPER_ENTRY] <;> omega) only [State.enterGate, commitView_gateHold, commitView_wr,
    commitView_modPort, commitView_syncPort]
theorem commitView_gateBoundary (p : Nat) : (s.gateBoundary p).commitView = s.commitView := by
  simp (disch := simp only [R.QPORT_STAT_HOLD] <;> omega) only [State.gateBoundary, apply_ite State.commitView,
    commitView_enterGate, commitView_modPort, commitView_put, commitView_syncPort, ite_self]

theorem commitView_linkState (p st : Nat) : (s.linkState p st).commitView = s.commitView :=
  commitView_wr s (by simp only [R.PORT_STAT_STATE]; omega) st
theorem commitView_pauseReset (p : Nat) : (s.pauseReset p).commitView = s.commitView := by
  simp (disch := simp only [R.PAUSE_WD_STAT_HOLDING, R.FC_STAT_TX_XOFF, R.FC_STAT_STRICT_LOCK, R.FC_STAT_RX_HELD] <;> omega) only
    [State.pauseReset, commitView_wr, commitView_put, commitView_modPort, commitView_syncPort]
theorem commitView_enterAcquire (p : Nat) : (s.enterAcquire p).commitView = s.commitView := by
  simp (disch := simp only [R.PORT_STAT_AN_DONE, R.PORT_STAT_DUPLEX_FAULT, R.PORT_STAT_RATE_FAULT, R.PORT_STAT_SX_LOCK,
      R.PORT_STAT_PCS_SYNC] <;> omega) only
    [State.enterAcquire, commitView_put, commitView_modPort, commitView_linkState]
theorem commitView_linkLost (p : Nat) : (s.linkLost p).commitView = s.commitView := by
  unfold State.linkLost
  extract_lets counted gone emptied reset held
  have hgone : gone.commitView = s.commitView := by
    refine (foldl_same State.commitView _ _ (fun (u : State) (e : Nat × Nat) => commitView_dispose u e.1 e.2 6) counted).trans ?_
    simp (disch := simp only [R.LINK_LOST_CNT, R.LINK_CHG_LINK_LOST_EV] <;> omega) only [counted, State.linkEvent,
      commitView_inc, commitView_setLevel]
  simp (disch := simp only [R.QPORT_STAT_HOLD, R.QPORT_STAT_VERIFY_STATE] <;> omega) only [held, reset, emptied, commitView_log,
    commitView_put, commitView_setPreempt, commitView_wr, commitView_pauseReset, commitView_modPort, hgone]
theorem commitView_spoilRx (p : Nat) : (s.spoilRx p).commitView = s.commitView := rfl
theorem commitView_plainPause (p : Nat) : (s.plainPause p).commitView = s.commitView := by
  simp (disch := simp only [R.FC_STAT_AN_RX_EN, R.FC_STAT_AN_TX_EN] <;> omega) only [State.plainPause, apply_ite State.commitView,
    commitView_put, ite_self]
theorem commitView_relink (p : Nat) : (s.relink p).commitView = s.commitView := by
  simp only [State.relink, commitView_enterAcquire, apply_ite State.commitView, commitView_spoilRx, commitView_linkLost, ite_self]
theorem commitView_disable (p : Nat) : (s.disable p).commitView = s.commitView := by
  simp (disch := simp only [R.PORT_STAT_LOCAL_FAULT, R.PORT_STAT_REMOTE_FAULT] <;> omega) only [State.disable, commitView_put,
    commitView_modPort, commitView_linkState]
theorem commitView_commitLink (changed : Fld → Bool) (p : Nat) : (s.commitLink changed p).commitView = s.commitView := by
  simp only [State.commitLink, commitView_plainPause, apply_ite State.commitView, commitView_disable, commitView_relink, ite_self]
theorem commitView_commitQueues (changed : Fld → Bool) (p : Nat) : (s.commitQueues changed p).commitView = s.commitView := by
  unfold State.commitQueues
  extract_lets gate len list credited listed gated
  have hlisted : listed.commitView = s.commitView :=
    commitView_ite ((commitView_put _ (by simp only [R.QPORT_STAT_GCL_PEND]; omega) true).trans (commitView_modPort credited p _)) rfl
  have hgated : gated.commitView = s.commitView := commitView_ite ((commitView_gateBoundary listed p).trans hlisted) hlisted
  simp only [apply_ite State.commitView, commitView_verifyStart, commitView_setPreempt, hgated, ite_self]

/-! ### The outcome of a resolution and an acceptance -/

theorem commitView_recordRec (c : Ctx) (f : Nat) : (s.recordRec c f).commitView = s.commitView := by
  unfold State.recordRec
  split
  · exact commitView_inc s (by decide)
  split
  · exact commitView_inc s (by simp only [R.REC_TAGLESS]; omega)
  extract_lets stated _ timed lat cnt
  have htimed : timed.commitView = s.commitView := by
    simp (disch := simp only [R.REC_STAT_RECOV_SEQ, R.REC_HISTORY, R.REC_STAT_TAKE_ANY] <;> omega) only [timed, stated,
      apply_ite State.commitView, commitView_mk, commitView_fold, commitView_put, commitView_wr, ite_self]
  have hcnt (u : State) (a b : Nat) : (cnt u a b).commitView = u.commitView := commitView_ite rfl rfl
  clear_value timed cnt
  split <;>
    simp (disch := simp only [R.REC_ROGUE, R.REC_DISCARDED, R.REC_PASSED, R.REC_OOO, R.REC_LOST] <;> omega) only [hcnt,
      commitView_inc, commitView_add, htimed]

theorem commitView_recordEffects (c : Ctx) : (s.recordEffects c).commitView = s.commitView := by
  unfold State.recordEffects
  extract_lets policed counted recorded hit
  have hpoliced : policed.commitView = s.commitView := foldl_same State.commitView _ _ (fun u a => commitView_setPolLvl u _ _) s
  have hcounted : counted.commitView = s.commitView :=
    (foldl_same State.commitView _ _ (fun u k => commitView_count u k c.len) policed).trans hpoliced
  have hrecorded : recorded.commitView = s.commitView :=
    (foldl_same State.commitView _ _ (fun u f => commitView_recordRec u c _) counted).trans hcounted
  have hhit : hit.commitView = s.commitView := (commitView_setHits recorded c.hits).trans hrecorded
  split
  · exact (commitView_sketchAdd hit _ _).trans hhit
  · exact hhit

theorem commitView_handExit (h i : Nat) (f : Frame) (x : ExitRec) (orig : List Byte) :
    (s.handExit h i f x orig).commitView = s.commitView := by
  unfold State.handExit
  extract_lets b
  split
  · simp (disch := simp only [R.TX_OVERSIZE] <;> omega) only [apply_ite State.commitView, commitView_dispose, commitView_inc,
      commitView_modEntry, commitView_syncPort, ite_self]
  split
  · next g r _ =>
    have hb := ringBase_gt g r
    simp (disch := simp only [R.RING_CNT3] <;> omega) only [apply_ite State.commitView, commitView_dispose, commitView_inc,
      commitView_modEntry, ite_self]
  · exact commitView_modEntry s _ _

theorem commitView_writeBytes (fn addr : Nat) (relaxed : Bool) (b : List Byte) : (s.writeBytes fn addr relaxed b).commitView = s.commitView :=
  foldl_same State.commitView _ _ (fun u _ => commitView_emit u _) s
theorem commitView_exceptionCopy (f : Frame) (orig : List Byte) (info : Nat) : (s.exceptionCopy f orig info).commitView = s.commitView := by
  unfold State.exceptionCopy
  extract_lets b
  split
  · exact (commitView_readyDesc _ _ _ _ _).trans (commitView_writeBytes s _ _ _ _)
  · exact commitView_inc s (by decide)
theorem commitView_foldBad (f : Frame) : (s.foldBad f).commitView = s.commitView := by
  simp (disch := simp only [R.FOLD_FAULT_CNT, R.DATA_FAULT_CNT] <;> omega) only [State.foldBad, commitView_bufFault, commitView_inc]

theorem commitView_outcome (h : Nat) (c : Ctx) : (s.outcome h c).commitView = s.commitView := by
  unfold State.outcome
  split
  · rfl
  extract_lets orig bad late trap patch f recorded placed code live exc handed copied
  have hplaced : placed.commitView = s.commitView := by
    simp (disch := simp only [R.CARRY_FREE] <;> omega) only [placed, recorded, commitView_mk, commitView_fold, commitView_wr,
      commitView_recordEffects]
  have hhanded : handed.commitView = s.commitView := by
    refine (foldl_same State.commitView _ _ (fun u i => ?_) placed).trans hplaced
    split
    · split
      · exact commitView_dispose u _ _ _
      · exact commitView_handExit u _ _ _ _ _
      · rfl
    · rfl
  have hcopied : copied.commitView = s.commitView :=
    commitView_ite hhanded (commitView_ite ((commitView_foldBad handed f).trans hhanded)
      ((commitView_exceptionCopy handed f orig _).trans hhanded))
  split
  · exact (commitView_acceptedCpl copied _ _ _).trans hcopied
  · simp only [apply_ite State.commitView, commitView_mk, commitView_fold, commitView_acceptedCpl, hcopied, ite_self]

theorem commitView_openEntry {s t : State} {e : Entry} {i : Nat} (h : s.openEntry e = (i, t)) : t.commitView = s.commitView := by
  cases h
  simp only [commitView_spend, commitView_entryLow, apply_ite State.commitView, commitView_setFlow, commitView_mk, commitView_fold,
    ite_self]
theorem commitView_drawSeqs {s t : State} {l : List Exit} {n : List (Nat × Nat)} (h : s.drawSeqs l = (n, t)) :
    t.commitView = s.commitView := by
  change (n, t).2.commitView = _
  rw [← h]
  refine List.foldlRecOn (motive := fun a : List (Nat × Nat) × State => a.2.commitView = s.commitView) _ _ rfl (fun a ha g _ => ?_)
  simp (disch := simp only [R.GEN_SEQ, R.GEN_DRAWN] <;> omega) only [commitView_inc, commitView_wr, ha]

theorem commitView_acceptBy {gone : State → State} (hgone : ∀ u, (gone u).commitView = u.commitView) (h : Nat) (c : Ctx) (v : Arrival)
    (flow : Nat) (named : List Exit) (t : Try) : (s.acceptBy gone h c v flow named t).commitView = s.commitView := by
  unfold State.acceptBy
  extract_lets placed f seq flowed host
  have hflowed : flowed.commitView = s.commitView := commitView_setFlow placed flow _
  split
  next nums drawn hdrawn =>
  have hd : drawn.commitView = s.commitView := (commitView_drawSeqs hdrawn).trans hflowed
  split
  next opened es hopened =>
  have ho : opened.commitView = s.commitView := by
    change (opened, es).1.commitView = _
    rw [← hopened]
    refine List.foldlRecOn (motive := fun a : State × List ExitRec => a.1.commitView = s.commitView) _ _ hd (fun a ha k _ => ?_)
    extract_lets x
    split
    next e u hu =>
    have he : u.commitView = s.commitView := (commitView_openEntry hu).trans ha
    split
    · exact (commitView_modDesc _ _ _ _ _).trans he
    · simp only [apply_ite State.commitView, commitView_mk, commitView_fold, he, ite_self]
  extract_lets hit ignored fr _ framed freed
  have hhit : hit.commitView = s.commitView := by
    simp (disch := simp only [R.CARRY_FREE] <;> omega) only [hit, commitView_wr, commitView_setHits, ho]
  have hignored : ignored.commitView = s.commitView := by
    simp only [ignored]
    split
    · refine commitView_ite ((foldl_same State.commitView _ _ (fun u k => ?_) hit).trans hhit) hhit
      exact commitView_inc u (by simp only [R.LT_IGNORED]; omega)
    · exact hhit
  have hframed : framed.commitView = s.commitView := by simp only [framed, commitView_mk, commitView_fold, hignored]
  simp only [freed, commitView_elConfirm, commitView_advanceDel, hgone, hframed]

/-! ### The console's lines and MGC's frames -/

theorem commitView_takeCell {s t : State} {mgmt : Bool} {i : Nat} (h : s.takeCell mgmt = some (i, t)) : t.commitView = s.commitView := by
  unfold State.takeCell at h
  split at h
  · cases h
  · simp only [Option.some.injEq, Prod.mk.injEq] at h
    obtain ⟨-, rfl⟩ := h
    simp (disch := simp only [R.MGMT_HELD] <;> omega) only [commitView_freeFlags, apply_ite State.commitView, commitView_wr,
      commitView_mk, commitView_fold, ite_self]
theorem commitView_writeCells (chain : List Nat) (folded : Bool) (stored : List Byte) :
    (s.writeCells chain folded stored).commitView = s.commitView := by
  refine foldl_same State.commitView _ _ (fun u k => ?_) s
  unfold State.writeCell
  split <;> rfl
theorem commitView_mgcCells {s t : State} {b : List Byte} {l : List Nat} (h : s.mgcCells b = some (l, t)) : t.commitView = s.commitView := by
  unfold State.mgcCells at h
  obtain ⟨x, hx, hxt⟩ := Option.map_eq_some_iff.mp h
  have hcells : ∀ y, (some x = some y) → y.2.commitView = s.commitView := by
    rw [← hx]
    refine List.foldlRecOn (motive := fun o : Option (List Nat × State) => ∀ y, o = some y → y.2.commitView = s.commitView) _ _
      (fun y hy => by cases hy; rfl) (fun o ho k _ y hy => ?_)
    obtain ⟨z, rfl, hz⟩ := Option.bind_eq_some_iff.mp hy
    obtain ⟨c, hc, rfl⟩ := Option.map_eq_some_iff.mp hz
    exact (commitView_takeCell hc).trans (ho z rfl)
  cases hxt
  exact (commitView_writeCells x.2 _ _ _).trans (hcells x rfl)

theorem commitView_mgcOffer (p : Nat) (b : List Byte) : (s.mgcOffer p b).commitView = s.commitView := by
  have hrefused : (s.inc R.NET_RPL_REFUSED).commitView = s.commitView := commitView_inc s (by decide)
  unfold State.mgcOffer
  extract_lets flow f l x _ c h v
  refine commitView_ite hrefused ?_
  split
  · exact hrefused
  next cells u hu =>
  exact commitView_ite hrefused ((commitView_outcome _ h _).trans
    ((commitView_acceptBy u (fun _ => rfl) h c _ flow [x] _).trans (commitView_mgcCells hu)))
theorem commitView_netDrain (n : Nat) : ∀ s : State, (State.netDrain n s).commitView = s.commitView := by
  induction n with
  | zero => exact fun _ => rfl
  | succ n ih =>
    intro s
    unfold State.netDrain
    extract_lets used
    split
    · rfl
    · refine commitView_ite rfl ?_
      simp only [ih, commitView_mgcOffer, commitView_mk, commitView_fold]
theorem commitView_netFrame {s t : State} {p kind : Nat} {line b : List Byte} (h : s.netFrame p kind line = (b, t)) :
    t.commitView = s.commitView := by
  unfold State.netFrame at h
  extract_lets slot pay at h
  split at h
  next tag u hu =>
  cases h
  split at hu
  · obtain ⟨-, rfl⟩ := Prod.mk.inj hu
    rfl
  · obtain ⟨-, rfl⟩ := Prod.mk.inj hu
    rfl
theorem commitView_netSend (p kind : Nat) (line : List Byte) : (s.netSend p kind line).commitView = s.commitView := by
  unfold State.netSend
  split
  next b u hu =>
  simp only [commitView_netDrain, commitView_mk, commitView_fold, commitView_netFrame hu]
theorem commitView_uartSend (l : List Byte) : (s.uartSend l).commitView = s.commitView := rfl
theorem commitView_modChan (ch : Nat) (g : ConChan → ConChan) : (s.modChan ch g).commitView = s.commitView := rfl
theorem commitView_mbxPlace (f : Nat) (event : Bool) (line : List Byte) : (s.mbxPlace f event line).commitView = s.commitView :=
  (commitView_raise _ _).trans (commitView_modChan s _ _)

theorem commitView_placeEvents (n ch : Nat) : ∀ s : State, (State.placeEvents n ch s).commitView = s.commitView := by
  induction n with
  | zero => exact fun _ => rfl
  | succ n ih =>
    intro s
    unfold State.placeEvents
    split
    · rfl
    extract_lets took
    have htook : took.commitView = s.commitView := commitView_modChan s ch _
    split <;> simp only [apply_ite State.commitView, ih, commitView_mbxPlace, commitView_uartSend, commitView_netSend, htook, ite_self]

theorem commitView_j1Params (seq : Nat) : (s.j1Params seq).commitView = s.commitView := by
  simp (disch := simp only [jpar, R.POLY_LO, R.POLY_HI, R.INIT_LO, R.INIT_HI, R.XOROUT_LO, R.XOROUT_HI, R.JPAR_CFG_WIDTH, R.JPAR_CFG_REFIN,
      R.JPAR_CFG_REFOUT, R.JFOLD_LO, R.JFOLD_HI, R.JCTRL_FOLD_LEN] <;> omega) only [State.j1Params, commitView_wr, commitView_put]
theorem commitView_j1Line (l : List Byte) : (s.j1Line l).commitView = s.commitView := by
  unfold State.j1Line
  split
  · rfl
  · simp only [State.j1Done, commitView_modCru, commitView_j1Params, commitView_cruSync]

theorem commitView_evDrop (ch : Nat) : (s.evDrop ch).commitView = s.commitView := by
  have hlost := (commitView_inc (s.modChan ch (fun c => { c with lost := c.lost + 1 })) (f := R.EV_LINES_LOST) (by decide)).trans
    (commitView_modChan s ch _)
  unfold State.evDrop
  extract_lets u
  split
  · next f _ =>
    have hb := mbxBase_gt f
    exact (commitView_inc u (by simp only [R.MBX_EV_LOST]; omega)).trans hlost
  · exact hlost
theorem commitView_evLine (ch : Nat) (text : List Byte) : (s.evLine ch text).commitView = s.commitView := by
  unfold State.evLine
  extract_lets c mk need new
  refine commitView_ite rfl (commitView_ite (commitView_evDrop s ch) ?_)
  exact (commitView_placeEvents 14 ch _).trans ((commitView_modChan _ ch _).trans (foldl_same State.commitView _ _ commitView_j1Line s))

theorem commitView_placeWaiting (n : Nat) : ∀ s : State, (State.placeWaiting n s).commitView = s.commitView := by
  induction n with
  | zero => exact fun _ => rfl
  | succ n ih =>
    intro s
    unfold State.placeWaiting
    split
    · rfl
    next f final l t _ =>
    have hb := mbxBase_gt f
    simp (disch := simp only [R.MBX_STAT_CMD_BUSY] <;> omega) only [apply_ite State.commitView, ih, commitView_put, commitView_mbxPlace,
      commitView_mk, commitView_fold, ite_self]
theorem commitView_sendReply (ch : Nat) (lines : List (List Byte)) : (s.sendReply ch lines).commitView = s.commitView := by
  unfold State.sendReply
  split
  · simp only [commitView_placeWaiting, commitView_mk, commitView_fold]
  · exact commitView_ite (commitView_uartSend s _) (foldl_same State.commitView _ _ (fun u l => commitView_netSend u _ 2 l) s)
theorem commitView_conPop : s.conPop.commitView = s.commitView := rfl
theorem commitView_conReply (x : ConLine) (seq : Option Nat) (clear : Bool) (r : ConReply) :
    (s.conReply x seq clear r).commitView = s.commitView := by
  unfold State.conReply
  extract_lets lines popped
  have hpopped : popped.commitView = s.commitView := (commitView_modChan s.conPop x.ch _).trans (commitView_conPop s)
  refine (commitView_sendReply _ x.ch lines).trans ((commitView_inc _ ?_).trans
    ((foldl_same State.commitView _ lines commitView_j1Line popped).trans hpopped))
  split <;> decide
theorem commitView_netTakes (x : ConLine) : (s.netTakes x).commitView = s.commitView := by
  unfold State.netTakes
  split
  · exact commitView_ite (commitView_wr s (by simp only [R.NET_LAST_SEQ]; omega) _) rfl
  · rfl
theorem commitView_conSilent (x : ConLine) : (s.conSilent x).commitView = s.commitView := by
  unfold State.conSilent
  split
  · next f _ =>
    have hb := mbxBase_gt f
    exact commitView_put s.conPop (by simp only [R.MBX_STAT_CMD_BUSY]; omega) false
  · rfl
theorem commitView_conFlush (n : Nat) : ∀ s : State, (State.conFlush n s).commitView = s.commitView := by
  induction n with
  | zero => exact fun _ => rfl
  | succ n ih =>
    intro s
    unfold State.conFlush
    refine commitView_ite rfl ?_
    split
    · rfl
    split
    · exact (ih _).trans (commitView_conSilent s _)
    · exact (ih _).trans ((commitView_conSilent _ _).trans (commitView_inc s (by decide)))
    · exact (ih _).trans ((commitView_conReply _ _ _ _ _).trans (commitView_netTakes s _))
    · rfl
theorem commitView_conFinish (r : ConReply) : (s.conFinish r).commitView = s.commitView := by
  unfold State.conFinish
  split
  · rfl
  split
  · exact (commitView_conFlush _ _).trans (commitView_conReply s _ _ false r)
  · rfl
theorem commitView_mbxClear (f : Nat) : (s.mbxClear f).commitView = s.commitView := by
  unfold State.mbxClear
  simp only []
  split
  · exact commitView_ite rfl rfl
  · rfl

/-! ### Timed outputs, MDIO and the PHY handshake -/

theorem commitView_modOut (i : Nat) (g : Tout → Tout) : (s.modOut i g).commitView = s.commitView := rfl
theorem commitView_outsPeriod : s.outsPeriod.commitView = s.commitView := by
  refine foldl_same State.commitView _ _ (fun u i => ?_) s
  simp (disch := simp only [R.TOUT_SKIP_MISS_CNT, R.TOUT_CTRL_MISS, R.TOUT_CTRL_ARM_REFUSED, R.TOUT_CTRL_ARMED] <;> omega) only
    [apply_ite State.commitView, commitView_inc, State.outMiss, commitView_setLevel, commitView_put, commitView_modOut, ite_self]

theorem commitView_modMdio (m : Nat) (g : MdioState → MdioState) : (s.modMdio m g).commitView = s.commitView := rfl
theorem commitView_mdioSend (m : Nat) (t : MdioTx) : (s.mdioSend m t).commitView = s.commitView :=
  (commitView_emit _ _).trans (commitView_modMdio s m _)
theorem commitView_mdioFinish (m : Nat) : (s.mdioFinish m).commitView = s.commitView := by
  simp (disch := simp only [R.MDIO_STAT_DONE, R.MDIO_CMD_GO] <;> omega) only [State.mdioFinish, commitView_setFlag, commitView_put]
theorem commitView_handEnd (p : Nat) (ok : Bool) : (s.handEnd p ok).commitView = s.commitView := by
  unfold State.handEnd
  extract_lets _ u f
  have hf : 512 < f.off := by
    simp only [f]
    split
    · simp only [R.PHY_PM_STAT_WK_FAIL]; omega
    · simp only [R.PHY_PM_STAT_SLP_FAIL]; omega
  exact commitView_ite rfl ((commitView_log _ _ _).trans (commitView_setLevel u hf _ _))
theorem commitView_mgcParked (m k : Nat) : (s.mgcParked m k).commitView = s.commitView := by
  simp (disch := simp only [R.MDIO_STAT_DONE, R.MDIO_STAT_FAIL] <;> omega) only [State.mgcParked, apply_ite State.commitView,
    commitView_handEnd, commitView_conFinish, commitView_setFlag, commitView_put, ite_self]
theorem commitView_mdioNext (m : Nat) (lastMgc : Bool) : (s.mdioNext m lastMgc).commitView = s.commitView := by
  unfold State.mdioNext
  extract_lets c emptied ended own
  split
  · rfl
  split
  · refine (foldl_same State.commitView _ _ (fun u x => commitView_mgcParked u m _) ended).trans ?_
    simp (disch := simp only [R.MDIO_STAT_FAIL] <;> omega) only [ended, emptied, apply_ite State.commitView, commitView_mdioFinish,
      commitView_put, commitView_modMdio, ite_self]
  · split
    · rfl
    · exact (commitView_mdioSend _ _ _).trans (commitView_modMdio s m _)
theorem commitView_handStart (ports : Nat) (wake : Bool) : (s.handStart ports wake).commitView = s.commitView := by
  refine commitView_ite rfl ((foldl_same State.commitView _ _ (fun u p => ?_) _).trans rfl)
  exact (commitView_mdioNext _ _ false).trans (commitView_modMdio u _ _)
theorem commitView_wakePhys : s.wakePhys.commitView = s.commitView :=
  commitView_ite rfl ((commitView_handStart _ _ true).trans rfl)

/-! ### The reset of a tenant -/

theorem commitView_abortFn (f : Func) : (s.abortFn f).commitView = s.commitView := by
  unfold State.abortFn
  extract_lets disposed dropped
  have hdisposed : disposed.commitView = s.commitView :=
    foldl_same State.commitView _ _ (fun (u : State) (e : Nat × Nat) => commitView_dispose u e.1 e.2 7) s
  have hdropped : dropped.commitView = s.commitView :=
    (foldl_same State.commitView _ _ (fun (u : State) (r : TxRing) => commitView_dropArr u (.host f r)) disposed).trans hdisposed
  simp only [commitView_mk, commitView_fold, hdropped]
theorem commitView_clearRings (f : Func) : (s.clearRings f).commitView = s.commitView := by
  unfold State.clearRings
  extract_lets emptied closed
  have hemptied : emptied.commitView = s.commitView := foldl_same State.commitView _ _ (fun u r => commitView_modRing u f r _) s
  have hclosed : closed.commitView = s.commitView := commitView_ite ((commitView_elClose emptied f).trans hemptied) hemptied
  simp only [commitView_mk, commitView_fold, hclosed]
theorem commitView_clearSources (l : List Nat) : (s.clearSources l).commitView = s.commitView :=
  foldl_same State.commitView _ _ (fun u i => commitView_setSrc u i _) s
theorem commitView_clearLatches (rd : Reader) : (s.clearLatches rd).commitView = s.commitView := rfl
theorem commitView_clearConfig (f : Nat) : (s.clearConfig f).commitView = s.commitView := commitView_ite rfl rfl
theorem commitView_showQuiesced : s.showQuiesced.commitView = s.commitView := commitView_wr s (by decide) _

/-- Registers cleared above CFG_EPOCH leave it alone. -/
theorem commitView_clearRegs {lo : Nat} (h : 512 < lo) (n : Nat) : (s.clearRegs lo n).commitView = s.commitView := by
  have hr : regGet (regClear s.regs lo n) R.CFG_EPOCH = regGet s.regs R.CFG_EPOCH := by
    simp only [regGet, mgetD, regClear, Fld.key, R.CFG_EPOCH]
    rw [mget_filter _ _ _ (fun v => by simp; omega)]
  simp only [State.clearRegs, commitView_mk, hr, commitView_fold]

theorem commitView_flrTenant (n : Tenant) : (s.flrTenant n).commitView = s.commitView := by
  unfold State.flrTenant
  refine commitView_ite rfl ?_
  extract_lets f aborted cleared masked
  have haborted : aborted.commitView = s.commitView :=
    (commitView_abortFn _ f).trans (commitView_putAt s (by decide) _ true)
  have hcleared : cleared.commitView = s.commitView :=
    (commitView_clearRegs _ (by omega) _).trans
      ((commitView_mbxClear _ _).trans ((commitView_clearRings aborted f).trans haborted))
  have hlatched : ((masked.setStream n Stream.reset).clearLatches (.tenant n)).commitView = s.commitView :=
    (commitView_clearLatches _ _).trans ((commitView_setStream masked _ _).trans ((commitView_clearSources cleared _).trans hcleared))
  exact (commitView_showQuiesced _).trans ((commitView_clearConfig _ _).trans hlatched)

/-! ### The parts of a commit -/

theorem commitView_takeAny (f : Nat) : (s.takeAny f).commitView = s.commitView := by
  simp (disch := simp only [R.REC_HISTORY, R.REC_STAT_TAKE_ANY] <;> omega) only [State.takeAny, commitView_wr, commitView_put]
theorem commitView_recCommit (changed : Fld → Bool) : (s.recCommit changed).commitView = s.commitView := by
  refine (foldl_same State.commitView _ _ (fun u f => ?_) _).trans (foldl_same State.commitView _ _ (fun u g => ?_) s)
  · exact commitView_ite (commitView_takeAny _ f) rfl
  · exact commitView_ite (commitView_wr u (by simp only [R.GEN_SEQ]; omega) 0) rfl
theorem commitView_commitBanks (old e : Nat) : (s.commitBanks old e).commitView = s.commitView :=
  (foldl_same State.commitView _ _ (fun u b => commitView_fillPolicers u b old) _).trans rfl
theorem commitView_commitKeys (changed : Fld → Bool) (e : Nat) : (s.commitKeys changed e).commitView = s.commitView := rfl
theorem commitView_commitTpl (t : Nat) (v : Tpl) : (s.commitTpl t v).commitView = s.commitView := by
  unfold State.commitTpl State.installTpl
  refine commitView_ite rfl (commitView_ite ?_ rfl)
  split <;> rfl
theorem commitView_commitTables : s.commitTables.commitView = s.commitView := by
  unfold State.commitTables
  extract_lets tpls flows _ _ emptied templated
  have ht : templated.commitView = s.commitView :=
    foldl_same State.commitView _ _ (fun (u : State) (x : Nat × Tpl) => commitView_commitTpl u x.1 x.2) emptied
  exact (foldl_same State.commitView _ _ (fun u x => commitView_setFlow u _ _) templated).trans ht
theorem commitView_commitBuckets (changed : Fld → Bool) : (s.commitBuckets changed).commitView = s.commitView := by
  refine (foldl_same State.commitView _ _ (fun u f => ?_) _).trans rfl
  exact foldl_same State.commitView _ _ (fun v r => commitView_ite (commitView_modRing v f r _) rfl) u
theorem commitView_commitQuotas : s.commitQuotas.commitView = s.commitView := by
  refine foldl_same State.commitView _ _ (fun u n => ?_) s
  simp only [commitView_mk, commitView_fold, commitView_flrTenant]
theorem commitView_becomeReady : s.becomeReady.commitView = s.commitView := by
  simp (disch := simp only [R.HIF_STAT_READY] <;> omega) only [State.becomeReady, apply_ite State.commitView, commitView_put,
    commitView_mk, commitView_fold, ite_self]
theorem commitView_commitFirst (boot : Bool) : (s.commitFirst boot).commitView = s.commitView := by
  simp (disch := simp only [R.ECL_CAUSE, R.ECL_TICK_LO, R.ECL_TICK_HI, R.HIF_STAT_FW_LATE] <;> omega) only [State.commitFirst, State.wr64,
    apply_ite State.commitView, commitView_mk, commitView_fold, commitView_wakePhys, commitView_put, commitView_becomeReady,
    commitView_wr, ite_self]

/-! ### What comes into force -/

/-- The record of received pauses is no staged field. -/
theorem stagedKey_rxHeld : ∀ p ∈ List.range 6, stagedKey (Fld.key (R.FC_STAT_RX_HELD p)) = false := by decide

/-- Bringing a port up to date changes no staged field. -/
theorem stagedPart_syncPort {p : Nat} (hp : p ∈ List.range 6) : stagedPart (s.syncPort p).regs = stagedPart s.regs :=
  foldl_same (fun u => stagedPart u.regs) _ _ (fun u _ => stagedPart_regPut u.regs (stagedKey_rxHeld p hp) _) s
theorem stagedPart_syncCredits : stagedPart s.syncCredits.regs = stagedPart s.regs :=
  List.foldlRecOn (motive := fun u : State => stagedPart u.regs = stagedPart s.regs) _ _ rfl
    (fun u hu _ hp => (stagedPart_syncPort u hp).trans hu)

/-- What a pending commit leaves: the next epoch, which CFG_EPOCH reports, what was staged in force, and the old configuration kept
(R37, R38, R71). -/
theorem commitView_commitNow {n : Nat} (h : s.tick.commitAt = some n) :
    s.commitNow.commitView = ⟨s.nextEpoch, none, s.tick.num, stagedPart s.regs, s.oldForce ++ [(s.tick.epoch, s.force)], s.nextEpoch⟩ := by
  unfold State.commitNow
  split
  · next hn => rw [hn] at h; cases h
  extract_lets old changed was e told synced tick forced shown cleared per active parts ports recs outs keyed logged
  have hsynced : synced.commitView = s.commitView := commitView_syncCredits s
  obtain ⟨-, -, hnum, -, hold, -⟩ := (CommitView.mk.injEq ..).mp hsynced
  have hopened : (forced.wr R.CFG_EPOCH e).commitView
      = ⟨s.nextEpoch, none, s.tick.num, stagedPart s.regs, s.oldForce ++ [(s.tick.epoch, s.force)], s.nextEpoch⟩ := by
    have he : e % 2 ^ R.CFG_EPOCH.width = s.nextEpoch := Nat.mod_mod _ _
    simp only [State.wr, forced, commitView_mk, regGet_regPut_same, he, tick, hnum, hold, synced, stagedPart_syncCredits, e, was, old]
  have hactive : active.commitView = (forced.wr R.CFG_EPOCH e).commitView := by
    simp (disch := decide) only [active, cleared, shown, commitView_wr, commitView_put]
  have hparts : parts.commitView = active.commitView := by
    simp only [parts, commitView_commitBuckets, commitView_commitTables, commitView_commitKeys, commitView_commitBanks]
  have hports : ports.commitView = parts.commitView := by
    refine foldl_same State.commitView _ _ (fun u p => ?_) parts
    exact (commitView_commitQueues _ changed p).trans (commitView_commitLink u changed p)
  have hrecs : recs.commitView = ports.commitView := (commitView_commitQuotas _).trans (commitView_recCommit ports changed)
  have houts : outs.commitView = recs.commitView := commitView_ite (commitView_outsPeriod recs) rfl
  have hkeyed : keyed.commitView = outs.commitView := by
    refine commitView_ite (foldl_same State.commitView _ _ (fun u p => ?_) outs) rfl
    exact commitView_wr u (by simp only [R.NET_LAST_SEQ]; omega) _
  have hlogged : logged.commitView = keyed.commitView := (commitView_log _ _ _).trans (commitView_commitFirst keyed _)
  have hlast : logged.commitView = _ :=
    calc logged.commitView = keyed.commitView := hlogged
      _ = outs.commitView := hkeyed
      _ = recs.commitView := houts
      _ = ports.commitView := hrecs
      _ = parts.commitView := hports
      _ = active.commitView := hparts
      _ = (forced.wr R.CFG_EPOCH e).commitView := hactive
      _ = _ := hopened
  clear_value logged told
  cases told
  · exact hlast
  · exact (commitView_evLine logged _ _).trans hlast

/-! ### The resets -/

/-- After a device reset epochs start at 0, and CFG_EPOCH reports that (R37). -/
theorem stopDevice_epoch : s.stopDevice.tick.epoch = 0 ∧ s.stopDevice.rd R.CFG_EPOCH = 0 := by
  have haon : mget (aonRegs s.regs) (Fld.key R.CFG_EPOCH) = none :=
    mget_filter_none _ _ _ (fun v => by simp [Fld.key, R.CFG_EPOCH])
  refine ⟨rfl, ?_⟩
  unfold State.stopDevice
  extract_lets lost _ stopped
  rw [State.rd_wr_other _ (by decide), State.rd_wr_other _ (by decide), State.rd_wr_other _ (by decide)]
  change (mget (aonRegs s.regs) (Fld.key R.CFG_EPOCH)).getD 0 = 0
  rw [haon]
  rfl

end Sys2Proof.Machine

open Sys2Proof Sys2Proof.Machine

/-- Settles O10: after the staged values have come into force and CFG_EPOCH has been written, no part of a commit touches what a commit
decides; `commitView_commitNow` says so. -/
theorem commitTakesEffect : Obligations.CommitTakesEffect := by
  unfold Obligations.CommitTakesEffect
  refine ⟨⟨rfl, rfl⟩, fun s => ⟨⟨rfl, rfl, stopDevice_epoch s⟩, fun hs => ?_, fun n hn hdue => ?_, fun n hn hearly => ?_⟩⟩
  · obtain ⟨n, hn⟩ := Option.ne_none_iff_exists'.mp hs
    obtain ⟨hepoch, -, -, -, -, hreg⟩ := (CommitView.mk.injEq ..).mp (commitView_commitNow s hn)
    exact ⟨hepoch, hreg⟩
  · obtain ⟨hepoch, hat, hnum, hforce, hold, hreg⟩ := (CommitView.mk.injEq ..).mp (commitView_commitNow s hn)
    have hexec : exec .commitBoundary s = .next s.commitNow := by
      change execCommitBoundary s = _
      simp only [execCommitBoundary, State.commitDue, hn, hdue, decide_true, if_true]
    exact ⟨s.commitNow, hexec, hepoch, hreg, hat, hforce, hold, hnum⟩
  · change execCommitBoundary s = _
    simp only [execCommitBoundary, State.commitDue, hn, Nat.not_le.mpr hearly, decide_false, Bool.false_eq_true, if_false]

end

section
/-! Redundant streams (spec/10_redundant_streams.md). A recovery function that takes any frame next (`State.takeAny`) has TAKE_ANY set and
HISTORY cleared, and nothing else of the state moves: the shared part of R318 and R321. -/

namespace Sys2Proof.Machine

variable (s : State)

/-- An engine that is not in reset takes the write (R625). -/
theorem State.unlessReset_eq {engine : Nat} (h : s.bitAt R.ENG_RST_STAT engine = false) (f : Fld) (t : State) :
    s.unlessReset engine f t = t := by
  simp only [State.unlessReset, h, Bool.false_eq_true, if_false]

/-- TAKE_ANY and HISTORY of one function are two fields. -/
theorem key_takeAny_ne_history (f : Nat) : Fld.key (R.REC_STAT_TAKE_ANY f) ≠ Fld.key (R.REC_HISTORY f) := by
  simp only [Fld.key, R.REC_STAT_TAKE_ANY, R.REC_HISTORY]
  omega

@[simp] theorem State.takeAny_bit (f : Nat) : (s.takeAny f).bit (R.REC_STAT_TAKE_ANY f) = true := by
  have hhist : (s.takeAny f).rd (R.REC_STAT_TAKE_ANY f) = (s.put (R.REC_STAT_TAKE_ANY f) true).rd (R.REC_STAT_TAKE_ANY f) :=
    State.rd_wr_other _ (key_takeAny_ne_history f) 0
  rw [State.bit, hhist]
  exact s.bit_put (R.REC_STAT_TAKE_ANY f) true rfl

@[simp] theorem State.takeAny_history (f : Nat) : (s.takeAny f).rd (R.REC_HISTORY f) = 0 :=
  (State.rd_wr _ (R.REC_HISTORY f) 0).trans (Nat.zero_mod _)

theorem State.takeAny_regsBut (f : Nat) : s.RegsBut (s.takeAny f) [R.REC_STAT_TAKE_ANY f, R.REC_HISTORY f] :=
  (State.RegsBut.wr s (f := R.REC_STAT_TAKE_ANY f) (by simp) 1).trans (State.RegsBut.wr _ (f := R.REC_HISTORY f) (by simp) 0)

theorem State.takeAny_frame (f : Nat) : s.takeAny f = { s with regs := (s.takeAny f).regs } := rfl

/-- REC_RESET with MAS not in reset (R321). -/
theorem exec_recReset (f : RecFn) (h : s.bitAt R.ENG_RST_STAT 6 = false) : exec (.recReset f) s = .next (s.takeAny f) := by
  change Host.Outcome.next (s.unlessReset 6 (R.REC_RESET f) (s.takeAny f)) = _
  rw [s.unlessReset_eq h]

end Sys2Proof.Machine

open Sys2Proof Sys2Proof.Machine

/-- Settles O30: REC_RESET lets the function take any frame next, which sets TAKE_ANY, clears HISTORY and moves no other field, so no
counter (R321). -/
theorem recoveryReset : Obligations.RecoveryReset := by
  unfold Obligations.RecoveryReset
  intro s f hmas
  exact ⟨s.takeAny f, exec_recReset s f hmas, s.takeAny_bit f, s.takeAny_history f, s.takeAny_regsBut f, s.takeAny_frame f⟩

end

section
/-! Network time (spec/14_network_time.md), captured edges (R414, R424). The validity flags of a captured entry are those of its stamp, so
of an instant that TCAP_COMP can place before a change of the domain's validity. -/

namespace Sys2Proof.Machine

/-- The stamp of an edge that an input finds now, TCAP_COMP before the cycle of the time clock that samples it (R424). -/
def State.tcapStamp (s : State) (j : TcapPin) : Stamp :=
  s.stampAt (4 * (timeClock s.now : Int) - 256 * toSigned 16 (s.rd (R.TCAP_CFG_COMP j)))

/-- W0 of a captured entry: valid, the edge's direction, and whether its stamp is valid for TD0 and TD1 (R425). -/
def captureFlags (rising v0 v1 : Bool) : Nat :=
  1 + (if rising then 2 ^ 1 else 0) + (if v0 then 2 ^ 2 else 0) + (if v1 then 2 ^ 3 else 0)

theorem captureFlags_testBit_two : ∀ rising v0 v1 : Bool, (captureFlags rising v0 v1).testBit 2 = v0 := by decide

/-- A selected edge that passes the filter and finds room is queued, its flags those of its stamp (R414, R424, R425). -/
theorem exec_tcapEdge_queues {s : State} {j : TcapPin} {rising : Bool} {width : Nat} {l : List (List Nat)} (hup : s.tuUp = true)
    (hsel : if rising then s.rd (R.TCAP_CFG_EDGE j) % 2 = 1 else s.rd (R.TCAP_CFG_EDGE j) / 2 ≠ 0)
    (hlong : (s.rd (R.TCAP_CFG_FILTER j) + 1) * 4 ≤ width) (hl : s.tu.tcap[j.val]? = some l) (hroom : l.length < 8) :
    ∃ (t : State) (ws : List Nat), exec (.tcapEdge j rising width) s = .next t
      ∧ t.tu.tcap[j.val]? = some (l ++ [captureFlags rising (s.tcapStamp j).v0 (s.tcapStamp j).v1 :: ws]) := by
  have hpass : ¬((if rising then s.rd (R.TCAP_CFG_EDGE j) % 2 = 0 else s.rd (R.TCAP_CFG_EDGE j) / 2 = 0)
      ∨ width < (s.rd (R.TCAP_CFG_FILTER j) + 1) * 4) := by
    cases rising <;> simp_all
  have hfree : ¬(s.tuUp = false ∨ (s.tu.tcap.getD j []).length ≥ 8) := by
    simp [hup, List.getD_eq_getElem?_getD, hl, hroom]
  have hqueued (w : List Nat) : (lmod s.tu.tcap j (· ++ [w]))[j.val]? = some (l ++ [w]) := by
    simp [getElem?_lmod_same, hl]
  change ∃ t ws, execTcapEdge j rising width s = .next t ∧ _
  unfold execTcapEdge
  extract_lets _ _ _ _ _ _ w
  rw [if_neg hpass, if_neg hfree]
  refine ⟨_, w.tail, rfl, ?_⟩
  split
  · exact hqueued w
  · exact hqueued w

/-- Idle cycles after reset up to a cycle of the time clock, then sixteen rates written to TD0 in it, and an input that captures rising
edges with a TCAP_COMP of 1 ns. -/
def trainedAt20ns : State :=
  let sampled := (List.range 16).foldl (fun s _ => s.idle) State.reset
  let trained := (List.range 16).foldl (fun s _ => s.takeRate 0 0) sampled
  (trained.wr (R.TCAP_CFG_EDGE 0) 1).wr (R.TCAP_CFG_COMP 0) 1

/-- TD0 has just become VALID, by SET_VALID (`exec_setValid_justValid`). -/
def justValid : State := trainedAt20ns.setValid 0

theorem exec_setValid_justValid : exec (.setValid 0) trainedAt20ns = .next justValid := by
  have hup : trainedAt20ns.tuUp = true := by decide +kernel
  change execSetValid 0 trainedAt20ns = _
  simp only [execSetValid, hup, justValid, Bool.true_eq_false, if_false, Fin.val_zero]

/-- An edge now is stamped at an instant before SET_VALID, at which TD0 was not VALID (R414). -/
theorem justValid_stamp : justValid.tdValid 0 = true ∧ (justValid.tcapStamp 0).v0 = false := by decide +kernel

end Sys2Proof.Machine

open Sys2Proof Sys2Proof.Machine

/-- What the clause on captured edges implies: wherever an edge is queued, its stamp is valid for TD0 just as TD0 is VALID now. -/
theorem tcapStamp_valid_of_outputsAndInputs (h : Obligations.OutputsAndInputs) {s : State} {j : TcapPin} {width : Nat}
    {l : List (List Nat)} (hup : s.tuUp = true) (hsel : s.rd (R.TCAP_CFG_EDGE j) % 2 = 1)
    (hlong : (s.rd (R.TCAP_CFG_FILTER j) + 1) * 4 ≤ width) (hl : s.tu.tcap[j.val]? = some l) (hroom : l.length < 8) :
    (s.tcapStamp j).v0 = s.tdValid 0 := by
  obtain ⟨-, -, hcapture, -, -⟩ := h s
  obtain ⟨t, w, ht, hw, -, -, -, hflag, -⟩ := hcapture j true width l hup hsel hlong hl hroom
  obtain ⟨t', ws, ht', hw'⟩ := exec_tcapEdge_queues (rising := true) hup hsel hlong hl hroom
  obtain rfl : t = t' := Host.Outcome.next.inj (ht.symm.trans ht')
  obtain rfl : w = captureFlags true (s.tcapStamp j).v0 (s.tcapStamp j).v1 :: ws := by simpa using hw.symm.trans hw'
  exact (captureFlags_testBit_two true _ _).symm.trans hflag

/-- Refutes O40: its clause on captured edges has the validity flags of an entry equal the VALID flags of the domains now, where they are
those of the stamped instant (R414). In `justValid`, which SET_VALID has just made, TD0 is VALID, but an edge is stamped 1 ns earlier, so
that its entry's flag for TD0 is 0. -/
theorem not_outputsAndInputs : ¬ Obligations.OutputsAndInputs := by
  intro h
  have hup : justValid.tuUp = true := by decide +kernel
  have hsel : justValid.rd (R.TCAP_CFG_EDGE (0 : TcapPin)) % 2 = 1 := by decide +kernel
  have hlong : (justValid.rd (R.TCAP_CFG_FILTER (0 : TcapPin)) + 1) * 4 ≤ 4 := by decide +kernel
  have hempty : justValid.tu.tcap[(0 : TcapPin).val]? = some [] := by decide +kernel
  obtain ⟨hvalid, hstamp⟩ := justValid_stamp
  have hsame := tcapStamp_valid_of_outputsAndInputs h hup hsel hlong hempty (Nat.zero_lt_succ 7)
  rw [hvalid, hstamp] at hsame
  exact Bool.false_ne_true hsame

end
